-- ==== Sys2Proof/Syntax.lean ====
section
/-!
DEFINITION. The instructions and steps of the KM-4821 as data: enumerations for the coded fields, then Instr.
-/

namespace Sys2Proof

/-- R63: the element width of a vector instruction (ty). -/
inductive EW where
  | w32 | w16 | w8
  deriving DecidableEq, Repr

/-- R195: scopes. -/
inductive Scope where
  | ctx | core | cluster | dev | dom | sys
  deriving DecidableEq, Repr

/-- R199: order field of FENCE. -/
inductive FenceOrder where
  | acq | rel | ar | sc
  deriving DecidableEq, Repr

/-- R201: order field of a D-path access. -/
inductive DOrder where
  | rlx | acq | rel | sc
  deriving DecidableEq, Repr

/-- R203: conditions of WAITA. -/
inductive WaitCond where
  | eq | ne | geu | ltu | andnz
  deriving DecidableEq, Repr

/-- R15, R19: affinity of a continuation record. -/
inductive Affinity where
  | any | cluster | core
  deriving DecidableEq, Repr

/-- R68, R375: XCVT formats. -/
inductive XFmt where
  | f32 | bf16 | fp16 | e4m3 | e5m2 | int8 | int32 | int16 | uint8
  deriving DecidableEq, Repr

/-- R81: rounding modes. -/
inductive RMode where
  | rne | rtz | rdn | rup | rna | sr
  deriving DecidableEq, Repr

/-- R68: the rm field of XCVT, a mode of its own or FMT.RM. -/
inductive XRm where
  | own (m : RMode)
  | useFmt
  deriving DecidableEq, Repr

/-- R376: sub-byte kinds of XEXP and XPACK. -/
inductive XKind where
  | int4 | uint4 | e3m2 | e2m3 | int2 | e2m1
  deriving DecidableEq, Repr

/-- R379: shapes of XTRN. -/
inductive XShape where
  | s32 | s16 | s8
  deriving DecidableEq, Repr

/-- R110: layouts of MRET. -/
inductive MLayout where
  | f32 | bf16 | f32t
  deriving DecidableEq, Repr

/-- R184: access codes of PHINT. -/
inductive HintAccess where
  | none | read | write | rw | once
  deriving DecidableEq, Repr

/-- R184: tier codes of PHINT. -/
inductive HintTier where
  | any | hbm | host
  deriving DecidableEq, Repr

/-- R263, R264: what another rank of a collective brings over the fabric: the packet fields that must agree, the
status of its reads (0 OK, 1 FAULT, 2 POISON) and its source bytes. -/
structure CollPart where
  rank : Nat
  op : Nat
  awin : Nat
  ranks : Nat
  n : Nat
  table : List Nat
  status : Nat
  data : List (BitVec 8)
  deriving DecidableEq, Repr

/-- R178, R193, R205, R262: what arrives over Noleve Link: a read of so many bytes; a write, with the numbers from its
first granule of those that carry poison; a D-path atomic (operation code of R313, width in bytes, operand, compare); a
shootdown of a partition's range, or of all but its G entries, with a tag; a device's report that the shootdown asked of
it under a tag is complete; and, under the tag of the sender's migration of an old frame homed here (R186, R188), its window
of so many bytes, its forwarding entry to the new frame (a device and an address), the end of the window where the migration
ends without its commit, and the removal of the entry. -/
inductive RemoteOp where
  | read (n : Nat)
  | write (bytes : List (BitVec 8)) (poison : List Nat)
  | atomic (op z : Nat) (operand compare : BitVec 64)
  | shootdown (tag part : Nat) (range : Option (Nat × Nat))
  | report (tag : Nat)
  | window (tag size : Nat)
  | forward (tag size dev pa : Nat)
  | close (tag : Nat)
  | retire (tag : Nat)
  deriving DecidableEq, Repr

/-- R258: a host access through the UCIe window: a read of so many bytes or a write. -/
inductive HostOp where
  | read (n : Nat)
  | write (bytes : List (BitVec 8))
  deriving DecidableEq, Repr

/-- R256: what a debugger writes in a frozen context. -/
inductive DbgTarget where
  | scalar (r : BitVec 5) (v : BitVec 64)
  | vector (r : BitVec 5) (v : BitVec 2048)
  | pred (r : BitVec 3) (v : BitVec 256)
  | control (r : BitVec 12) (v : BitVec 64)
  | engine (r : BitVec 10) (v : BitVec 64)
  | pending (index : Nat) (v : BitVec 2048) (delay : Nat)
  deriving DecidableEq, Repr

/-- R192: the points of a channel's retraining: it begins, it ends, or a second channel of its group fails; the
last names the granules that cannot be reconstructed. -/
inductive RetrainEvent where
  | start
  | finish
  | secondFailure (granules : List Nat)
  deriving DecidableEq, Repr

/-- R265, R266, R268: what a cold start finds: the boot ROM, the firmware images in order, and whether each image and the
configuration record pass their verification. -/
structure BootChecks where
  rom : List (BitVec 8)
  images : List (List (BitVec 8))
  firmwareOk : Bool
  recordOk : Bool
  deriving DecidableEq, Repr

/-- One constructor per row of spec/opcode_table.json, in the table's order: slot words (R65 to R70), the two parcels
(R31), the illegal word (R71), and the steps of the device that have no word (spec/95). -/
inductive Instr where
  /-- NOP: R328 The all-zero slot word occupies no slot and does nothing. -/
  | nop
  /-- ILLEGAL_WORD: R71 A slot word that matches no instruction row suppresses the whole bundle and raises ILLEGAL. -/
  | illegalWord (w : BitVec 32)
  /-- PRINT: R331 Parcel that issues plate n in k consecutive ticks. -/
  | print (n : BitVec 9) (k : BitVec 6)
  /-- FULL_BUNDLE_HEADER: R32 Header parcel followed by 16 parcels holding one bundle, optionally engraving it into a plate at issue. -/
  | fullBundleHeader (e : BitVec 9)
  /-- ADD: R289 Scalar add modulo 2^64. -/
  | add (d a b : BitVec 5)
  /-- SUB: R289 Scalar subtract modulo 2^64. -/
  | sub (d a b : BitVec 5)
  /-- AND: R289 Scalar bitwise and. -/
  | and (d a b : BitVec 5)
  /-- OR: R289 Scalar bitwise or. -/
  | or (d a b : BitVec 5)
  /-- XOR: R289 Scalar bitwise xor. -/
  | xor (d a b : BitVec 5)
  /-- SLL: R289 Shift left by b[5:0]. -/
  | sll (d a b : BitVec 5)
  /-- SRL: R289 Logical shift right by b[5:0]. -/
  | srl (d a b : BitVec 5)
  /-- SRA: R289 Arithmetic shift right by b[5:0]. -/
  | sra (d a b : BitVec 5)
  /-- SLT: R289 Signed set-less-than giving 1 or 0. -/
  | slt (d a b : BitVec 5)
  /-- SLTU: R289 Unsigned set-less-than giving 1 or 0. -/
  | sltu (d a b : BitVec 5)
  /-- MIN: R289 Signed minimum. -/
  | min (d a b : BitVec 5)
  /-- MAX: R289 Signed maximum. -/
  | max (d a b : BitVec 5)
  /-- MINU: R289 Unsigned minimum. -/
  | minu (d a b : BitVec 5)
  /-- MAXU: R289 Unsigned maximum. -/
  | maxu (d a b : BitVec 5)
  /-- ADDI: R290 Add a sign-extended 15-bit immediate. -/
  | addi (d a : BitVec 5) (imm : BitVec 15)
  /-- ANDI: R290 And with a sign-extended immediate. -/
  | andi (d a : BitVec 5) (imm : BitVec 15)
  /-- ORI: R290 Or with a sign-extended immediate. -/
  | ori (d a : BitVec 5) (imm : BitVec 15)
  /-- XORI: R290 Xor with a sign-extended immediate. -/
  | xori (d a : BitVec 5) (imm : BitVec 15)
  /-- SLTI: R290 Signed compare against an immediate giving 1 or 0. -/
  | slti (d a : BitVec 5) (imm : BitVec 15)
  /-- SLLI: R334 Shift left by an immediate amount. -/
  | slli (d a : BitVec 5) (h : BitVec 6)
  /-- SRLI: R334 Logical shift right by an immediate amount. -/
  | srli (d a : BitVec 5) (h : BitVec 6)
  /-- SRAI: R334 Arithmetic shift right by an immediate amount. -/
  | srai (d a : BitVec 5) (h : BitVec 6)
  /-- LI: R319 Load a sign-extended 20-bit immediate. -/
  | li (d : BitVec 5) (imm : BitVec 20)
  /-- LIH: R319 Replace bits [39:20] with the immediate, sign-extending from bit 39. -/
  | lih (d : BitVec 5) (imm : BitVec 20)
  /-- LIX: R319 Replace bits [59:40] with the immediate, sign-extending from bit 59. -/
  | lix (d : BitVec 5) (imm : BitVec 20)
  /-- MUL: R325 Low 64 bits of the product. -/
  | mul (d a b : BitVec 5)
  /-- MULH: R325 High 64 bits of the signed product. -/
  | mulh (d a b : BitVec 5)
  /-- MULHU: R325 High 64 bits of the unsigned product. -/
  | mulhu (d a b : BitVec 5)
  /-- DIV: R303 Signed division toward zero. -/
  | div (d a b : BitVec 5)
  /-- DIVU: R303 Unsigned division. -/
  | divu (d a b : BitVec 5)
  /-- REM: R303 Signed remainder. -/
  | rem (d a b : BitVec 5)
  /-- REMU: R303 Unsigned remainder. -/
  | remu (d a b : BitVec 5)
  /-- CLZ: R297 Count leading zero bits. -/
  | clz (d a : BitVec 5)
  /-- CTZ: R297 Count trailing zero bits. -/
  | ctz (d a : BitVec 5)
  /-- POPC: R297 Count one bits. -/
  | popc (d a : BitVec 5)
  /-- BREV: R297 Reverse the 64 bits. -/
  | brev (d a : BitVec 5)
  /-- BEXT: R293 Extract a bit field positioned by b. -/
  | bext (d a b : BitVec 5)
  /-- BINS: R293 Insert a bit field into d positioned by b. -/
  | bins (d a b : BitVec 5)
  /-- LEA: R318 Add a to b shifted left by h. -/
  | lea (d a b : BitVec 5) (h : BitVec 3)
  /-- CMOV: R298 Move a into d only when b is nonzero. -/
  | cmov (d a b : BitVec 5)
  /-- FADD: R307 Scalar FP32 add. -/
  | fadd (d a b : BitVec 5)
  /-- FSUB: R307 Scalar FP32 subtract. -/
  | fsub (d a b : BitVec 5)
  /-- FMUL: R307 Scalar FP32 multiply. -/
  | fmul (d a b : BitVec 5)
  /-- FMIN: R307 Scalar FP32 minimum. -/
  | fmin (d a b : BitVec 5)
  /-- FMAX: R307 Scalar FP32 maximum. -/
  | fmax (d a b : BitVec 5)
  /-- FEQ: R307 Scalar FP32 equality compare. -/
  | feq (d a b : BitVec 5)
  /-- FLT: R307 Scalar FP32 less-than compare. -/
  | flt (d a b : BitVec 5)
  /-- FLE: R307 Scalar FP32 less-or-equal compare. -/
  | fle (d a b : BitVec 5)
  /-- FCVTI: R309 FP32 to saturated signed 64-bit integer. -/
  | fcvti (d a : BitVec 5)
  /-- FCVTF: R309 Signed 64-bit integer to FP32. -/
  | fcvtf (d a : BitVec 5)
  /-- FFMA: R310 Scalar FP32 fused multiply-add with one rounding. -/
  | ffma (d a b : BitVec 5)
  /-- LDB: R317 Load a sign-extended byte from near store. -/
  | ldb (t base : BitVec 5) (off : BitVec 12)
  /-- LDBU: R317 Load a zero-extended byte from near store. -/
  | ldbu (t base : BitVec 5) (off : BitVec 12)
  /-- LDH: R317 Load a sign-extended halfword. -/
  | ldh (t base : BitVec 5) (off : BitVec 12)
  /-- LDHU: R317 Load a zero-extended halfword. -/
  | ldhu (t base : BitVec 5) (off : BitVec 12)
  /-- LDW: R317 Load a sign-extended word. -/
  | ldw (t base : BitVec 5) (off : BitVec 12)
  /-- LDWU: R317 Load a zero-extended word. -/
  | ldwu (t base : BitVec 5) (off : BitVec 12)
  /-- LDD: R317 Load a doubleword. -/
  | ldd (t base : BitVec 5) (off : BitVec 12)
  /-- STB: R317 Gated store of a byte. -/
  | stb (t base : BitVec 5) (off : BitVec 12)
  /-- STH: R317 Gated store of a halfword. -/
  | sth (t base : BitVec 5) (off : BitVec 12)
  /-- STW: R317 Gated store of a word. -/
  | stw (t base : BitVec 5) (off : BitVec 12)
  /-- STD: R317 Gated store of a doubleword. -/
  | std (t base : BitVec 5) (off : BitVec 12)
  /-- VLD: R364 Load 256 contiguous bytes, byte lanes governed by the predicate. -/
  | vld (t base : BitVec 5) (pg : BitVec 3) (off : BitVec 12)
  /-- VST: R364 Gated store of the active byte lanes of 256 bytes. -/
  | vst (t base : BitVec 5) (pg : BitVec 3) (off : BitVec 12)
  /-- VLDS: R365 Strided vector load. -/
  | vlds (d a b : BitVec 5) (w : EW)
  /-- VSTS: R365 Strided vector store, highest element wins. -/
  | vsts (d a b : BitVec 5) (w : EW)
  /-- VGATH: R358 Indexed gather from near store. -/
  | vgath (d a b : BitVec 5) (w : EW)
  /-- VSCAT: R358 Indexed scatter to near store, highest element wins on collisions. -/
  | vscat (d a b : BitVec 5) (w : EW)
  /-- NAADD: R327 Proof-bracketed near-store atomic add returning the old value. -/
  | naadd (d a b : BitVec 5) (z : Bool)
  /-- NACAS: R327 Proof-bracketed near-store compare-and-swap. -/
  | nacas (d a b : BitVec 5) (z : Bool)
  /-- NAXCH: R327 Proof-bracketed near-store exchange. -/
  | naxch (d a b : BitVec 5) (z : Bool)
  /-- SPILL: R311 Push a scalar on the stack and advance STKTOP. -/
  | spill (d : BitVec 5)
  /-- FILL: R311 Pop a scalar from the stack. -/
  | fill (d : BitVec 5)
  /-- VSPILL: R311 Push a vector on the stack. -/
  | vspill (d : BitVec 5)
  /-- VFILL: R311 Pop a vector from the stack. -/
  | vfill (d : BitVec 5)
  /-- STACK_SLIDE: R141 On SPILL overflow, after sealing, the oldest 4 KiB moves to the overflow area and the stack slides down. -/
  | stackSlide (g : Nat)
  /-- INVERSE_SLIDE: R142 On FILL underflow with depth above 0, after sealing, 4 KiB is reloaded from the overflow area. -/
  | inverseSlide (g : Nat)
  /-- VADD: R341 Vector integer add, wrapping. -/
  | vadd (vd va vb : BitVec 5) (pg : BitVec 3) (w : EW)
  /-- VSUB: R341 Vector integer subtract, wrapping. -/
  | vsub (vd va vb : BitVec 5) (pg : BitVec 3) (w : EW)
  /-- VMUL: R341 Vector integer multiply, low half. -/
  | vmul (vd va vb : BitVec 5) (pg : BitVec 3) (w : EW)
  /-- VMULH: R341 Vector signed multiply, high half. -/
  | vmulh (vd va vb : BitVec 5) (pg : BitVec 3) (w : EW)
  /-- VMIN: R341 Vector signed minimum. -/
  | vmin (vd va vb : BitVec 5) (pg : BitVec 3) (w : EW)
  /-- VMAX: R341 Vector signed maximum. -/
  | vmax (vd va vb : BitVec 5) (pg : BitVec 3) (w : EW)
  /-- VABS: R341 Vector integer absolute value. -/
  | vabs (vd va : BitVec 5) (pg : BitVec 3) (w : EW)
  /-- VADDS: R341 Vector signed saturating add setting SATF. -/
  | vadds (vd va vb : BitVec 5) (pg : BitVec 3) (w : EW)
  /-- VAND: R342 Vector bitwise and. -/
  | vand (vd va vb : BitVec 5) (pg : BitVec 3) (w : EW)
  /-- VOR: R342 Vector bitwise or. -/
  | vor (vd va vb : BitVec 5) (pg : BitVec 3) (w : EW)
  /-- VXOR: R342 Vector bitwise xor. -/
  | vxor (vd va vb : BitVec 5) (pg : BitVec 3) (w : EW)
  /-- VANDN: R342 Vector and-not. -/
  | vandn (vd va vb : BitVec 5) (pg : BitVec 3) (w : EW)
  /-- VSHL: R370 Vector shift left by per-element amount. -/
  | vshl (vd va vb : BitVec 5) (pg : BitVec 3) (w : EW)
  /-- VSHR: R370 Vector logical shift right. -/
  | vshr (vd va vb : BitVec 5) (pg : BitVec 3) (w : EW)
  /-- VSRA: R370 Vector arithmetic shift right. -/
  | vsra (vd va vb : BitVec 5) (pg : BitVec 3) (w : EW)
  /-- VROTL: R370 Vector rotate left. -/
  | vrotl (vd va vb : BitVec 5) (pg : BitVec 3) (w : EW)
  /-- VCEQ: R346 Integer equality compare into a predicate. -/
  | vceq (pd : BitVec 3) (va vb : BitVec 5) (pg : BitVec 3) (w : EW)
  /-- VCNE: R346 Integer inequality compare into a predicate. -/
  | vcne (pd : BitVec 3) (va vb : BitVec 5) (pg : BitVec 3) (w : EW)
  /-- VCLT: R346 Signed less-than compare into a predicate. -/
  | vclt (pd : BitVec 3) (va vb : BitVec 5) (pg : BitVec 3) (w : EW)
  /-- VCLE: R346 Signed less-or-equal compare into a predicate. -/
  | vcle (pd : BitVec 3) (va vb : BitVec 5) (pg : BitVec 3) (w : EW)
  /-- VCLTU: R346 Unsigned less-than compare into a predicate. -/
  | vcltu (pd : BitVec 3) (va vb : BitVec 5) (pg : BitVec 3) (w : EW)
  /-- VCLEU: R346 Unsigned less-or-equal compare into a predicate. -/
  | vcleu (pd : BitVec 3) (va vb : BitVec 5) (pg : BitVec 3) (w : EW)
  /-- VADDX: R366 Add a broadcast scalar to each element. -/
  | vaddx (vd va vb : BitVec 5) (pg : BitVec 3) (w : EW)
  /-- VSUBX: R366 Subtract a broadcast scalar. -/
  | vsubx (vd va vb : BitVec 5) (pg : BitVec 3) (w : EW)
  /-- VMULX: R366 Multiply by a broadcast scalar. -/
  | vmulx (vd va vb : BitVec 5) (pg : BitVec 3) (w : EW)
  /-- VSHLX: R366 Shift left by a scalar amount. -/
  | vshlx (vd va vb : BitVec 5) (pg : BitVec 3) (w : EW)
  /-- VSHRX: R366 Logical shift right by a scalar amount. -/
  | vshrx (vd va vb : BitVec 5) (pg : BitVec 3) (w : EW)
  /-- VSRAX: R366 Arithmetic shift right by a scalar amount. -/
  | vsrax (vd va vb : BitVec 5) (pg : BitVec 3) (w : EW)
  /-- VMINX: R366 Signed minimum with a broadcast scalar. -/
  | vminx (vd va vb : BitVec 5) (pg : BitVec 3) (w : EW)
  /-- VMAXX: R366 Signed maximum with a broadcast scalar. -/
  | vmaxx (vd va vb : BitVec 5) (pg : BitVec 3) (w : EW)
  /-- VMOV: R367 Copy active elements. -/
  | vmov (vd va : BitVec 5) (pg : BitVec 3) (w : EW)
  /-- VBCAST: R343 Broadcast the low bits of a scalar to active elements. -/
  | vbcast (vd va : BitVec 5) (pg : BitVec 3) (w : EW)
  /-- VSEL: R371 Select va where active and vb elsewhere, writing all bits. -/
  | vsel (vd va vb : BitVec 5) (pg : BitVec 3) (w : EW)
  /-- VEXTR: R352 Extract one element into a scalar. -/
  | vextr (vd va vb : BitVec 5) (w : EW)
  /-- VINS: R362 Insert a scalar into one element. -/
  | vins (vd va vb : BitVec 5) (w : EW)
  /-- VIOTA: R363 Write each element's index. -/
  | viota (vd : BitVec 5) (pg : BitVec 3) (w : EW)
  /-- VPOPC: R363 Population count per element. -/
  | vpopc (vd va : BitVec 5) (pg : BitVec 3) (w : EW)
  /-- VCLZ: R347 Leading zero count per element. -/
  | vclz (vd va : BitVec 5) (pg : BitVec 3) (w : EW)
  /-- VPERM: R368 Permute elements by a vector of indices. -/
  | vperm (vd va vb : BitVec 5) (pg : BitVec 3) (w : EW)
  /-- VROT: R368 Rotate elements by a scalar amount. -/
  | vrot (vd va vb : BitVec 5) (pg : BitVec 3) (w : EW)
  /-- VREV: R368 Reverse element order. -/
  | vrev (vd va : BitVec 5) (pg : BitVec 3) (w : EW)
  /-- VFADD: R353 Vector float add, drawing under SR. -/
  | vfadd (vd va vb : BitVec 5) (pg : BitVec 3) (w : EW) (zi zo : Bool)
  /-- VFSUB: R353 Vector float subtract. -/
  | vfsub (vd va vb : BitVec 5) (pg : BitVec 3) (w : EW) (zi zo : Bool)
  /-- VFMUL: R353 Vector float multiply. -/
  | vfmul (vd va vb : BitVec 5) (pg : BitVec 3) (w : EW) (zi zo : Bool)
  /-- VFMIN: R353 Vector float minimum. -/
  | vfmin (vd va vb : BitVec 5) (pg : BitVec 3) (w : EW) (zi zo : Bool)
  /-- VFMAX: R353 Vector float maximum. -/
  | vfmax (vd va vb : BitVec 5) (pg : BitVec 3) (w : EW) (zi zo : Bool)
  /-- VFABS: R353 Clear the sign bit. -/
  | vfabs (vd va : BitVec 5) (pg : BitVec 3) (w : EW) (zi zo : Bool)
  /-- VFNEG: R353 Invert the sign bit. -/
  | vfneg (vd va : BitVec 5) (pg : BitVec 3) (w : EW) (zi zo : Bool)
  /-- VFCPS: R353 Magnitude of va with the sign of vb. -/
  | vfcps (vd va vb : BitVec 5) (pg : BitVec 3) (w : EW) (zi zo : Bool)
  /-- VFMA: R355 Vector fused multiply-add. -/
  | vfma (vd va vb : BitVec 5) (pg : BitVec 3) (w : EW) (zi zo : Bool)
  /-- VFMS: R355 Vector fused multiply-subtract. -/
  | vfms (vd va vb : BitVec 5) (pg : BitVec 3) (w : EW) (zi zo : Bool)
  /-- VFEQ: R354 Float equality compare into a predicate. -/
  | vfeq (pd : BitVec 3) (va vb : BitVec 5) (pg : BitVec 3) (w : EW) (zi : Bool)
  /-- VFNE: R354 Float inequality compare, true on NaN. -/
  | vfne (pd : BitVec 3) (va vb : BitVec 5) (pg : BitVec 3) (w : EW) (zi : Bool)
  /-- VFLT: R354 Float less-than compare. -/
  | vflt (pd : BitVec 3) (va vb : BitVec 5) (pg : BitVec 3) (w : EW) (zi : Bool)
  /-- VFLE: R354 Float less-or-equal compare. -/
  | vfle (pd : BitVec 3) (va vb : BitVec 5) (pg : BitVec 3) (w : EW) (zi : Bool)
  /-- VFUN: R354 Unordered compare, true when either operand is NaN. -/
  | vfun (pd : BitVec 3) (va vb : BitVec 5) (pg : BitVec 3) (w : EW) (zi : Bool)
  /-- VRSUM: R369 Integer sum reduction into element 0. -/
  | vrsum (vd va : BitVec 5) (pg : BitVec 3) (w : EW)
  /-- VRMAX: R369 Signed maximum reduction. -/
  | vrmax (vd va : BitVec 5) (pg : BitVec 3) (w : EW)
  /-- VRMIN: R369 Signed minimum reduction. -/
  | vrmin (vd va : BitVec 5) (pg : BitVec 3) (w : EW)
  /-- VFRSUM: R356 Windowed-sum reduction of active float elements. -/
  | vfrsum (vd va : BitVec 5) (pg : BitVec 3) (w : EW) (zi zo : Bool)
  /-- VFRMAX: R356 Float maximum reduction. -/
  | vfrmax (vd va : BitVec 5) (pg : BitVec 3) (w : EW) (zi zo : Bool)
  /-- VFRMIN: R356 Float minimum reduction. -/
  | vfrmin (vd va : BitVec 5) (pg : BitVec 3) (w : EW) (zi zo : Bool)
  /-- VDOT: R348 Segmented windowed-sum dot products with LSF flags. -/
  | vdot (vd va vb : BitVec 5) (pg : BitVec 3) (w : EW) (zi zo : Bool)
  /-- VDOTA: R348 Segmented dot products accumulated onto vd. -/
  | vdota (vd va vb : BitVec 5) (pg : BitVec 3) (w : EW) (zi zo : Bool)
  /-- VRCP: R350 Correctly rounded reciprocal. -/
  | vrcp (vd va : BitVec 5) (pg : BitVec 3) (w : EW) (zi zo : Bool)
  /-- VRSQ: R350 Correctly rounded reciprocal square root. -/
  | vrsq (vd va : BitVec 5) (pg : BitVec 3) (w : EW) (zi zo : Bool)
  /-- VSQRT: R350 Correctly rounded square root. -/
  | vsqrt (vd va : BitVec 5) (pg : BitVec 3) (w : EW) (zi zo : Bool)
  /-- VEXP2: R350 Correctly rounded 2^x. -/
  | vexp2 (vd va : BitVec 5) (pg : BitVec 3) (w : EW) (zi zo : Bool)
  /-- VLOG2: R350 Correctly rounded log2. -/
  | vlog2 (vd va : BitVec 5) (pg : BitVec 3) (w : EW) (zi zo : Bool)
  /-- VTANH: R350 Correctly rounded tanh. -/
  | vtanh (vd va : BitVec 5) (pg : BitVec 3) (w : EW) (zi zo : Bool)
  /-- VSINPI: R350 Correctly rounded sin(pi x). -/
  | vsinpi (vd va : BitVec 5) (pg : BitVec 3) (w : EW) (zi zo : Bool)
  /-- VERF: R350 Correctly rounded erf. -/
  | verf (vd va : BitVec 5) (pg : BitVec 3) (w : EW) (zi zo : Bool)
  /-- VBNET: R345 Route the 4,096 bits of va:vb through a stencil. -/
  | vbnet (vd va vb : BitVec 5) (k : BitVec 3)
  /-- PAND: R329 Predicate and. -/
  | pand (pd pa pb : BitVec 3)
  /-- POR: R329 Predicate or. -/
  | por (pd pa pb : BitVec 3)
  /-- PXOR: R329 Predicate xor. -/
  | pxor (pd pa pb : BitVec 3)
  /-- PANDN: R329 Predicate and-not. -/
  | pandn (pd pa pb : BitVec 3)
  /-- PNOT: R329 Predicate not. -/
  | pnot (pd pa : BitVec 3)
  /-- PCNT: R329 Count active elements of a predicate into a scalar. -/
  | pcnt (d : BitVec 5) (pa : BitVec 3) (w : EW)
  /-- PFIRST: R329 Index of the first active element, or n. -/
  | pfirst (d : BitVec 5) (pa : BitVec 3) (w : EW)
  /-- PLANES: R329 Make the first min(sb, n) elements active. -/
  | planes (pd : BitVec 3) (b : BitVec 5) (w : EW)
  /-- XCVT: R375 Convert elements between formats with widening or narrowing. -/
  | xcvt (vd va : BitVec 5) (dfmt sfmt : XFmt) (rm : XRm) (sat : Bool) (part : BitVec 3)
  /-- XEXP: R376 Expand a sub-byte kind to E4M3 exactly. -/
  | xexp (vd va : BitVec 5) (kind : XKind) (part : BitVec 3)
  /-- XPACK: R377 Pack FP8 values into a sub-byte kind. -/
  | xpack (vd va : BitVec 5) (kind : XKind) (part : BitVec 3)
  /-- XTRN: R379 Transpose within one register. -/
  | xtrn (vd va : BitVec 5) (shape : XShape)
  /-- XSCL: R378 Scale 64 FP8 values by two E8M0 scales to FP32. -/
  | xscl (vd va b : BitVec 5)
  /-- XQNT: R378 Quantise 64 FP32 values to FP8 with two chosen scales. -/
  | xqnt (vd va b : BitVec 5)
  /-- BEQ: R291 Branch if equal. -/
  | beq (a b : BitVec 5) (off : BitVec 15)
  /-- BNE: R291 Branch if not equal. -/
  | bne (a b : BitVec 5) (off : BitVec 15)
  /-- BLT: R291 Branch if signed less. -/
  | blt (a b : BitVec 5) (off : BitVec 15)
  /-- BGE: R291 Branch if signed greater or equal. -/
  | bge (a b : BitVec 5) (off : BitVec 15)
  /-- BLTU: R291 Branch if unsigned less. -/
  | bltu (a b : BitVec 5) (off : BitVec 15)
  /-- BGEU: R291 Branch if unsigned greater or equal. -/
  | bgeu (a b : BitVec 5) (off : BitVec 15)
  /-- JMP: R316 Relative jump writing a link. -/
  | jmp (d : BitVec 5) (imm : BitVec 20)
  /-- JMPR: R316 Register-indirect jump writing a link. -/
  | jmpr (d a : BitVec 5)
  /-- LOOP: R46 Open a zero-overhead loop over the next b parcels. -/
  | loop (x : BitVec 5) (b : BitVec 15)
  /-- SETFMT: R333 Write FMT, effective four ticks later. -/
  | setfmt (x : BitVec 5)
  /-- PROOF: R238 Capture a checkpoint that seals D cycles later. -/
  | proof (code : BitVec 15)
  /-- VIGIL: R359 Register an arrival at a rendezvous of cluster contexts. -/
  | vigil (x : BitVec 5) (vid : BitVec 10)
  /-- WAITA: R203 Stall until a near-store word compares true, then acquire. -/
  | waita (x y : BitVec 5) (scope : Scope) (wide : Bool) (cond : WaitCond)
  /-- FENCE: R200 Order accesses between path sets at a scope. -/
  | fence (after before : BitVec 5) (scope : Scope) (order : FenceOrder)
  /-- SPAWN: R23 Claim a sibling context atomically and start it at an entry address. -/
  | spawn (x y : BitVec 5) (n : BitVec 4) (k : BitVec 3)
  /-- SUSP: R20 End the segment and post a continuation record. -/
  | susp (x y : BitVec 5) (aff : Affinity)
  /-- DONE: R304 End the task's segment and its work for the phase. -/
  | done
  /-- TRIG: R340 Mark the task as triggered for early launch at its seal. -/
  | trig
  /-- TRAP: R339 Raise SWTRAP after the bundle. -/
  | trap (code : BitVec 15)
  /-- ERET: R250 Leave the handler and resume at TRAPPC. -/
  | eret
  /-- CRD: R301 Read a control register into a scalar. -/
  | crd (x : BitVec 5) (r : BitVec 12)
  /-- CWR: R302 Write a control register with per-register effects. -/
  | cwr (x : BitVec 5) (r : BitVec 12)
  /-- BKPT: R294 Raise BKPT after the bundle, or freeze for a debugger. -/
  | bkpt (code : BitVec 15)
  /-- ENGRAVE: R35 Copy plates from near store into the plate store. -/
  | engrave (x y : BitVec 5) (c : BitVec 9)
  /-- BNSET: R295 Load a stencil from 3,584 bytes of near store. -/
  | bnset (x : BitVec 5) (k : BitVec 3)
  /-- EWR: R305 Write an engine configuration register at issue. -/
  | ewr (r : BitVec 10) (a : BitVec 5)
  /-- EWR_ERHT_TAIL: R103 Gated command setting a ring's TAIL at release. -/
  | ewrErhtTail (i : BitVec 3) (a : BitVec 5)
  /-- ERD: R305 Read an engine register into a scalar. -/
  | erd (a : BitVec 5) (r : BitVec 10)
  /-- MMA: R323 Issue a matrix product chain of k-steps into a bank. -/
  | mma (ar br : BitVec 3) (bank clr : Bool) (a : BitVec 5)
  /-- MZERO: R326 Zero a bank and its LSF map and close its chain. -/
  | mzero (bank : Bool)
  /-- MRET: R110 Close a chain and drain the bank to scratch with a completion word. -/
  | mret (bank lsf : Bool) (layout : MLayout) (a b : BitVec 5)
  /-- MGANG: R114 Issue one product across up to four cores of a cluster. -/
  | mgang (mask : BitVec 4) (bank clr : Bool) (a b : BitVec 5)
  /-- FLU: R123 LU factorisation of an FP32 tile in the bank. -/
  | flu (variant : Bool) (a b : BitVec 5)
  /-- FCHOL: R126 Cholesky factorisation of an FP32 tile. -/
  | fchol (variant : Bool) (a b : BitVec 5)
  /-- FQR: R127 Householder QR factorisation of an FP32 tile. -/
  | fqr (a b : BitVec 5)
  /-- FTRSM: R128 Triangular solve against the FRHS tile. -/
  | ftrsm (right upper tr unit : Bool) (a b : BitVec 5)
  /-- CPY: R300 Execute a copy packet on the core's copy unit. -/
  | cpy (a b : BitVec 5)
  /-- COLL: R264 Run a collective across ranks on several devices. -/
  | coll (a : BitVec 5)
  /-- GLD: R314 D-path global load into the descriptor. -/
  | gld (order : DOrder) (scope : Scope) (z : Bool) (a b : BitVec 5)
  /-- GST: R314 D-path global store. -/
  | gst (order : DOrder) (scope : Scope) (z : Bool) (a b : BitVec 5)
  /-- GAADD: R314 Global atomic add returning the old value. -/
  | gaadd (order : DOrder) (scope : Scope) (z : Bool) (a b : BitVec 5)
  /-- GACAS: R314 Global atomic compare-and-swap. -/
  | gacas (order : DOrder) (scope : Scope) (z : Bool) (a b : BitVec 5)
  /-- GAXCH: R314 Global atomic exchange. -/
  | gaxch (order : DOrder) (scope : Scope) (z : Bool) (a b : BitVec 5)
  /-- GAMAX: R314 Global atomic signed maximum. -/
  | gamax (order : DOrder) (scope : Scope) (z : Bool) (a b : BitVec 5)
  /-- GAMIN: R314 Global atomic signed minimum. -/
  | gamin (order : DOrder) (scope : Scope) (z : Bool) (a b : BitVec 5)
  /-- WSTRM: R373 Hand a weight-stream packet to the cluster's weight streamer. -/
  | wstrm (a : BitVec 5)
  /-- STRB: R143 Bind a stream register to a binding descriptor. -/
  | strb (dir : Bool) (q : BitVec 3) (a : BitVec 5)
  /-- STRU: R143 Unbind a stream register. -/
  | stru (q : BitVec 3)
  /-- LREF: R160 Rewrite LTS row groups to reset their ages. -/
  | lref (a b : BitVec 5)
  /-- LQRY: R161 Write the state of one LTS row group to near store. -/
  | lqry (a b : BitVec 5)
  /-- PHINT: R184 Pass a placement hint to system software. -/
  | phint (access : HintAccess) (tier : HintTier) (a b : BitVec 5)
  /-- PMIG: R185 Supervisor page migration per a packet. -/
  | pmig (a b : BitVec 5)
  /-- LAUNCH: R219 Queue command that checks a kernel descriptor, loads images and creates phase-0 records. -/
  | launch (q : Nat)
  /-- SEMSIG: R221 Queue command performing an 8-byte atomic add as a SYS release. -/
  | semsig (q : Nat)
  /-- SEMWAIT: R221 Queue command that waits until an 8-byte word compares true. -/
  | semwait (q : Nat)
  /-- SEMWAIT_CONDITION_MET: R221 The awaited word compares true and the SEMWAIT completes by a SYS acquire. -/
  | semwaitConditionMet (q : Nat)
  /-- SEMTMO: R221 A SEMWAIT timeout expires and the command ends faulted. -/
  | semtmo (q : Nat)
  /-- QBARRIER: R221 Queue command completing when every earlier command has completed. -/
  | qbarrier (q : Nat)
  /-- TIMESTAMP: R221 Queue command writing the device time as a SYS release. -/
  | timestamp (q : Nat)
  /-- JMARK: R221 Queue command writing a journal entry with a tag. -/
  | jmark (q : Nat)
  /-- MIGRATE: R221 Privileged queue command migrating pages per a PMIG packet. -/
  | migrate (q : Nat)
  /-- PARTCFG: R221 Privileged queue command setting up, changing or dissolving a partition. -/
  | partcfg (q : Nat)
  /-- RECORD_PICKUP: R17 An IDLE context is offered a qualifying record and takes it, resetting its visible state. -/
  | recordPickup (g : Nat)
  /-- SPAWNED_CONTEXT_START: R23 A claimed spawn target issues its first bundle after 24 cycles and the spawner's seal. -/
  | spawnedContextStart (g : Nat)
  /-- PROOF_SEAL: R240 A proof seals D cycles after issue, releasing its segment's gated stores and commands. -/
  | proofSeal (g : Nat)
  /-- STRIKE_REPORT: R242 A strike reported for a core discards unsealed proofs and rewinds its contexts. -/
  | strikeReport (core : Nat)
  /-- TRAP_ENTRY: R248 A cause is taken at a bundle boundary and the context enters its handler. -/
  | trapEntry (g : Nat)
  /-- PREEMPT_FREEZE: R252 With PREQ set and no chain open, the context stops issuing and captures a proof. -/
  | preemptFreeze (g : Nat)
  /-- PREEMPT_SAVE: R252 After its proofs seal, the frozen context writes its save slot and becomes IDLE. -/
  | preemptSave (g : Nat)
  /-- CONTEXT_RESUME: R252 A saved context restores its slot on its own context and continues. -/
  | contextResume (g : Nat)
  /-- CALENDS: R224 Phase commit: merge of write logs, snapshot, and creation of next-phase records. -/
  | calends (k : Nat)
  /-- KERNEL_COMPLETION: R225 A kernel completes as a SYS release and frees its code region and plate residence. -/
  | kernelCompletion (k : Nat)
  /-- WATCHDOG_CHECK: R229 Every 65,536 cycles the watchdog compares each queue timer with WDT. -/
  | watchdogCheck
  /-- WATCHDOG_DRAIN: R230 An expired queue timer drains its whole partition. -/
  | watchdogDrain (p : Nat)
  /-- AGE_TICK: R156 Each 128 ns the cluster evaluates valid row groups for refresh requests and limits. -/
  | ageTick (c : Nat)
  /-- LTS_EXPIRY: R157 A row group reaching its limit is invalidated and may notify its owner. -/
  | ltsExpiry (c : Nat)
  /-- REFRESH_SERVICE_SLOT: R156 Every 64 reference cycles the refresh engine serves the FIFO head or LREF work. -/
  | refreshServiceSlot (c : Nat)
  /-- MATRIX_KSTEP: R102 Once ring slots are claimable, the array runs one k-step's beats and pops both slots. -/
  | matrixKstep (core bank : Nat)
  /-- MRET_DRAIN: R110 After earlier bank work, the bank is written out and the completion word written. -/
  | mretDrain (core bank : Nat)
  /-- GANG_COMPLETION: R115 When every member part ends, deferred pops apply and the completion is written in every member. -/
  | gangCompletion (n : Nat)
  /-- FACTOR_STOP: R129 A factor command stops, writing back and setting FPROG, FPERM, FGROW, FSTAT and its completion word. -/
  | factorStop (n : Nat)
  /-- COPY_COMPLETION: R166 A copy finishes, appends its ring slot if enabled and writes its completion word. -/
  | copyCompletion (n : Nat)
  /-- GLOBAL_ACCESS_COMPLETION: R314 A D-path access performs at its home and writes the returned value and completion word. -/
  | globalAccessCompletion (n : Nat)
  /-- COLL_COMPLETION: R264 A collective finishes and writes its DOM-scope completion word. -/
  | collCompletion (n : Nat) (parts : List CollPart)
  /-- WEIGHT_STREAM_TILE: R374 When every named buffer has room, the streamer writes one tile and appends it. -/
  | weightStreamTile (c : Nat)
  /-- STREAM_PREFETCH: R146 A released read stream fetches 256-byte units into its buffer while room remains. -/
  | streamPrefetch (g q : Nat)
  /-- VIGIL_COMPLETION: R359 All named contexts have arrived and the vigil completes for all at once. -/
  | vigilCompletion (g : Nat)
  /-- VIGILTO: R361 The vigil timeout expires, withdrawing the arrival and rewinding the context. -/
  | vigilto (g : Nat)
  /-- REPLAYDIV: R234 The replay timeout expires before the logged agent arrives. -/
  | replaydiv (k : Nat)
  /-- PMIG_PAGE_MIGRATION: R186 One page is opened, copied, committed and retired, with the completion after the last. -/
  | pmigPageMigration (n : Nat)
  /-- NOLEVE_REMOTE_ACCESS: R262 A remote access arrives over Noleve Link and is served at its home. -/
  | noleveRemoteAccess (src pa : Nat) (op : RemoteOp)
  /-- TLB_SHOOTDOWN: R178 Copy units drop matching TLB entries and finish or restart their accesses. -/
  | tlbShootdown (p : Nat) (range : Option (Nat × Nat))
  /-- DOORBELL: R259 A host write of a queue's new tail, with overflow stopping the queue. -/
  | doorbell (q : Nat) (tail : BitVec 32)
  /-- QUEUE_CONFIG_WRITE: R216 A write to QBASE or QCFG resets head and tail and leaves the queue STOPPED. -/
  | queueConfigWrite (q : Nat) (cfg : Bool) (val : BitVec 64) (fw : Bool)
  /-- QCTL_RESTART: R217 Writing RESTART makes a STOPPED queue RUNNING. -/
  | qctlRestart (q : Nat)
  /-- QCTL_PREEMPT: R228 Writing PREEMPT sets PREQ in every context running the queue's kernels. -/
  | qctlPreempt (q : Nat)
  /-- REPLAY_LOG_READ_POINTER: R235 Advancing the log read pointer frees space for a stalled recording. -/
  | replayLogReadPointer (q : Nat) (val : BitVec 32)
  /-- JCFG_WRITE: R231 Firmware write of the journal base and size, refused whole if invalid. -/
  | jcfgWrite (val : BitVec 64) (fw : Bool)
  /-- FQPTR_WRITE: R261 Host advances its fault-queue read index after answering a page request. -/
  | fqptrWrite (val : BitVec 64)
  /-- DBGCTL_HALT: R256 The debugger freezes a context at its next boundary. -/
  | dbgctlHalt (g : Nat)
  /-- DBGCTL_STEP: R257 A debug step issues exactly one bundle. -/
  | dbgctlStep (g : Nat)
  /-- DEBUGGER_STATE_WRITE: R256 A debugger writes a frozen context's registers or pending writes. -/
  | debuggerStateWrite (g : Nat) (target : DbgTarget)
  /-- DEBUGGER_RELEASE: R249 A debugger releases a HALTED context to IDLE without committing its task. -/
  | debuggerRelease (g : Nat)
  /-- PARCEL_BREAKPOINT: R257 A context freezes before the bundle at a breakpoint parcel address. -/
  | parcelBreakpoint (g : Nat)
  /-- MGMT_REGISTER_WRITE: R260 Write to a management register without a row of its own, with refusal checks. -/
  | mgmtRegisterWrite (off : Nat) (val : BitVec 64) (fw : Bool)
  /-- HOST_WINDOW_ACCESS: R258 A host access through the UCIe window to HBM physical addresses. -/
  | hostWindowAccess (off : Nat) (op : HostOp) (fw : Bool)
  /-- CHANNEL_RETIREMENT: R191 A failing HBM channel is retired and rebuilt from parity. -/
  | channelRetirement (ch : Nat)
  /-- CHANNEL_RETRAIN: R192 A channel retrains while reads are reconstructed and writes deferred. -/
  | channelRetrain (ch : Nat) (ev : RetrainEvent)
  /-- ROW_ACTIVATION: R190 A DRAM row activation updates the rowhammer tracker. -/
  | rowActivation (bank row : Nat)
  /-- REFRESH_WINDOW: R190 Each refresh window clears the rowhammer tracker. -/
  | refreshWindow (bank : Nat)
  /-- COLD_START: R268 Power-on sequence verifying firmware, heating, training HBM, clearing LTS and opening queues. -/
  | coldStart (checks : BootChecks)
  /-- DEVICE_RESET: R216 Device reset leaves every queue not set up and STOPPED and the journal off. -/
  | deviceReset
  /-- STANDBY_ENTRY: R270 Entering STANDBY puts HBM in self-refresh and invalidates LTS outside LC7. -/
  | standbyEntry
  /-- INTERFACE_NEGOTIATION: R267 Partners settle on a common interface major and minor version. -/
  | interfaceNegotiation (iface : Nat) (partner : List (Nat × Nat))
  /-- ATTESTATION_QUOTE: R265 The identity key signs the host nonce and last measurement. -/
  | attestationQuote (nonce : BitVec 512)
  /-- DEBUG_RESUME: R13 A context frozen by a debug halt is resumed by the debugger and returns from FROZEN to RUNNING. -/
  | debugResume (g : Nat)
  /-- LQRY_SERVED: R161 A released LQRY is served, sampling the row group's state and writing the 8-byte word into near store. -/
  | lqryServed (n : Nat)
  /-- CAPPED_STATE_CHANGE: R270 Accelerator power crosses PWRLIM and PSTATE enters or leaves CAPPED, with cycles stretched to hold the limit. -/
  | cappedStateChange (capped : Bool)
  deriving DecidableEq, Repr

end Sys2Proof
end

