-- ==== Sys2Proof/WellFormed.lean ====
section
/-!
DEFINITION. The codes of the coded fields (R60 to R71) and which instructions are well formed: the field values
that the types of Instr admit and the spec makes ILLEGAL as a word.
-/

namespace Sys2Proof

/-- R63: ty of a width. -/
def EW.code : EW → BitVec 2
  | .w32 => 0 | .w16 => 1 | .w8 => 2

/-- R63: the width of ty; 11 is ILLEGAL. -/
def EW.ofCode (c : BitVec 2) : Option EW :=
  if c = 0 then some .w32 else if c = 1 then some .w16 else if c = 2 then some .w8 else none

/-- R66: fn[1:0] of VLDS, VSTS, VGATH, VSCAT. -/
def EW.memCode : EW → BitVec 2
  | .w8 => 0 | .w16 => 1 | .w32 => 2

/-- R66: the width of fn[1:0]; 3 is ILLEGAL. -/
def EW.ofMemCode (c : BitVec 2) : Option EW :=
  if c = 0 then some .w8 else if c = 1 then some .w16 else if c = 2 then some .w32 else none

/-- R50: element width in bits. -/
def EW.bits : EW → Nat
  | .w32 => 32 | .w16 => 16 | .w8 => 8

/-- R50: element width in bytes. -/
def EW.bytes : EW → Nat
  | .w32 => 4 | .w16 => 2 | .w8 => 1

/-- R338: element count n. -/
def EW.count : EW → Nat
  | .w32 => 64 | .w16 => 128 | .w8 => 256

/-- R195: scope codes. -/
def Scope.code : Scope → BitVec 3
  | .ctx => 0 | .core => 1 | .cluster => 2 | .dev => 3 | .dom => 4 | .sys => 5

/-- R195: a scope from its code; 6 and 7 are ILLEGAL. -/
def Scope.ofCode (c : BitVec 3) : Option Scope :=
  if c = 0 then some .ctx else if c = 1 then some .core else if c = 2 then some .cluster
  else if c = 3 then some .dev else if c = 4 then some .dom else if c = 5 then some .sys else none

/-- R199: FENCE orders. -/
def FenceOrder.code : FenceOrder → BitVec 2
  | .acq => 0 | .rel => 1 | .ar => 2 | .sc => 3

/-- R199: a FENCE order from its code. -/
def FenceOrder.ofCode (c : BitVec 2) : FenceOrder :=
  if c = 0 then .acq else if c = 1 then .rel else if c = 2 then .ar else .sc

/-- R201: D-path orders. -/
def DOrder.code : DOrder → BitVec 2
  | .rlx => 0 | .acq => 1 | .rel => 2 | .sc => 3

/-- R201: a D-path order from its code. -/
def DOrder.ofCode (c : BitVec 2) : DOrder :=
  if c = 0 then .rlx else if c = 1 then .acq else if c = 2 then .rel else .sc

/-- R203: WAITA conditions. -/
def WaitCond.code : WaitCond → BitVec 3
  | .eq => 0 | .ne => 1 | .geu => 2 | .ltu => 3 | .andnz => 4

/-- R203: a WAITA condition from its code; 5 to 7 are ILLEGAL. -/
def WaitCond.ofCode (c : BitVec 3) : Option WaitCond :=
  if c = 0 then some .eq else if c = 1 then some .ne else if c = 2 then some .geu
  else if c = 3 then some .ltu else if c = 4 then some .andnz else none

/-- R19: affinity codes. -/
def Affinity.code : Affinity → BitVec 2
  | .any => 0 | .cluster => 1 | .core => 2

/-- R19: an affinity from its code; 3 is ILLEGAL. -/
def Affinity.ofCode (c : BitVec 2) : Option Affinity :=
  if c = 0 then some .any else if c = 1 then some .cluster else if c = 2 then some .core else none

/-- R68: XCVT format codes. -/
def XFmt.code : XFmt → BitVec 4
  | .f32 => 0 | .bf16 => 1 | .fp16 => 2 | .e4m3 => 3 | .e5m2 => 4 | .int8 => 5 | .int32 => 7 | .int16 => 8 | .uint8 => 9

/-- R68: an XCVT format from its code; 6 and 10 to 15 are ILLEGAL. -/
def XFmt.ofCode (c : BitVec 4) : Option XFmt :=
  if c = 0 then some .f32 else if c = 1 then some .bf16 else if c = 2 then some .fp16
  else if c = 3 then some .e4m3 else if c = 4 then some .e5m2 else if c = 5 then some .int8
  else if c = 7 then some .int32 else if c = 8 then some .int16 else if c = 9 then some .uint8 else none

/-- R375: width of an XCVT format in bits. -/
def XFmt.bits : XFmt → Nat
  | .f32 | .int32 => 32
  | .bf16 | .fp16 | .int16 => 16
  | .e4m3 | .e5m2 | .int8 | .uint8 => 8

/-- R60: codes of the rounding modes. -/
def RMode.code : RMode → BitVec 3
  | .rne => 0 | .rtz => 1 | .rdn => 2 | .rup => 3 | .rna => 4 | .sr => 5

/-- R68: rm codes of XCVT; 7 uses FMT.RM. -/
def XRm.code : XRm → BitVec 3
  | .own m => m.code
  | .useFmt => 7

/-- R68: rm of XCVT from its code; 6 is ILLEGAL. -/
def XRm.ofCode (c : BitVec 3) : Option XRm :=
  if c = 0 then some (.own .rne) else if c = 1 then some (.own .rtz) else if c = 2 then some (.own .rdn)
  else if c = 3 then some (.own .rup) else if c = 4 then some (.own .rna) else if c = 5 then some (.own .sr)
  else if c = 7 then some .useFmt else none

/-- R376: kind codes. -/
def XKind.code : XKind → BitVec 4
  | .int4 => 0 | .uint4 => 1 | .e3m2 => 2 | .e2m3 => 3 | .int2 => 4 | .e2m1 => 5

/-- R376: a kind from its code; 6 to 15 are ILLEGAL. -/
def XKind.ofCode (c : BitVec 4) : Option XKind :=
  if c = 0 then some .int4 else if c = 1 then some .uint4 else if c = 2 then some .e3m2
  else if c = 3 then some .e2m3 else if c = 4 then some .int2 else if c = 5 then some .e2m1 else none

/-- R376: number of parts of a kind. -/
def XKind.parts : XKind → Nat
  | .int4 | .uint4 | .e2m1 => 2
  | .e3m2 | .e2m3 => 1
  | .int2 => 4

/-- R376: bits per value of a kind. -/
def XKind.width : XKind → Nat
  | .int4 | .uint4 | .e2m1 => 4
  | .e3m2 | .e2m3 => 6
  | .int2 => 2

/-- R379: shape codes. -/
def XShape.code : XShape → BitVec 2
  | .s32 => 0 | .s16 => 1 | .s8 => 2

/-- R379: a shape from its code; 3 is ILLEGAL. -/
def XShape.ofCode (c : BitVec 2) : Option XShape :=
  if c = 0 then some .s32 else if c = 1 then some .s16 else if c = 2 then some .s8 else none

/-- R110: layout codes. -/
def MLayout.code : MLayout → BitVec 2
  | .f32 => 0 | .bf16 => 1 | .f32t => 2

/-- R110: a layout from its code; 3 is ILLEGAL. -/
def MLayout.ofCode (c : BitVec 2) : Option MLayout :=
  if c = 0 then some .f32 else if c = 1 then some .bf16 else if c = 2 then some .f32t else none

/-- R184: access codes. -/
def HintAccess.code : HintAccess → BitVec 4
  | .none => 0 | .read => 1 | .write => 2 | .rw => 3 | .once => 4

/-- R184: an access from its code; 5 to 15 are ILLEGAL. -/
def HintAccess.ofCode (c : BitVec 4) : Option HintAccess :=
  if c = 0 then some .none else if c = 1 then some .read else if c = 2 then some .write
  else if c = 3 then some .rw else if c = 4 then some .once else Option.none

/-- R184: tier codes. -/
def HintTier.code : HintTier → BitVec 4
  | .any => 0 | .hbm => 1 | .host => 2

/-- R184: a tier from its code; 3 to 15 are ILLEGAL. -/
def HintTier.ofCode (c : BitVec 4) : Option HintTier :=
  if c = 0 then some .any else if c = 1 then some .hbm else if c = 2 then some .host else none

/-- R53: the assigned control register numbers. -/
def controlAssigned (r : BitVec 12) : Bool :=
  r.toNat ≤ 0x008 || (0x010 ≤ r.toNat && r.toNat ≤ 0x01E) || (0x020 ≤ r.toNat && r.toNat ≤ 0x022)

/-- R57: the assigned engine register numbers. -/
def engineAssigned (r : BitVec 10) : Bool :=
  r.toNat ≤ 0x014 || (0x020 ≤ r.toNat && r.toNat ≤ 0x024) || (0x030 ≤ r.toNat && r.toNat ≤ 0x03F)
    || (0x040 ≤ r.toNat && r.toNat ≤ 0x047)

/-- R57, R103: an EWR to these numbers writes ERHT.TAIL; it is the row EWR_ERHT_TAIL. -/
def engineIsErht (r : BitVec 10) : Bool := 0x008 ≤ r.toNat && r.toNat ≤ 0x00F

/-- R375: the ratio of the wider to the narrower width of an XCVT. -/
def xcvtRatio (df sf : XFmt) : Nat := max df.bits sf.bits / min df.bits sf.bits

/-- R71: the checks on an instruction's fields that the types of Instr leave open. Slot, state and operand values
are checked where the instruction executes. -/
def Instr.wf : Instr → Bool
  | .illegalWord _ => false
  | .loop _ b => b != 0                                                        -- R46
  | .spawn _ y n _ => n.toNat ≤ 8 && (n == 0 || y.toNat + n.toNat - 1 ≤ 31)      -- R22
  | .susp _ y _ => y.toNat ≤ 26                                                 -- R19
  | .fence after before _ _ => after != 0 && before != 0                         -- R199
  | .crd _ r => controlAssigned r                                               -- R53
  | .cwr _ r => controlAssigned r
  | .ewr r _ => engineAssigned r && !engineIsErht r                              -- R57
  | .erd _ r => engineAssigned r
  | .xcvt _ _ df sf _ _ part => part.toNat < xcvtRatio df sf                     -- R91
  | .xexp _ _ kind part => part.toNat < kind.parts                              -- R376
  | .xpack _ _ kind part => part.toNat < kind.parts
  | .mma ar br _ _ _ => ar != 7 && ar != br                                      -- R105
  | .gst order _ _ _ _ => order != .acq                                         -- R201
  | .gld order _ _ _ _ => order != .rel
  | _ => true

end Sys2Proof
end

