-- ==== Sys2Proof/Decode.lean ====
section
/-!
DEFINITION. Decoding slot words and parcels (R31, R62 to R71), total on any bits, and the encoder written from the
same encoding tables.
-/

namespace Sys2Proof

/-- R6: len bits of a word from bit lo upwards. -/
def bits (w : BitVec 32) (lo len : Nat) : BitVec len := w.extractLsb' lo len

/-- R6: one bit of a word. -/
def flag (w : BitVec 32) (i : Nat) : Bool := w.getLsbD i

/-- R62: field [24:20]. -/
def fD (w : BitVec 32) : BitVec 5 := bits w 20 5
/-- R62: field [19:15]. -/
def fA (w : BitVec 32) : BitVec 5 := bits w 15 5
/-- R62: field [14:10]. -/
def fB (w : BitVec 32) : BitVec 5 := bits w 10 5
/-- R62: field [9:0]. -/
def fFn (w : BitVec 32) : BitVec 10 := bits w 0 10
/-- R62: field [14:0]. -/
def fImm15 (w : BitVec 32) : BitVec 15 := bits w 0 15
/-- R62: field [19:0]. -/
def fImm20 (w : BitVec 32) : BitVec 20 := bits w 0 20
/-- R62: field pg[9:7] of format V. -/
def fPg (w : BitVec 32) : BitVec 3 := bits w 7 3
/-- R62: field a[14:10] of format E. -/
def fEa (w : BitVec 32) : BitVec 5 := bits w 10 5
/-- R62: field b[9:5] of format E. -/
def fEb (w : BitVec 32) : BitVec 5 := bits w 5 5

/-- R71: an instruction whose fixed fields must hold. -/
def need (c : Prop) [Decidable c] (i : Instr) : Option Instr := if c then some i else none

/-- R63: an integer vector word: ty not 11, zi and zo zero. -/
def vInt (w : BitVec 32) (k : EW → Option Instr) : Option Instr :=
  if flag w 3 || flag w 4 then none else (EW.ofCode (bits w 5 2)).bind k

/-- R63: a float vector word: ty not 11. -/
def vFlt (w : BitVec 32) (k : EW → Option Instr) : Option Instr := (EW.ofCode (bits w 5 2)).bind k

/-- R62: major 0x01, by its function value. -/
def decOp01 (w : BitVec 32) : Option Instr :=
  match (fFn w).toNat with
  | 0 => some (.add (fD w) (fA w) (fB w))
  | 1 => some (.sub (fD w) (fA w) (fB w))
  | 2 => some (.and (fD w) (fA w) (fB w))
  | 3 => some (.or (fD w) (fA w) (fB w))
  | 4 => some (.xor (fD w) (fA w) (fB w))
  | 5 => some (.sll (fD w) (fA w) (fB w))
  | 6 => some (.srl (fD w) (fA w) (fB w))
  | 7 => some (.sra (fD w) (fA w) (fB w))
  | 8 => some (.slt (fD w) (fA w) (fB w))
  | 9 => some (.sltu (fD w) (fA w) (fB w))
  | 10 => some (.min (fD w) (fA w) (fB w))
  | 11 => some (.max (fD w) (fA w) (fB w))
  | 12 => some (.minu (fD w) (fA w) (fB w))
  | 13 => some (.maxu (fD w) (fA w) (fB w))
  | _ => none

/-- R62: major 0x02, ADDI. -/
def decOp02 (w : BitVec 32) : Option Instr := some (.addi (fD w) (fA w) (fImm15 w))

/-- R62: major 0x03, ANDI. -/
def decOp03 (w : BitVec 32) : Option Instr := some (.andi (fD w) (fA w) (fImm15 w))

/-- R62: major 0x04, ORI. -/
def decOp04 (w : BitVec 32) : Option Instr := some (.ori (fD w) (fA w) (fImm15 w))

/-- R62: major 0x05, XORI. -/
def decOp05 (w : BitVec 32) : Option Instr := some (.xori (fD w) (fA w) (fImm15 w))

/-- R62: major 0x06, SLTI. -/
def decOp06 (w : BitVec 32) : Option Instr := some (.slti (fD w) (fA w) (fImm15 w))

/-- R62: major 0x07, by its function value. -/
def decOp07 (w : BitVec 32) : Option Instr :=
  if bits w 8 7 ≠ (0 : BitVec 7) then none else match (bits w 6 2).toNat with
  | 0 => some (.slli (fD w) (fA w) (bits w 0 6))
  | 1 => some (.srli (fD w) (fA w) (bits w 0 6))
  | 2 => some (.srai (fD w) (fA w) (bits w 0 6))
  | _ => none

/-- R62: major 0x08, LI. -/
def decOp08 (w : BitVec 32) : Option Instr := some (.li (fD w) (fImm20 w))

/-- R62: major 0x09, LIH. -/
def decOp09 (w : BitVec 32) : Option Instr := some (.lih (fD w) (fImm20 w))

/-- R62: major 0x0A, LIX. -/
def decOp0A (w : BitVec 32) : Option Instr := some (.lix (fD w) (fImm20 w))

/-- R62: major 0x0B, by its function value. -/
def decOp0B (w : BitVec 32) : Option Instr :=
  match (fFn w).toNat with
  | 0 => some (.mul (fD w) (fA w) (fB w))
  | 1 => some (.mulh (fD w) (fA w) (fB w))
  | 2 => some (.mulhu (fD w) (fA w) (fB w))
  | 3 => some (.div (fD w) (fA w) (fB w))
  | 4 => some (.divu (fD w) (fA w) (fB w))
  | 5 => some (.rem (fD w) (fA w) (fB w))
  | 6 => some (.remu (fD w) (fA w) (fB w))
  | _ => none

/-- R62: major 0x0C, by its function value. -/
def decOp0C (w : BitVec 32) : Option Instr :=
  match (fFn w).toNat with
  | 0 => need (fB w = 0) (.clz (fD w) (fA w))
  | 1 => need (fB w = 0) (.ctz (fD w) (fA w))
  | 2 => need (fB w = 0) (.popc (fD w) (fA w))
  | 3 => need (fB w = 0) (.brev (fD w) (fA w))
  | 4 => some (.bext (fD w) (fA w) (fB w))
  | 5 => some (.bins (fD w) (fA w) (fB w))
  | _ => none

/-- R62: major 0x0D, LEA. -/
def decOp0D (w : BitVec 32) : Option Instr := need (bits w 3 7 = 0) (.lea (fD w) (fA w) (fB w) (bits w 0 3))

/-- R62: major 0x0E, CMOV. -/
def decOp0E (w : BitVec 32) : Option Instr := if fFn w = 0 then some (.cmov (fD w) (fA w) (fB w)) else none

/-- R62: major 0x0F, by its function value. -/
def decOp0F (w : BitVec 32) : Option Instr :=
  match (fFn w).toNat with
  | 0 => some (.fadd (fD w) (fA w) (fB w))
  | 1 => some (.fsub (fD w) (fA w) (fB w))
  | 2 => some (.fmul (fD w) (fA w) (fB w))
  | 3 => some (.fmin (fD w) (fA w) (fB w))
  | 4 => some (.fmax (fD w) (fA w) (fB w))
  | 5 => some (.feq (fD w) (fA w) (fB w))
  | 6 => some (.flt (fD w) (fA w) (fB w))
  | 7 => some (.fle (fD w) (fA w) (fB w))
  | 8 => need (fB w = 0) (.fcvti (fD w) (fA w))
  | 9 => need (fB w = 0) (.fcvtf (fD w) (fA w))
  | _ => none

/-- R62: major 0x10, FFMA. -/
def decOp10 (w : BitVec 32) : Option Instr := if fFn w = 0 then some (.ffma (fD w) (fA w) (fB w)) else none

/-- R62: major 0x11, LDB. -/
def decOp11 (w : BitVec 32) : Option Instr := need (bits w 12 3 = 0) (.ldb (fD w) (fA w) (bits w 0 12))

/-- R62: major 0x12, LDBU. -/
def decOp12 (w : BitVec 32) : Option Instr := need (bits w 12 3 = 0) (.ldbu (fD w) (fA w) (bits w 0 12))

/-- R62: major 0x13, LDH. -/
def decOp13 (w : BitVec 32) : Option Instr := need (bits w 12 3 = 0) (.ldh (fD w) (fA w) (bits w 0 12))

/-- R62: major 0x14, LDHU. -/
def decOp14 (w : BitVec 32) : Option Instr := need (bits w 12 3 = 0) (.ldhu (fD w) (fA w) (bits w 0 12))

/-- R62: major 0x15, LDW. -/
def decOp15 (w : BitVec 32) : Option Instr := need (bits w 12 3 = 0) (.ldw (fD w) (fA w) (bits w 0 12))

/-- R62: major 0x16, LDWU. -/
def decOp16 (w : BitVec 32) : Option Instr := need (bits w 12 3 = 0) (.ldwu (fD w) (fA w) (bits w 0 12))

/-- R62: major 0x17, LDD. -/
def decOp17 (w : BitVec 32) : Option Instr := need (bits w 12 3 = 0) (.ldd (fD w) (fA w) (bits w 0 12))

/-- R62: major 0x18, STB. -/
def decOp18 (w : BitVec 32) : Option Instr := need (bits w 12 3 = 0) (.stb (fD w) (fA w) (bits w 0 12))

/-- R62: major 0x19, STH. -/
def decOp19 (w : BitVec 32) : Option Instr := need (bits w 12 3 = 0) (.sth (fD w) (fA w) (bits w 0 12))

/-- R62: major 0x1A, STW. -/
def decOp1A (w : BitVec 32) : Option Instr := need (bits w 12 3 = 0) (.stw (fD w) (fA w) (bits w 0 12))

/-- R62: major 0x1B, STD. -/
def decOp1B (w : BitVec 32) : Option Instr := need (bits w 12 3 = 0) (.std (fD w) (fA w) (bits w 0 12))

/-- R62: major 0x1C, VLD. -/
def decOp1C (w : BitVec 32) : Option Instr := some (.vld (fD w) (fA w) (bits w 12 3) (bits w 0 12))

/-- R62: major 0x1D, VST. -/
def decOp1D (w : BitVec 32) : Option Instr := some (.vst (fD w) (fA w) (bits w 12 3) (bits w 0 12))

/-- R62, R357: major 0x1E; fn[2] chooses the access, fn[1:0] the width, fn[9:3] zero. -/
def decOp1E (w : BitVec 32) : Option Instr :=
  (EW.ofMemCode (bits w 0 2)).bind fun ew => need (bits w 3 7 = 0)
    (if flag w 2 then .vsts (fD w) (fA w) (fB w) ew else .vlds (fD w) (fA w) (fB w) ew)

/-- R62, R357: major 0x1F; fn[2] chooses the access, fn[1:0] the width, fn[9:3] zero. -/
def decOp1F (w : BitVec 32) : Option Instr :=
  (EW.ofMemCode (bits w 0 2)).bind fun ew => need (bits w 3 7 = 0)
    (if flag w 2 then .vscat (fD w) (fA w) (fB w) ew else .vgath (fD w) (fA w) (fB w) ew)

/-- R62: major 0x20, by its function value. -/
def decOp20 (w : BitVec 32) : Option Instr :=
  if bits w 3 7 ≠ (0 : BitVec 7) then none else match (bits w 0 2).toNat with
  | 0 => some (.naadd (fD w) (fA w) (fB w) (flag w 2))
  | 1 => some (.nacas (fD w) (fA w) (fB w) (flag w 2))
  | 2 => some (.naxch (fD w) (fA w) (fB w) (flag w 2))
  | _ => none

/-- R62: major 0x21, by its function value. -/
def decOp21 (w : BitVec 32) : Option Instr :=
  match (fFn w).toNat with
  | 0 => need (fA w = 0 ∧ fB w = 0) (.spill (fD w))
  | 1 => need (fA w = 0 ∧ fB w = 0) (.fill (fD w))
  | 2 => need (fA w = 0 ∧ fB w = 0) (.vspill (fD w))
  | 3 => need (fA w = 0 ∧ fB w = 0) (.vfill (fD w))
  | _ => none

/-- R62: major 0x28, by its function value. -/
def decOp28 (w : BitVec 32) : Option Instr :=
  match (bits w 0 3).toNat with
  | 0 => vInt w fun ew => some (.vadd (fD w) (fA w) (fB w) (fPg w) ew)
  | 1 => vInt w fun ew => some (.vsub (fD w) (fA w) (fB w) (fPg w) ew)
  | 2 => vInt w fun ew => some (.vmul (fD w) (fA w) (fB w) (fPg w) ew)
  | 3 => vInt w fun ew => some (.vmulh (fD w) (fA w) (fB w) (fPg w) ew)
  | 4 => vInt w fun ew => some (.vmin (fD w) (fA w) (fB w) (fPg w) ew)
  | 5 => vInt w fun ew => some (.vmax (fD w) (fA w) (fB w) (fPg w) ew)
  | 6 => vInt w fun ew => need (fB w = 0) (.vabs (fD w) (fA w) (fPg w) ew)
  | 7 => vInt w fun ew => some (.vadds (fD w) (fA w) (fB w) (fPg w) ew)
  | _ => none

/-- R62: major 0x29, by its function value. -/
def decOp29 (w : BitVec 32) : Option Instr :=
  match (bits w 0 3).toNat with
  | 0 => vInt w fun ew => some (.vand (fD w) (fA w) (fB w) (fPg w) ew)
  | 1 => vInt w fun ew => some (.vor (fD w) (fA w) (fB w) (fPg w) ew)
  | 2 => vInt w fun ew => some (.vxor (fD w) (fA w) (fB w) (fPg w) ew)
  | 3 => vInt w fun ew => some (.vandn (fD w) (fA w) (fB w) (fPg w) ew)
  | 4 => vInt w fun ew => some (.vshl (fD w) (fA w) (fB w) (fPg w) ew)
  | 5 => vInt w fun ew => some (.vshr (fD w) (fA w) (fB w) (fPg w) ew)
  | 6 => vInt w fun ew => some (.vsra (fD w) (fA w) (fB w) (fPg w) ew)
  | 7 => vInt w fun ew => some (.vrotl (fD w) (fA w) (fB w) (fPg w) ew)
  | _ => none

/-- R62: major 0x2A, by its function value. -/
def decOp2A (w : BitVec 32) : Option Instr :=
  match (bits w 0 3).toNat with
  | 0 => vInt w fun ew => need (bits w 23 2 = 0) (.vceq (bits w 20 3) (fA w) (fB w) (fPg w) ew)
  | 1 => vInt w fun ew => need (bits w 23 2 = 0) (.vcne (bits w 20 3) (fA w) (fB w) (fPg w) ew)
  | 2 => vInt w fun ew => need (bits w 23 2 = 0) (.vclt (bits w 20 3) (fA w) (fB w) (fPg w) ew)
  | 3 => vInt w fun ew => need (bits w 23 2 = 0) (.vcle (bits w 20 3) (fA w) (fB w) (fPg w) ew)
  | 4 => vInt w fun ew => need (bits w 23 2 = 0) (.vcltu (bits w 20 3) (fA w) (fB w) (fPg w) ew)
  | 5 => vInt w fun ew => need (bits w 23 2 = 0) (.vcleu (bits w 20 3) (fA w) (fB w) (fPg w) ew)
  | _ => none

/-- R62: major 0x2B, by its function value. -/
def decOp2B (w : BitVec 32) : Option Instr :=
  match (bits w 0 3).toNat with
  | 0 => vInt w fun ew => some (.vaddx (fD w) (fA w) (fB w) (fPg w) ew)
  | 1 => vInt w fun ew => some (.vsubx (fD w) (fA w) (fB w) (fPg w) ew)
  | 2 => vInt w fun ew => some (.vmulx (fD w) (fA w) (fB w) (fPg w) ew)
  | 3 => vInt w fun ew => some (.vshlx (fD w) (fA w) (fB w) (fPg w) ew)
  | 4 => vInt w fun ew => some (.vshrx (fD w) (fA w) (fB w) (fPg w) ew)
  | 5 => vInt w fun ew => some (.vsrax (fD w) (fA w) (fB w) (fPg w) ew)
  | 6 => vInt w fun ew => some (.vminx (fD w) (fA w) (fB w) (fPg w) ew)
  | 7 => vInt w fun ew => some (.vmaxx (fD w) (fA w) (fB w) (fPg w) ew)
  | _ => none

/-- R62: major 0x2C, by its function value. -/
def decOp2C (w : BitVec 32) : Option Instr :=
  match (bits w 0 3).toNat with
  | 0 => vInt w fun ew => need (fB w = 0) (.vmov (fD w) (fA w) (fPg w) ew)
  | 1 => vInt w fun ew => need (fB w = 0) (.vbcast (fD w) (fA w) (fPg w) ew)
  | 2 => vInt w fun ew => some (.vsel (fD w) (fA w) (fB w) (fPg w) ew)
  | 3 => vInt w fun ew => need (fPg w = 0) (.vextr (fD w) (fA w) (fB w) ew)
  | 4 => vInt w fun ew => need (fPg w = 0) (.vins (fD w) (fA w) (fB w) ew)
  | 5 => vInt w fun ew => need (fA w = 0 ∧ fB w = 0) (.viota (fD w) (fPg w) ew)
  | 6 => vInt w fun ew => need (fB w = 0) (.vpopc (fD w) (fA w) (fPg w) ew)
  | 7 => vInt w fun ew => need (fB w = 0) (.vclz (fD w) (fA w) (fPg w) ew)
  | _ => none

/-- R62: major 0x2D, by its function value. -/
def decOp2D (w : BitVec 32) : Option Instr :=
  match (bits w 0 3).toNat with
  | 0 => vInt w fun ew => some (.vperm (fD w) (fA w) (fB w) (fPg w) ew)
  | 1 => vInt w fun ew => some (.vrot (fD w) (fA w) (fB w) (fPg w) ew)
  | 2 => vInt w fun ew => need (fB w = 0) (.vrev (fD w) (fA w) (fPg w) ew)
  | _ => none

/-- R62: major 0x30, by its function value. -/
def decOp30 (w : BitVec 32) : Option Instr :=
  match (bits w 0 3).toNat with
  | 0 => vFlt w fun ew => some (.vfadd (fD w) (fA w) (fB w) (fPg w) ew (flag w 4) (flag w 3))
  | 1 => vFlt w fun ew => some (.vfsub (fD w) (fA w) (fB w) (fPg w) ew (flag w 4) (flag w 3))
  | 2 => vFlt w fun ew => some (.vfmul (fD w) (fA w) (fB w) (fPg w) ew (flag w 4) (flag w 3))
  | 3 => vFlt w fun ew => some (.vfmin (fD w) (fA w) (fB w) (fPg w) ew (flag w 4) (flag w 3))
  | 4 => vFlt w fun ew => some (.vfmax (fD w) (fA w) (fB w) (fPg w) ew (flag w 4) (flag w 3))
  | 5 => vFlt w fun ew => need (fB w = 0) (.vfabs (fD w) (fA w) (fPg w) ew (flag w 4) (flag w 3))
  | 6 => vFlt w fun ew => need (fB w = 0) (.vfneg (fD w) (fA w) (fPg w) ew (flag w 4) (flag w 3))
  | 7 => vFlt w fun ew => some (.vfcps (fD w) (fA w) (fB w) (fPg w) ew (flag w 4) (flag w 3))
  | _ => none

/-- R62: major 0x31, by its function value. -/
def decOp31 (w : BitVec 32) : Option Instr :=
  match (bits w 0 3).toNat with
  | 0 => vFlt w fun ew => some (.vfma (fD w) (fA w) (fB w) (fPg w) ew (flag w 4) (flag w 3))
  | 1 => vFlt w fun ew => some (.vfms (fD w) (fA w) (fB w) (fPg w) ew (flag w 4) (flag w 3))
  | _ => none

/-- R62: major 0x32, by its function value. -/
def decOp32 (w : BitVec 32) : Option Instr :=
  match (bits w 0 3).toNat with
  | 0 => vFlt w fun ew => need (bits w 23 2 = 0 ∧ flag w 3 = false) (.vfeq (bits w 20 3) (fA w) (fB w) (fPg w) ew (flag w 4))
  | 1 => vFlt w fun ew => need (bits w 23 2 = 0 ∧ flag w 3 = false) (.vfne (bits w 20 3) (fA w) (fB w) (fPg w) ew (flag w 4))
  | 2 => vFlt w fun ew => need (bits w 23 2 = 0 ∧ flag w 3 = false) (.vflt (bits w 20 3) (fA w) (fB w) (fPg w) ew (flag w 4))
  | 3 => vFlt w fun ew => need (bits w 23 2 = 0 ∧ flag w 3 = false) (.vfle (bits w 20 3) (fA w) (fB w) (fPg w) ew (flag w 4))
  | 4 => vFlt w fun ew => need (bits w 23 2 = 0 ∧ flag w 3 = false) (.vfun (bits w 20 3) (fA w) (fB w) (fPg w) ew (flag w 4))
  | _ => none

/-- R62: major 0x33, by its function value. -/
def decOp33 (w : BitVec 32) : Option Instr :=
  match (bits w 0 3).toNat with
  | 0 => vInt w fun ew => need (fB w = 0) (.vrsum (fD w) (fA w) (fPg w) ew)
  | 1 => vInt w fun ew => need (fB w = 0) (.vrmax (fD w) (fA w) (fPg w) ew)
  | 2 => vInt w fun ew => need (fB w = 0) (.vrmin (fD w) (fA w) (fPg w) ew)
  | 3 => vFlt w fun ew => need (fB w = 0) (.vfrsum (fD w) (fA w) (fPg w) ew (flag w 4) (flag w 3))
  | 4 => vFlt w fun ew => need (fB w = 0) (.vfrmax (fD w) (fA w) (fPg w) ew (flag w 4) (flag w 3))
  | 5 => vFlt w fun ew => need (fB w = 0) (.vfrmin (fD w) (fA w) (fPg w) ew (flag w 4) (flag w 3))
  | _ => none

/-- R62: major 0x34, by its function value. -/
def decOp34 (w : BitVec 32) : Option Instr :=
  match (bits w 0 3).toNat with
  | 0 => vFlt w fun ew => some (.vdot (fD w) (fA w) (fB w) (fPg w) ew (flag w 4) (flag w 3))
  | 1 => vFlt w fun ew => some (.vdota (fD w) (fA w) (fB w) (fPg w) ew (flag w 4) (flag w 3))
  | _ => none

/-- R62: major 0x35, by its function value. -/
def decOp35 (w : BitVec 32) : Option Instr :=
  match (bits w 0 3).toNat with
  | 0 => vFlt w fun ew => need (fB w = 0) (.vrcp (fD w) (fA w) (fPg w) ew (flag w 4) (flag w 3))
  | 1 => vFlt w fun ew => need (fB w = 0) (.vrsq (fD w) (fA w) (fPg w) ew (flag w 4) (flag w 3))
  | 2 => vFlt w fun ew => need (fB w = 0) (.vsqrt (fD w) (fA w) (fPg w) ew (flag w 4) (flag w 3))
  | 3 => vFlt w fun ew => need (fB w = 0) (.vexp2 (fD w) (fA w) (fPg w) ew (flag w 4) (flag w 3))
  | 4 => vFlt w fun ew => need (fB w = 0) (.vlog2 (fD w) (fA w) (fPg w) ew (flag w 4) (flag w 3))
  | 5 => vFlt w fun ew => need (fB w = 0) (.vtanh (fD w) (fA w) (fPg w) ew (flag w 4) (flag w 3))
  | 6 => vFlt w fun ew => need (fB w = 0) (.vsinpi (fD w) (fA w) (fPg w) ew (flag w 4) (flag w 3))
  | 7 => vFlt w fun ew => need (fB w = 0) (.verf (fD w) (fA w) (fPg w) ew (flag w 4) (flag w 3))
  | _ => none

/-- R62: major 0x36, VBNET. -/
def decOp36 (w : BitVec 32) : Option Instr := need (bits w 3 7 = 0) (.vbnet (fD w) (fA w) (fB w) (bits w 0 3))

/-- R62: major 0x38, by its function value. -/
def decOp38 (w : BitVec 32) : Option Instr :=
  match (bits w 0 3).toNat with
  | 0 => need (bits w 23 2 = 0 ∧ bits w 18 2 = 0 ∧ bits w 13 2 = 0 ∧ bits w 3 7 = 0) (.pand (bits w 20 3) (bits w 15 3) (bits w 10 3))
  | 1 => need (bits w 23 2 = 0 ∧ bits w 18 2 = 0 ∧ bits w 13 2 = 0 ∧ bits w 3 7 = 0) (.por (bits w 20 3) (bits w 15 3) (bits w 10 3))
  | 2 => need (bits w 23 2 = 0 ∧ bits w 18 2 = 0 ∧ bits w 13 2 = 0 ∧ bits w 3 7 = 0) (.pxor (bits w 20 3) (bits w 15 3) (bits w 10 3))
  | 3 => need (bits w 23 2 = 0 ∧ bits w 18 2 = 0 ∧ bits w 13 2 = 0 ∧ bits w 3 7 = 0) (.pandn (bits w 20 3) (bits w 15 3) (bits w 10 3))
  | 4 => need (bits w 23 2 = 0 ∧ bits w 18 2 = 0 ∧ fB w = 0 ∧ bits w 3 7 = 0) (.pnot (bits w 20 3) (bits w 15 3))
  | 5 => vInt w fun ew => need (bits w 18 2 = 0 ∧ fB w = 0 ∧ fPg w = 0) (.pcnt (fD w) (bits w 15 3) ew)
  | 6 => vInt w fun ew => need (bits w 18 2 = 0 ∧ fB w = 0 ∧ fPg w = 0) (.pfirst (fD w) (bits w 15 3) ew)
  | 7 => vInt w fun ew => need (bits w 23 2 = 0 ∧ fA w = 0 ∧ fPg w = 0) (.planes (bits w 20 3) (fB w) ew)
  | _ => none

/-- R62: major 0x40, XCVT. -/
def decOp40 (w : BitVec 32) : Option Instr := (XFmt.ofCode (bits w 11 4)).bind fun df => (XFmt.ofCode (bits w 7 4)).bind fun sf => (XRm.ofCode (bits w 4 3)).bind fun rm => some (.xcvt (fD w) (fA w) df sf rm (flag w 3) (bits w 0 3))

/-- R62: major 0x41, XEXP. -/
def decOp41 (w : BitVec 32) : Option Instr := (XKind.ofCode (bits w 11 4)).bind fun kd => need (bits w 0 8 = 0) (.xexp (fD w) (fA w) kd (bits w 8 3))

/-- R62: major 0x42, XPACK. -/
def decOp42 (w : BitVec 32) : Option Instr := (XKind.ofCode (bits w 11 4)).bind fun kd => need (bits w 0 8 = 0) (.xpack (fD w) (fA w) kd (bits w 8 3))

/-- R62: major 0x43, XTRN. -/
def decOp43 (w : BitVec 32) : Option Instr := (XShape.ofCode (bits w 13 2)).bind fun sh => need (bits w 0 13 = 0) (.xtrn (fD w) (fA w) sh)

/-- R62: major 0x44, by its function value. -/
def decOp44 (w : BitVec 32) : Option Instr :=
  match (bits w 0 3).toNat with
  | 0 => need (bits w 3 7 = 0) (.xscl (fD w) (fA w) (fB w))
  | 1 => need (bits w 3 7 = 0) (.xqnt (fD w) (fA w) (fB w))
  | _ => none

/-- R62: major 0x50, BEQ. -/
def decOp50 (w : BitVec 32) : Option Instr := some (.beq (fD w) (fA w) (fImm15 w))

/-- R62: major 0x51, BNE. -/
def decOp51 (w : BitVec 32) : Option Instr := some (.bne (fD w) (fA w) (fImm15 w))

/-- R62: major 0x52, BLT. -/
def decOp52 (w : BitVec 32) : Option Instr := some (.blt (fD w) (fA w) (fImm15 w))

/-- R62: major 0x53, BGE. -/
def decOp53 (w : BitVec 32) : Option Instr := some (.bge (fD w) (fA w) (fImm15 w))

/-- R62: major 0x54, BLTU. -/
def decOp54 (w : BitVec 32) : Option Instr := some (.bltu (fD w) (fA w) (fImm15 w))

/-- R62: major 0x55, BGEU. -/
def decOp55 (w : BitVec 32) : Option Instr := some (.bgeu (fD w) (fA w) (fImm15 w))

/-- R62: major 0x56, JMP. -/
def decOp56 (w : BitVec 32) : Option Instr := some (.jmp (fD w) (fImm20 w))

/-- R62: major 0x57, JMPR. -/
def decOp57 (w : BitVec 32) : Option Instr := if fFn w = 0 then need (fB w = 0) (.jmpr (fD w) (fA w)) else none

/-- R62: major 0x58, LOOP. -/
def decOp58 (w : BitVec 32) : Option Instr := need (fA w = 0) (.loop (fD w) (fImm15 w))

/-- R62: major 0x59, SETFMT. -/
def decOp59 (w : BitVec 32) : Option Instr := need (fA w = 0 ∧ fImm15 w = 0) (.setfmt (fD w))

/-- R62: major 0x5A, PROOF. -/
def decOp5A (w : BitVec 32) : Option Instr := need (fD w = 0 ∧ fA w = 0) (.proof (fImm15 w))

/-- R62: major 0x5B, VIGIL. -/
def decOp5B (w : BitVec 32) : Option Instr := need (fA w = 0 ∧ bits w 10 5 = 0) (.vigil (fD w) (bits w 0 10))

/-- R62: major 0x5C, WAITA. -/
def decOp5C (w : BitVec 32) : Option Instr := (Scope.ofCode (bits w 4 3)).bind fun sc => (WaitCond.ofCode (bits w 0 3)).bind fun cd => need (bits w 7 8 = 0) (.waita (fD w) (fA w) sc (flag w 3) cd)

/-- R62: major 0x5D, FENCE. -/
def decOp5D (w : BitVec 32) : Option Instr := (Scope.ofCode (bits w 2 3)).bind fun sc => need (fD w = 0 ∧ fA w = 0) (.fence (bits w 10 5) (bits w 5 5) sc (FenceOrder.ofCode (bits w 0 2)))

/-- R62: major 0x5E, SPAWN. -/
def decOp5E (w : BitVec 32) : Option Instr := need (bits w 7 8 = 0) (.spawn (fD w) (fA w) (bits w 3 4) (bits w 0 3))

/-- R62: major 0x5F, SUSP. -/
def decOp5F (w : BitVec 32) : Option Instr := (Affinity.ofCode (bits w 0 2)).bind fun af => need (bits w 2 13 = 0) (.susp (fD w) (fA w) af)

/-- R62: major 0x60, DONE. -/
def decOp60 (w : BitVec 32) : Option Instr := need (bits w 0 25 = 0) .done

/-- R62: major 0x61, TRIG. -/
def decOp61 (w : BitVec 32) : Option Instr := need (bits w 0 25 = 0) .trig

/-- R62: major 0x62, TRAP. -/
def decOp62 (w : BitVec 32) : Option Instr := need (fD w = 0 ∧ fA w = 0) (.trap (fImm15 w))

/-- R62: major 0x63, ERET. -/
def decOp63 (w : BitVec 32) : Option Instr := need (bits w 0 25 = 0) .eret

/-- R62: major 0x64, CRD. -/
def decOp64 (w : BitVec 32) : Option Instr := need (fA w = 0 ∧ bits w 12 3 = 0) (.crd (fD w) (bits w 0 12))

/-- R62: major 0x65, CWR. -/
def decOp65 (w : BitVec 32) : Option Instr := need (fA w = 0 ∧ bits w 12 3 = 0) (.cwr (fD w) (bits w 0 12))

/-- R62: major 0x66, BKPT. -/
def decOp66 (w : BitVec 32) : Option Instr := need (fD w = 0 ∧ fA w = 0) (.bkpt (fImm15 w))

/-- R62: major 0x67, ENGRAVE. -/
def decOp67 (w : BitVec 32) : Option Instr := need (bits w 9 6 = 0) (.engrave (fD w) (fA w) (bits w 0 9))

/-- R62: major 0x68, BNSET. -/
def decOp68 (w : BitVec 32) : Option Instr := need (fA w = 0 ∧ bits w 3 12 = 0) (.bnset (fD w) (bits w 0 3))

/-- R305, R103: major 0x70; numbers 0x008 to 0x00F write ERHT.TAIL and are the gated append. -/
def decOp70 (w : BitVec 32) : Option Instr :=
  if bits w 18 7 = (1 : BitVec 7) then need (bits w 5 5 = 0) (.ewrErhtTail (bits w 15 3) (fEa w)) else need (bits w 5 5 = 0) (.ewr (bits w 15 10) (fEa w))

/-- R62: major 0x71, ERD. -/
def decOp71 (w : BitVec 32) : Option Instr := need (bits w 5 5 = 0) (.erd (fEa w) (bits w 15 10))

/-- R62: major 0x72, MMA. -/
def decOp72 (w : BitVec 32) : Option Instr := need (bits w 15 2 = 0 ∧ bits w 5 5 = 0) (.mma (bits w 22 3) (bits w 19 3) (flag w 18) (flag w 17) (fEa w))

/-- R62: major 0x73, MZERO. -/
def decOp73 (w : BitVec 32) : Option Instr := need (bits w 19 6 = 0 ∧ bits w 15 3 = 0 ∧ fEa w = 0 ∧ fEb w = 0) (.mzero (flag w 18))

/-- R62: major 0x74, MRET. -/
def decOp74 (w : BitVec 32) : Option Instr := (MLayout.ofCode (bits w 15 2)).bind fun ly => need (bits w 19 6 = 0) (.mret (flag w 18) (flag w 17) ly (fEa w) (fEb w))

/-- R62: major 0x75, MGANG. -/
def decOp75 (w : BitVec 32) : Option Instr := need (bits w 19 2 = 0 ∧ bits w 15 2 = 0) (.mgang (bits w 21 4) (flag w 18) (flag w 17) (fEa w) (fEb w))

/-- R62: major 0x76, FLU. -/
def decOp76 (w : BitVec 32) : Option Instr := need (flag w 24 = false ∧ bits w 15 8 = 0) (.flu (flag w 23) (fEa w) (fEb w))

/-- R62: major 0x77, FCHOL. -/
def decOp77 (w : BitVec 32) : Option Instr := need (flag w 24 = false ∧ bits w 15 8 = 0) (.fchol (flag w 23) (fEa w) (fEb w))

/-- R62: major 0x78, FQR. -/
def decOp78 (w : BitVec 32) : Option Instr := need (bits w 15 10 = 0) (.fqr (fEa w) (fEb w))

/-- R62: major 0x79, FTRSM. -/
def decOp79 (w : BitVec 32) : Option Instr := need (bits w 15 6 = 0) (.ftrsm (flag w 24) (flag w 23) (flag w 22) (flag w 21) (fEa w) (fEb w))

/-- R62: major 0x7A, CPY. -/
def decOp7A (w : BitVec 32) : Option Instr := need (bits w 15 10 = 0) (.cpy (fEa w) (fEb w))

/-- R62: major 0x7B, COLL. -/
def decOp7B (w : BitVec 32) : Option Instr := need (bits w 15 10 = 0 ∧ fEb w = 0) (.coll (fEa w))

/-- R62: major 0x7C, by its function value. -/
def decOp7C (w : BitVec 32) : Option Instr :=
  match (bits w 22 3).toNat with
  | 0 => (Scope.ofCode (bits w 17 3)).bind fun sc => need (flag w 15 = false) (.gld (DOrder.ofCode (bits w 20 2)) sc (flag w 16) (fEa w) (fEb w))
  | 1 => (Scope.ofCode (bits w 17 3)).bind fun sc => need (flag w 15 = false) (.gst (DOrder.ofCode (bits w 20 2)) sc (flag w 16) (fEa w) (fEb w))
  | 2 => (Scope.ofCode (bits w 17 3)).bind fun sc => need (flag w 15 = false) (.gaadd (DOrder.ofCode (bits w 20 2)) sc (flag w 16) (fEa w) (fEb w))
  | 3 => (Scope.ofCode (bits w 17 3)).bind fun sc => need (flag w 15 = false) (.gacas (DOrder.ofCode (bits w 20 2)) sc (flag w 16) (fEa w) (fEb w))
  | 4 => (Scope.ofCode (bits w 17 3)).bind fun sc => need (flag w 15 = false) (.gaxch (DOrder.ofCode (bits w 20 2)) sc (flag w 16) (fEa w) (fEb w))
  | 5 => (Scope.ofCode (bits w 17 3)).bind fun sc => need (flag w 15 = false) (.gamax (DOrder.ofCode (bits w 20 2)) sc (flag w 16) (fEa w) (fEb w))
  | 6 => (Scope.ofCode (bits w 17 3)).bind fun sc => need (flag w 15 = false) (.gamin (DOrder.ofCode (bits w 20 2)) sc (flag w 16) (fEa w) (fEb w))
  | _ => none

/-- R62: major 0x7D, WSTRM. -/
def decOp7D (w : BitVec 32) : Option Instr := need (bits w 15 10 = 0 ∧ fEb w = 0) (.wstrm (fEa w))

/-- R143: major 0x7E; eop[24] chooses STRB or STRU. -/
def decOp7E (w : BitVec 32) : Option Instr :=
  if flag w 24 then need (bits w 18 6 = 0 ∧ fEa w = 0 ∧ fEb w = 0) (.stru (bits w 15 3)) else need (bits w 19 5 = 0 ∧ fEb w = 0) (.strb (flag w 18) (bits w 15 3) (fEa w))

/-- R62: major 0x7F, by its function value. -/
def decOp7F (w : BitVec 32) : Option Instr :=
  match (bits w 23 2).toNat with
  | 0 => need (bits w 15 8 = 0) (.lref (fEa w) (fEb w))
  | 1 => need (bits w 15 8 = 0) (.lqry (fEa w) (fEb w))
  | 2 => (HintAccess.ofCode (bits w 19 4)).bind fun ac => (HintTier.ofCode (bits w 15 4)).bind fun ti => some (.phint ac ti (fEa w) (fEb w))
  | 3 => need (bits w 15 8 = 0) (.pmig (fEa w) (fEb w))
  | _ => none

/-- R63, R71: the fl field of an engine word is zero. -/
def flOk (w : BitVec 32) : Bool := decide ((bits w 25 7 : BitVec 7).toNat < 0x70) || (bits w 0 5 : BitVec 5) == 0

/-- R62, R71: the instruction a slot word is by its fields alone; none for a word of no row. -/
def decodeRaw (w : BitVec 32) : Option Instr :=
  if !flOk w then none else
  match (bits w 25 7 : BitVec 7).toNat with
  | 0x01 => decOp01 w
  | 0x02 => decOp02 w
  | 0x03 => decOp03 w
  | 0x04 => decOp04 w
  | 0x05 => decOp05 w
  | 0x06 => decOp06 w
  | 0x07 => decOp07 w
  | 0x08 => decOp08 w
  | 0x09 => decOp09 w
  | 0x0A => decOp0A w
  | 0x0B => decOp0B w
  | 0x0C => decOp0C w
  | 0x0D => decOp0D w
  | 0x0E => decOp0E w
  | 0x0F => decOp0F w
  | 0x10 => decOp10 w
  | 0x11 => decOp11 w
  | 0x12 => decOp12 w
  | 0x13 => decOp13 w
  | 0x14 => decOp14 w
  | 0x15 => decOp15 w
  | 0x16 => decOp16 w
  | 0x17 => decOp17 w
  | 0x18 => decOp18 w
  | 0x19 => decOp19 w
  | 0x1A => decOp1A w
  | 0x1B => decOp1B w
  | 0x1C => decOp1C w
  | 0x1D => decOp1D w
  | 0x1E => decOp1E w
  | 0x1F => decOp1F w
  | 0x20 => decOp20 w
  | 0x21 => decOp21 w
  | 0x28 => decOp28 w
  | 0x29 => decOp29 w
  | 0x2A => decOp2A w
  | 0x2B => decOp2B w
  | 0x2C => decOp2C w
  | 0x2D => decOp2D w
  | 0x30 => decOp30 w
  | 0x31 => decOp31 w
  | 0x32 => decOp32 w
  | 0x33 => decOp33 w
  | 0x34 => decOp34 w
  | 0x35 => decOp35 w
  | 0x36 => decOp36 w
  | 0x38 => decOp38 w
  | 0x40 => decOp40 w
  | 0x41 => decOp41 w
  | 0x42 => decOp42 w
  | 0x43 => decOp43 w
  | 0x44 => decOp44 w
  | 0x50 => decOp50 w
  | 0x51 => decOp51 w
  | 0x52 => decOp52 w
  | 0x53 => decOp53 w
  | 0x54 => decOp54 w
  | 0x55 => decOp55 w
  | 0x56 => decOp56 w
  | 0x57 => decOp57 w
  | 0x58 => decOp58 w
  | 0x59 => decOp59 w
  | 0x5A => decOp5A w
  | 0x5B => decOp5B w
  | 0x5C => decOp5C w
  | 0x5D => decOp5D w
  | 0x5E => decOp5E w
  | 0x5F => decOp5F w
  | 0x60 => decOp60 w
  | 0x61 => decOp61 w
  | 0x62 => decOp62 w
  | 0x63 => decOp63 w
  | 0x64 => decOp64 w
  | 0x65 => decOp65 w
  | 0x66 => decOp66 w
  | 0x67 => decOp67 w
  | 0x68 => decOp68 w
  | 0x70 => decOp70 w
  | 0x71 => decOp71 w
  | 0x72 => decOp72 w
  | 0x73 => decOp73 w
  | 0x74 => decOp74 w
  | 0x75 => decOp75 w
  | 0x76 => decOp76 w
  | 0x77 => decOp77 w
  | 0x78 => decOp78 w
  | 0x79 => decOp79 w
  | 0x7A => decOp7A w
  | 0x7B => decOp7B w
  | 0x7C => decOp7C w
  | 0x7D => decOp7D w
  | 0x7E => decOp7E w
  | 0x7F => decOp7F w
  | _ => none

/-- R71, R288: the instruction of a slot word; none where the word raises ILLEGAL by its fields alone. The all-zero
word is NOP (R328). -/
def decodeWord (w : BitVec 32) : Option Instr :=
  if w = 0 then some .nop else (decodeRaw w).bind fun i => if i.wf then some i else none

/-- R31: a parcel at a fetch position: a PRINT, a full-bundle header, or none for an illegal parcel. -/
def decodeParcel (p : BitVec 16) : Option Instr :=
  if p.getLsbD 15 = false then some (.print (p.extractLsb' 6 9) (p.extractLsb' 0 6))
  else if p.getLsbD 14 = true ∧ p.extractLsb' 0 5 = (0 : BitVec 5) then
    some (.fullBundleHeader (p.extractLsb' 5 9))
  else none

/-- R62, format A. -/
def encA (op : BitVec 7) (d a b : BitVec 5) (fn : BitVec 10) : BitVec 32 := op ++ d ++ a ++ b ++ fn
/-- R62, formats B, J and K. -/
def encB (op : BitVec 7) (d a : BitVec 5) (imm : BitVec 15) : BitVec 32 := op ++ d ++ a ++ imm
/-- R62, format C. -/
def encC (op : BitVec 7) (d : BitVec 5) (imm : BitVec 20) : BitVec 32 := op ++ d ++ imm
/-- R62, format V. -/
def encV (op : BitVec 7) (vd va vb : BitVec 5) (pg : BitVec 3) (ty : BitVec 2) (zi zo : Bool) (fn : BitVec 3) :
    BitVec 32 := op ++ vd ++ va ++ vb ++ pg ++ ty ++ BitVec.ofBool zi ++ BitVec.ofBool zo ++ fn
/-- R62, format M. -/
def encM (op : BitVec 7) (t base : BitVec 5) (pg : BitVec 3) (off : BitVec 12) : BitVec 32 :=
  op ++ t ++ base ++ pg ++ off
/-- R62, format E; fl is zero. -/
def encE (op : BitVec 7) (eop : BitVec 10) (a b : BitVec 5) : BitVec 32 := op ++ eop ++ a ++ b ++ (0 : BitVec 5)

/-- R62 to R70: the slot word of a slot instruction (0 for NOP and for a constructor that has no slot word). -/
def encodeWord : Instr → BitVec 32
  | .illegalWord w => w
  | .add d a b => encA 0x01 d a b 0
  | .sub d a b => encA 0x01 d a b 1
  | .and d a b => encA 0x01 d a b 2
  | .or d a b => encA 0x01 d a b 3
  | .xor d a b => encA 0x01 d a b 4
  | .sll d a b => encA 0x01 d a b 5
  | .srl d a b => encA 0x01 d a b 6
  | .sra d a b => encA 0x01 d a b 7
  | .slt d a b => encA 0x01 d a b 8
  | .sltu d a b => encA 0x01 d a b 9
  | .min d a b => encA 0x01 d a b 10
  | .max d a b => encA 0x01 d a b 11
  | .minu d a b => encA 0x01 d a b 12
  | .maxu d a b => encA 0x01 d a b 13
  | .addi d a imm => encB 0x02 d a imm
  | .andi d a imm => encB 0x03 d a imm
  | .ori d a imm => encB 0x04 d a imm
  | .xori d a imm => encB 0x05 d a imm
  | .slti d a imm => encB 0x06 d a imm
  | .slli d a h => encB 0x07 d a ((0 : BitVec 7) ++ (0 : BitVec 2) ++ h)
  | .srli d a h => encB 0x07 d a ((0 : BitVec 7) ++ (1 : BitVec 2) ++ h)
  | .srai d a h => encB 0x07 d a ((0 : BitVec 7) ++ (2 : BitVec 2) ++ h)
  | .li d imm => encC 0x08 d imm
  | .lih d imm => encC 0x09 d imm
  | .lix d imm => encC 0x0A d imm
  | .mul d a b => encA 0x0B d a b 0
  | .mulh d a b => encA 0x0B d a b 1
  | .mulhu d a b => encA 0x0B d a b 2
  | .div d a b => encA 0x0B d a b 3
  | .divu d a b => encA 0x0B d a b 4
  | .rem d a b => encA 0x0B d a b 5
  | .remu d a b => encA 0x0B d a b 6
  | .clz d a => encA 0x0C d a 0 0
  | .ctz d a => encA 0x0C d a 0 1
  | .popc d a => encA 0x0C d a 0 2
  | .brev d a => encA 0x0C d a 0 3
  | .bext d a b => encA 0x0C d a b 4
  | .bins d a b => encA 0x0C d a b 5
  | .lea d a b h => encA 0x0D d a b ((0 : BitVec 7) ++ h)
  | .cmov d a b => encA 0x0E d a b 0
  | .fadd d a b => encA 0x0F d a b 0
  | .fsub d a b => encA 0x0F d a b 1
  | .fmul d a b => encA 0x0F d a b 2
  | .fmin d a b => encA 0x0F d a b 3
  | .fmax d a b => encA 0x0F d a b 4
  | .feq d a b => encA 0x0F d a b 5
  | .flt d a b => encA 0x0F d a b 6
  | .fle d a b => encA 0x0F d a b 7
  | .fcvti d a => encA 0x0F d a 0 8
  | .fcvtf d a => encA 0x0F d a 0 9
  | .ffma d a b => encA 0x10 d a b 0
  | .ldb t base off => encM 0x11 t base 0 off
  | .ldbu t base off => encM 0x12 t base 0 off
  | .ldh t base off => encM 0x13 t base 0 off
  | .ldhu t base off => encM 0x14 t base 0 off
  | .ldw t base off => encM 0x15 t base 0 off
  | .ldwu t base off => encM 0x16 t base 0 off
  | .ldd t base off => encM 0x17 t base 0 off
  | .stb t base off => encM 0x18 t base 0 off
  | .sth t base off => encM 0x19 t base 0 off
  | .stw t base off => encM 0x1A t base 0 off
  | .std t base off => encM 0x1B t base 0 off
  | .vld t base pg off => encM 0x1C t base pg off
  | .vst t base pg off => encM 0x1D t base pg off
  | .vlds d a b w => encA 0x1E d a b ((0 : BitVec 7) ++ (0 : BitVec 1) ++ w.memCode)
  | .vsts d a b w => encA 0x1E d a b ((0 : BitVec 7) ++ (1 : BitVec 1) ++ w.memCode)
  | .vgath d a b w => encA 0x1F d a b ((0 : BitVec 7) ++ (0 : BitVec 1) ++ w.memCode)
  | .vscat d a b w => encA 0x1F d a b ((0 : BitVec 7) ++ (1 : BitVec 1) ++ w.memCode)
  | .naadd d a b z => encA 0x20 d a b ((0 : BitVec 7) ++ BitVec.ofBool z ++ (0 : BitVec 2))
  | .nacas d a b z => encA 0x20 d a b ((0 : BitVec 7) ++ BitVec.ofBool z ++ (1 : BitVec 2))
  | .naxch d a b z => encA 0x20 d a b ((0 : BitVec 7) ++ BitVec.ofBool z ++ (2 : BitVec 2))
  | .spill d => encA 0x21 d 0 0 0
  | .fill d => encA 0x21 d 0 0 1
  | .vspill d => encA 0x21 d 0 0 2
  | .vfill d => encA 0x21 d 0 0 3
  | .vadd vd va vb pg w => encV 0x28 vd va vb pg w.code false false 0
  | .vsub vd va vb pg w => encV 0x28 vd va vb pg w.code false false 1
  | .vmul vd va vb pg w => encV 0x28 vd va vb pg w.code false false 2
  | .vmulh vd va vb pg w => encV 0x28 vd va vb pg w.code false false 3
  | .vmin vd va vb pg w => encV 0x28 vd va vb pg w.code false false 4
  | .vmax vd va vb pg w => encV 0x28 vd va vb pg w.code false false 5
  | .vabs vd va pg w => encV 0x28 vd va 0 pg w.code false false 6
  | .vadds vd va vb pg w => encV 0x28 vd va vb pg w.code false false 7
  | .vand vd va vb pg w => encV 0x29 vd va vb pg w.code false false 0
  | .vor vd va vb pg w => encV 0x29 vd va vb pg w.code false false 1
  | .vxor vd va vb pg w => encV 0x29 vd va vb pg w.code false false 2
  | .vandn vd va vb pg w => encV 0x29 vd va vb pg w.code false false 3
  | .vshl vd va vb pg w => encV 0x29 vd va vb pg w.code false false 4
  | .vshr vd va vb pg w => encV 0x29 vd va vb pg w.code false false 5
  | .vsra vd va vb pg w => encV 0x29 vd va vb pg w.code false false 6
  | .vrotl vd va vb pg w => encV 0x29 vd va vb pg w.code false false 7
  | .vceq pd va vb pg w => encV 0x2A (pd.zeroExtend 5) va vb pg w.code false false 0
  | .vcne pd va vb pg w => encV 0x2A (pd.zeroExtend 5) va vb pg w.code false false 1
  | .vclt pd va vb pg w => encV 0x2A (pd.zeroExtend 5) va vb pg w.code false false 2
  | .vcle pd va vb pg w => encV 0x2A (pd.zeroExtend 5) va vb pg w.code false false 3
  | .vcltu pd va vb pg w => encV 0x2A (pd.zeroExtend 5) va vb pg w.code false false 4
  | .vcleu pd va vb pg w => encV 0x2A (pd.zeroExtend 5) va vb pg w.code false false 5
  | .vaddx vd va vb pg w => encV 0x2B vd va vb pg w.code false false 0
  | .vsubx vd va vb pg w => encV 0x2B vd va vb pg w.code false false 1
  | .vmulx vd va vb pg w => encV 0x2B vd va vb pg w.code false false 2
  | .vshlx vd va vb pg w => encV 0x2B vd va vb pg w.code false false 3
  | .vshrx vd va vb pg w => encV 0x2B vd va vb pg w.code false false 4
  | .vsrax vd va vb pg w => encV 0x2B vd va vb pg w.code false false 5
  | .vminx vd va vb pg w => encV 0x2B vd va vb pg w.code false false 6
  | .vmaxx vd va vb pg w => encV 0x2B vd va vb pg w.code false false 7
  | .vmov vd va pg w => encV 0x2C vd va 0 pg w.code false false 0
  | .vbcast vd va pg w => encV 0x2C vd va 0 pg w.code false false 1
  | .vsel vd va vb pg w => encV 0x2C vd va vb pg w.code false false 2
  | .vextr vd va vb w => encV 0x2C vd va vb 0 w.code false false 3
  | .vins vd va vb w => encV 0x2C vd va vb 0 w.code false false 4
  | .viota vd pg w => encV 0x2C vd 0 0 pg w.code false false 5
  | .vpopc vd va pg w => encV 0x2C vd va 0 pg w.code false false 6
  | .vclz vd va pg w => encV 0x2C vd va 0 pg w.code false false 7
  | .vperm vd va vb pg w => encV 0x2D vd va vb pg w.code false false 0
  | .vrot vd va vb pg w => encV 0x2D vd va vb pg w.code false false 1
  | .vrev vd va pg w => encV 0x2D vd va 0 pg w.code false false 2
  | .vfadd vd va vb pg w zi zo => encV 0x30 vd va vb pg w.code zi zo 0
  | .vfsub vd va vb pg w zi zo => encV 0x30 vd va vb pg w.code zi zo 1
  | .vfmul vd va vb pg w zi zo => encV 0x30 vd va vb pg w.code zi zo 2
  | .vfmin vd va vb pg w zi zo => encV 0x30 vd va vb pg w.code zi zo 3
  | .vfmax vd va vb pg w zi zo => encV 0x30 vd va vb pg w.code zi zo 4
  | .vfabs vd va pg w zi zo => encV 0x30 vd va 0 pg w.code zi zo 5
  | .vfneg vd va pg w zi zo => encV 0x30 vd va 0 pg w.code zi zo 6
  | .vfcps vd va vb pg w zi zo => encV 0x30 vd va vb pg w.code zi zo 7
  | .vfma vd va vb pg w zi zo => encV 0x31 vd va vb pg w.code zi zo 0
  | .vfms vd va vb pg w zi zo => encV 0x31 vd va vb pg w.code zi zo 1
  | .vfeq pd va vb pg w zi => encV 0x32 (pd.zeroExtend 5) va vb pg w.code zi false 0
  | .vfne pd va vb pg w zi => encV 0x32 (pd.zeroExtend 5) va vb pg w.code zi false 1
  | .vflt pd va vb pg w zi => encV 0x32 (pd.zeroExtend 5) va vb pg w.code zi false 2
  | .vfle pd va vb pg w zi => encV 0x32 (pd.zeroExtend 5) va vb pg w.code zi false 3
  | .vfun pd va vb pg w zi => encV 0x32 (pd.zeroExtend 5) va vb pg w.code zi false 4
  | .vrsum vd va pg w => encV 0x33 vd va 0 pg w.code false false 0
  | .vrmax vd va pg w => encV 0x33 vd va 0 pg w.code false false 1
  | .vrmin vd va pg w => encV 0x33 vd va 0 pg w.code false false 2
  | .vfrsum vd va pg w zi zo => encV 0x33 vd va 0 pg w.code zi zo 3
  | .vfrmax vd va pg w zi zo => encV 0x33 vd va 0 pg w.code zi zo 4
  | .vfrmin vd va pg w zi zo => encV 0x33 vd va 0 pg w.code zi zo 5
  | .vdot vd va vb pg w zi zo => encV 0x34 vd va vb pg w.code zi zo 0
  | .vdota vd va vb pg w zi zo => encV 0x34 vd va vb pg w.code zi zo 1
  | .vrcp vd va pg w zi zo => encV 0x35 vd va 0 pg w.code zi zo 0
  | .vrsq vd va pg w zi zo => encV 0x35 vd va 0 pg w.code zi zo 1
  | .vsqrt vd va pg w zi zo => encV 0x35 vd va 0 pg w.code zi zo 2
  | .vexp2 vd va pg w zi zo => encV 0x35 vd va 0 pg w.code zi zo 3
  | .vlog2 vd va pg w zi zo => encV 0x35 vd va 0 pg w.code zi zo 4
  | .vtanh vd va pg w zi zo => encV 0x35 vd va 0 pg w.code zi zo 5
  | .vsinpi vd va pg w zi zo => encV 0x35 vd va 0 pg w.code zi zo 6
  | .verf vd va pg w zi zo => encV 0x35 vd va 0 pg w.code zi zo 7
  | .vbnet vd va vb k => encA 0x36 vd va vb ((0 : BitVec 7) ++ k)
  | .pand pd pa pb => encA 0x38 (pd.zeroExtend 5) (pa.zeroExtend 5) (pb.zeroExtend 5) 0
  | .por pd pa pb => encA 0x38 (pd.zeroExtend 5) (pa.zeroExtend 5) (pb.zeroExtend 5) 1
  | .pxor pd pa pb => encA 0x38 (pd.zeroExtend 5) (pa.zeroExtend 5) (pb.zeroExtend 5) 2
  | .pandn pd pa pb => encA 0x38 (pd.zeroExtend 5) (pa.zeroExtend 5) (pb.zeroExtend 5) 3
  | .pnot pd pa => encA 0x38 (pd.zeroExtend 5) (pa.zeroExtend 5) 0 4
  | .pcnt d pa w => encV 0x38 d (pa.zeroExtend 5) 0 0 w.code false false 5
  | .pfirst d pa w => encV 0x38 d (pa.zeroExtend 5) 0 0 w.code false false 6
  | .planes pd b w => encV 0x38 (pd.zeroExtend 5) 0 b 0 w.code false false 7
  | .xcvt vd va dfmt sfmt rm sat part => encB 0x40 vd va (dfmt.code ++ sfmt.code ++ rm.code ++ BitVec.ofBool sat ++ part)
  | .xexp vd va kind part => encB 0x41 vd va (kind.code ++ part ++ (0 : BitVec 8))
  | .xpack vd va kind part => encB 0x42 vd va (kind.code ++ part ++ (0 : BitVec 8))
  | .xtrn vd va shape => encB 0x43 vd va (shape.code ++ (0 : BitVec 13))
  | .xscl vd va b => encA 0x44 vd va b 0
  | .xqnt vd va b => encA 0x44 vd va b 1
  | .beq a b off => encB 0x50 a b off
  | .bne a b off => encB 0x51 a b off
  | .blt a b off => encB 0x52 a b off
  | .bge a b off => encB 0x53 a b off
  | .bltu a b off => encB 0x54 a b off
  | .bgeu a b off => encB 0x55 a b off
  | .jmp d imm => encC 0x56 d imm
  | .jmpr d a => encA 0x57 d a 0 0
  | .loop x b => encB 0x58 x 0 b
  | .setfmt x => encB 0x59 x 0 0
  | .proof code => encB 0x5A 0 0 code
  | .vigil x vid => encB 0x5B x 0 ((0 : BitVec 5) ++ vid)
  | .waita x y scope wide cond => encB 0x5C x y ((0 : BitVec 8) ++ scope.code ++ BitVec.ofBool wide ++ cond.code)
  | .fence after before scope order => encB 0x5D 0 0 (after ++ before ++ scope.code ++ order.code)
  | .spawn x y n k => encB 0x5E x y ((0 : BitVec 8) ++ n ++ k)
  | .susp x y aff => encB 0x5F x y ((0 : BitVec 13) ++ aff.code)
  | .done => encB 0x60 0 0 0
  | .trig => encB 0x61 0 0 0
  | .trap code => encB 0x62 0 0 code
  | .eret => encB 0x63 0 0 0
  | .crd x r => encB 0x64 x 0 ((0 : BitVec 3) ++ r)
  | .cwr x r => encB 0x65 x 0 ((0 : BitVec 3) ++ r)
  | .bkpt code => encB 0x66 0 0 code
  | .engrave x y c => encB 0x67 x y ((0 : BitVec 6) ++ c)
  | .bnset x k => encB 0x68 x 0 ((0 : BitVec 12) ++ k)
  | .ewr r a => encE 0x70 r a 0
  | .ewrErhtTail i a => encE 0x70 ((1 : BitVec 7) ++ i) a 0
  | .erd a r => encE 0x71 r a 0
  | .mma ar br bank clr a => encE 0x72 (ar ++ br ++ BitVec.ofBool bank ++ BitVec.ofBool clr ++ (0 : BitVec 2)) a 0
  | .mzero bank => encE 0x73 ((0 : BitVec 6) ++ BitVec.ofBool bank ++ (0 : BitVec 3)) 0 0
  | .mret bank lsf layout a b => encE 0x74 ((0 : BitVec 6) ++ BitVec.ofBool bank ++ BitVec.ofBool lsf ++ layout.code) a b
  | .mgang mask bank clr a b => encE 0x75 (mask ++ (0 : BitVec 2) ++ BitVec.ofBool bank ++ BitVec.ofBool clr ++ (0 : BitVec 2)) a b
  | .flu variant a b => encE 0x76 ((0 : BitVec 1) ++ BitVec.ofBool variant ++ (0 : BitVec 8)) a b
  | .fchol variant a b => encE 0x77 ((0 : BitVec 1) ++ BitVec.ofBool variant ++ (0 : BitVec 8)) a b
  | .fqr a b => encE 0x78 0 a b
  | .ftrsm right upper tr unit a b => encE 0x79 (BitVec.ofBool right ++ BitVec.ofBool upper ++ BitVec.ofBool tr ++ BitVec.ofBool unit ++ (0 : BitVec 6)) a b
  | .cpy a b => encE 0x7A 0 a b
  | .coll a => encE 0x7B 0 a 0
  | .gld order scope z a b => encE 0x7C ((0 : BitVec 3) ++ order.code ++ scope.code ++ BitVec.ofBool z ++ (0 : BitVec 1)) a b
  | .gst order scope z a b => encE 0x7C ((1 : BitVec 3) ++ order.code ++ scope.code ++ BitVec.ofBool z ++ (0 : BitVec 1)) a b
  | .gaadd order scope z a b => encE 0x7C ((2 : BitVec 3) ++ order.code ++ scope.code ++ BitVec.ofBool z ++ (0 : BitVec 1)) a b
  | .gacas order scope z a b => encE 0x7C ((3 : BitVec 3) ++ order.code ++ scope.code ++ BitVec.ofBool z ++ (0 : BitVec 1)) a b
  | .gaxch order scope z a b => encE 0x7C ((4 : BitVec 3) ++ order.code ++ scope.code ++ BitVec.ofBool z ++ (0 : BitVec 1)) a b
  | .gamax order scope z a b => encE 0x7C ((5 : BitVec 3) ++ order.code ++ scope.code ++ BitVec.ofBool z ++ (0 : BitVec 1)) a b
  | .gamin order scope z a b => encE 0x7C ((6 : BitVec 3) ++ order.code ++ scope.code ++ BitVec.ofBool z ++ (0 : BitVec 1)) a b
  | .wstrm a => encE 0x7D 0 a 0
  | .strb dir q a => encE 0x7E ((0 : BitVec 6) ++ BitVec.ofBool dir ++ q) a 0
  | .stru q => encE 0x7E ((1 : BitVec 1) ++ (0 : BitVec 6) ++ q) 0 0
  | .lref a b => encE 0x7F ((0 : BitVec 2) ++ (0 : BitVec 8)) a b
  | .lqry a b => encE 0x7F ((1 : BitVec 2) ++ (0 : BitVec 8)) a b
  | .phint access tier a b => encE 0x7F ((2 : BitVec 2) ++ access.code ++ tier.code) a b
  | .pmig a b => encE 0x7F ((3 : BitVec 2) ++ (0 : BitVec 8)) a b
  | _ => 0

/-- R62: whether an instruction is written as a slot word: neither a parcel nor a step of the device. -/
def Instr.isWord : Instr → Bool
  | .nop => true
  | i => encodeWord i != 0

/-- R31, R331: the parcel of a PRINT or of a full-bundle header. -/
def encodeParcel : Instr → Option (BitVec 16)
  | .print n k => some (BitVec.ofBool false ++ n ++ k)
  | .fullBundleHeader e => some ((3 : BitVec 2) ++ e ++ (0 : BitVec 5))
  | _ => none

/-- The instruction the decoder reads from the bits of one table row: a parcel of 16 bits (R31), else a slot word. -/
def decodeTableWord (nbits w : Nat) : Option Instr :=
  if nbits = 16 then decodeParcel (BitVec.ofNat 16 w) else decodeWord (BitVec.ofNat 32 w)

end Sys2Proof
end

