-- ==== Sys2Proof/Word.lean ====
section
/-!
DEFINITION. The word types of the machine (R50).
-/

namespace Sys2Proof

/-- R50: a scalar, control or engine register. -/
abbrev Word := BitVec 64
/-- R50: a vector register. -/
abbrev VWord := BitVec 2048
/-- R50: a predicate register. -/
abbrev PWord := BitVec 256
/-- R6: a byte. -/
abbrev Byte := BitVec 8
/-- R32: a slot word. -/
abbrev SlotWord := BitVec 32

end Sys2Proof
end

