-- ==== Sys2Proof/Config.lean ====
section
/-!
DEFINITION. What the spec fixes as numbers of the part, and the free values: constants without a body, of which
nothing can be proved but that they are the same on every use.
-/

namespace Sys2Proof.Config

/-- R240: D, cycles from a proof's issue to its seal. -/
def sealDelay : Nat := 384
/-- R23: cycles from a SPAWN to the target's first bundle. -/
def spawnDelay : Nat := 24
/-- R239: store entries of a gated buffer. -/
def gatedStores : Nat := 128
/-- R239: command entries of a gated buffer. -/
def gatedCommands : Nat := 32
/-- R16: tasks of a phase. -/
def tasks : Nat := 1024
/-- R156: entries of a refresh FIFO. -/
def refreshFifo : Nat := 256
/-- R156: cycles of a refresh service slot. -/
def serviceSlot : Nat := 64
/-- R229: cycles between watchdog checks. -/
def watchdogPeriod : Nat := 65536
/-- R179: entries of a side log. -/
def sideLogEntries : Nat := 256
/-- R178: entries of a TLB. -/
def tlbEntries : Nat := 4096
/-- R188: entries of a park queue. -/
def parkEntries : Nat := 1024
/-- R261: entries of the fault queue. -/
def faultQueueEntries : Nat := 2048
/-- R222: kernels a partition runs at once. -/
def partitionKernels : Nat := 16
/-- R228: bytes of a save slot. -/
def saveSlotBytes : Nat := 655360
/-- R253: bytes of the fixed regions of a save slot. -/
def saveFixedBytes : Nat := 131072

/-- FREE VALUE (log entry 5): the n-th choice the device makes where the spec allows several outcomes: which enabled
event happens next, which permitted value an asynchronous read returns. -/
opaque pick : Nat → Nat

/-- FREE VALUE (log entry 6): the place of byte move i in the order in which command n makes its moves (R165 fixes none). -/
opaque copyRank (n i : Nat) : Nat

/-- FREE VALUE (log entry 15): whether the TLB entry of a page is still there in a cycle, since replacement is not fixed. -/
opaque tlbKept (cycle page : Nat) : Bool

/-- FREE VALUE (log entry 10): the byte another device holds at a physical address when the n-th choice is made. -/
opaque remoteByte (n dev pa : Nat) : BitVec 8

/-- FREE VALUE (log entry 10): whether that byte's granule carries poison when the n-th choice is made. -/
opaque remotePoison (n dev pa : Nat) : Bool

/-- FREE VALUE (log entry 10): the byte that the snapshot of a phase of a kernel holds at a physical address of another
device. -/
opaque remoteSnap (kernel phase dev pa : Nat) : BitVec 8

/-- FREE VALUE (log entry 10): whether that byte's granule carries poison in the snapshot. -/
opaque remoteSnapPoison (kernel phase dev granule : Nat) : Bool

/-- FREE VALUE (log entry 10): the HBM frames that another device of the domain has installed. -/
opaque remoteFrames (dev : Nat) : Nat

/-- FREE VALUE (log entry 23): what a cluster's LTS sensor reads at its n-th age tick, in degrees. -/
opaque temperature (cluster n : Nat) : Int

/-- FREE VALUE (log entry 18): whether an idle device shows CLUSTER-IDLE in a cycle; R270 does not say when. -/
opaque clusterIdle (cycle : Nat) : Bool

/-- FREE VALUE (log entry 16): SHA-512, which R265 names and does not define. -/
opaque sha512 (bytes : List (BitVec 8)) : BitVec 512

/-- FREE VALUE (log entry 70): whether every HBM base die reads at least 0 degrees in a cycle (R268). -/
opaque heated (cycle : Nat) : Bool

/-- FREE VALUE (log entry 70): whether a channel passes the training of a cold start in a cycle (R268). -/
opaque channelPasses (cycle ch : Nat) : Bool

/-- FREE VALUE (log entry 69): whether the background sweep refreshes an LC7 row group of a cluster at its n-th age tick; the
spec does not give its rate (R154, R156). -/
opaque swept (cluster row n : Nat) : Bool

/-- FREE VALUE (log entry 16): the ECDSA P-521 signature of the device identity key over nonce and M_last (R265). -/
opaque quoteSignature (nonce mLast : BitVec 512) : BitVec 1056

/-- FREE VALUE (log entry 50): the granule (its number among the 64-byte granules of the one byte memory) in which an error
that ECC cannot correct arises in a cycle, if there is one; the spec gives errors no source (R113, R129, R189, R191). -/
opaque softError (cycle : Nat) : Option Nat

/-- FREE VALUE (log entry 51): the address that FADDR gives for a granule of a core's weight buffer, which has no scratch
address (R104, R113). -/
opaque bufferAddress (core off : Nat) : Nat

end Sys2Proof.Config
end

