-- ==== Sys2Proof/Machine/Map.lean ====
section
/-!
DEFINITION. Finite maps by number, as sorted lists of pairs, and the canonical byte memory.
-/

namespace Sys2Proof.Machine

/-- A finite map from numbers, a list of pairs. -/
abbrev AMap (α : Type) := List (Nat × α)

/-- The value listed first for a key. -/
def AMap.find {α : Type} : AMap α → Nat → Option α
  | [], _ => none
  | (a, x) :: t, k => if k = a then some x else AMap.find t k

/-- The value of a key, or a default. -/
def AMap.get {α : Type} (d : α) (m : AMap α) (k : Nat) : α := (AMap.find m k).getD d

/-- Writes a key, keeping keys in rising order where they are. -/
def AMap.put {α : Type} : AMap α → Nat → α → AMap α
  | [], k, v => [(k, v)]
  | (a, x) :: t, k, v =>
    if k = a then (k, v) :: t else if k < a then (k, v) :: (a, x) :: t else (a, x) :: AMap.put t k v

/-- Removes a key. -/
def AMap.del {α : Type} (m : AMap α) (k : Nat) : AMap α := m.filter fun p => p.1 != k

/-- Byte memory: address and byte, addresses rising, no byte equal to what an unlisted address reads as. -/
abbrev Memory := List Host.Cell

/-- What a byte reads as that nothing has written (log entry 2). -/
def Memory.unlisted : Byte := 0

/-- Reads one byte. -/
def Memory.read (m : Memory) (k : Nat) : Byte := AMap.get Memory.unlisted m k

/-- Writes one byte; writing the unlisted value removes the entry. -/
def Memory.write (m : Memory) (k : Nat) (v : Byte) : Memory :=
  if v = Memory.unlisted then AMap.del m k else AMap.put m k v

/-- The canonical form. -/
abbrev Memory.wf (m : Memory) : Prop :=
  m.Pairwise (fun p q => p.1 < q.1) ∧ ∀ p ∈ m, p.2 ≠ Memory.unlisted

/-- A set of numbers: a list in rising order. -/
abbrev NSet := List Nat

/-- Adds a number to a set. -/
def NSet.add : NSet → Nat → NSet
  | [], k => [k]
  | a :: t, k => if k = a then a :: t else if k < a then k :: a :: t else a :: NSet.add t k

/-- Removes a number from a set. -/
def NSet.del (s : NSet) (k : Nat) : NSet := s.filter (· != k)

end Sys2Proof.Machine
end

