-- ==== Sys2Proof/Machine/State.lean ====
section
/-!
DEFINITION. The state of the machine as plain data (INVENTORY.md, ## State), the reasons a step can stop, and the
state after reset.
-/

namespace Sys2Proof.Machine

/-- Why the machine stops. -/
inductive Fault where
  /-- The fetch reaches an LTS address that does not exist (R30, R135 give code no other place). Safe: the hardware's
  behaviour there is not given. -/
  | fetchOutsideLts
  deriving DecidableEq, Repr

/-- Why an instruction has no meaning. -/
inductive Refusal where
  /-- An arm of exec that has not been written. Safe. -/
  | notModelled (mnemonic : String)
  deriving DecidableEq, Repr

/-- R46: one active loop: first parcel of the body, first parcel after it, iterations still to run. -/
structure Loop where
  start : BitVec 32
  stop : BitVec 32
  count : BitVec 32
  deriving DecidableEq, Repr

/-- R143, R144, R148: a stream binding: the descriptor's 64 bytes, the direction, the units popped or pushed, the segment
in which it was bound (0: in a handler), and the payload bytes of the blocks popped from a DEC stream. -/
structure Stream where
  desc : BitVec 512
  write : Bool
  pos : Nat
  seg : Nat
  off : Nat
  deriving DecidableEq, Repr

/-- R106: a context's bookkeeping of the chain it holds on a bank. -/
structure Chain where
  isOpen : Bool
  depth : Nat
  deriving DecidableEq, Repr

/-- R255: the file a pending write goes to. -/
inductive RegFile where
  | scalar | vector | predicate | control | flagSet
  deriving DecidableEq, Repr

/-- R42, R255: a pending write: it lands before the reads of the bundle of tick `tick`. The mask has one bit for each
byte of a vector, for each bit of a predicate, and for each bit of a scalar or control register. `spv` is the
out-of-range address of an access whose FLAGS.SPV is pending (R137), `sample` the engine register whose status an ERD
takes until it lands (R59). -/
structure Pending where
  file : RegFile
  num : Nat
  tick : Nat
  slot : Nat
  mask : PWord
  val : VWord
  parcel : BitVec 32
  rep : Nat
  poison : Option Word
  issued : Nat
  spv : Option (BitVec 32) := none
  sample : Option Nat := none
  deriving DecidableEq, Repr

/-- R55, R246: a cause with the trap register values it brings. -/
structure Cause where
  code : Nat
  detail : BitVec 32
  bndl : BitVec 32
  slot : Nat
  fetch : Bool
  rep : Nat
  faddr : Word
  /-- R116: a failed gang member rewinds to its newest sealed proof. -/
  toSealed : Bool
  /-- R247: the tick of the bundle that issued the instruction. -/
  issued : Nat
  deriving DecidableEq, Repr

/-- R238: what a proof captures of a context, and a rewind brings back; `fenced`: the next bundle follows a FENCE that
R200 makes it wait for. -/
structure Arch where
  sreg : AMap Word
  vreg : AMap VWord
  preg : AMap PWord
  pc : BitVec 32
  tick : Nat
  fmt : BitVec 32
  shadow : List (Nat × BitVec 32)
  rngkey : Word
  rngctr : Word
  tvec : BitVec 32
  tstk : BitVec 32
  vgtmo : BitVec 32
  flags : BitVec 4
  spvio : BitVec 32
  stktop : BitVec 32
  stkbase : BitVec 32
  depth : Nat
  mgeo : Word
  mlim : Word
  mgcfg : Word
  wbcfg : Word
  fgeo : Word
  frhs : Word
  loops : List Loop
  printRep : Nat
  crc : Option (BitVec 16 × BitVec 32)
  streams : AMap Stream
  chains : AMap Chain
  pend : List Pending
  fenced : Bool
  deriving DecidableEq, Repr

/-- R125: the record of the last factor command's growth. -/
structure Growth where
  valid : Bool
  op : Nat
  variant : Bool
  tile : BitVec 32
  n : Nat
  gin : BitVec 32
  gseen : BitVec 32
  deriving DecidableEq, Repr

/-- R13: context states. -/
inductive RunState where
  | idle | reserved | running | sealing | frozen | halted
  deriving DecidableEq, Repr

/-- R13, R252, R256: why a context is frozen. -/
inductive Freeze where
  | preempt | debug
  deriving DecidableEq, Repr

/-- R15: a continuation record of a kernel, with the order in which it was posted. -/
structure Record where
  kernel : Nat
  resume : BitVec 32
  phase : BitVec 32
  aff : Affinity
  task : BitVec 10
  entry : Bool
  segno : BitVec 8
  cluster : Nat
  core : Nat
  args : List Word
  order : Nat
  deriving DecidableEq, Repr

/-- R237, R240: what ends a segment. -/
inductive CapKind where
  | proof
  | susp (r : Record)
  | done
  deriving DecidableEq, Repr

/-- R238: a captured proof: the context, the segment it begins, the cycle it issued in and its kind. -/
structure Capture where
  arch : Arch
  serial : Nat
  cycle : Nat
  kind : CapKind
  deriving DecidableEq, Repr

/-- R105: what an MMA or MGANG captures at issue. -/
structure MatJob where
  bank : Nat
  clr : Bool
  count : Nat
  mgeo : Word
  fmt : BitVec 32
  aring : Nat
  bring : Nat
  aDesc : Word
  bDesc : Word
  wbcfg : Word
  lo : BitVec 32
  hi : BitVec 32
  deriving DecidableEq, Repr

/-- R119: what a factor command captures at issue: opcode 0x76 to 0x79, its option bits, and the registers; `grown` is its
input maximum and largest magnitude so far once it has been interrupted (R131). -/
structure FacJob where
  op : Nat
  opts : BitVec 4
  tile : BitVec 32
  fgeo : Word
  frhs : Word
  fmt : BitVec 32
  pair : Word
  lo : BitVec 32
  hi : BitVec 32
  first : Nat
  perm : BitVec 1024
  grown : Option (Nat × Nat)
  deriving DecidableEq, Repr

/-- R70: an engine command as issued. -/
inductive CmdOp where
  | mma (j : MatJob)
  | mzero (bank : Nat)
  | mret (bank : Nat) (lsf : Bool) (layout : MLayout) (m n : Nat) (dst : BitVec 32) (pair : Word) (isInt : Bool)
  | gang (mask : BitVec 4) (j : MatJob) (pair : Word)
  | factor (j : FacJob)
  | cpy (pkt : BitVec 512) (addr : BitVec 32) (off : Word)
  | coll (pkt : BitVec 512) (addr : BitVec 32)
  | dpath (fn : Nat) (order : DOrder) (scope : Scope) (z : Bool) (desc : BitVec 256) (addr : BitVec 32) (va : Word)
  | wstrm (pkt : BitVec 512) (addr : BitVec 32) (wbcfg : Word)
  | strb (q : Nat)
  | stru (q : Nat)
  | lref (first count : Nat)
  | lqry (row : Nat) (dst : BitVec 32)
  | phint (access : HintAccess) (tier : HintTier) (va len : Word)
  | pmig (pkt : BitVec 512) (addr : BitVec 32) (pair : Word)
  | erht (ring : Nat) (val : BitVec 32)
  | fence (before after : BitVec 5) (scope : Scope) (order : FenceOrder)
  | trig
  | slide (inverse : Bool) (va : Word) (lo hi : BitVec 32)
  deriving DecidableEq, Repr

/-- R194: the agent on whose account an engine works: context, pickup of that context, kernel, task, phase, segment
and spawn index, the bundle that issued the command, and the context's near-store window. -/
structure Issuer where
  g : Nat
  gen : Nat
  kernel : Option Nat
  part : Nat
  task : BitVec 10
  phase : BitVec 32
  segno : BitVec 8
  spawn : Nat
  supv : Bool
  phased : Bool
  parcel : BitVec 32
  rep : Nat
  tick : Nat
  lo : BitVec 32
  hi : BitVec 32
  deriving DecidableEq, Repr

/-- R239: an entry of the gated buffer. A store lists near-store offsets and bytes, a push one unit of a stream and the
addresses of it that a handler's push has since written (R196). TRIG and SPAWN take no entry of the buffer's count and act at
the seal of their segment. -/
inductive GatedItem where
  | store (bytes : List (Nat × Byte))
  | push (q : Nat) (unit : Nat) (desc : BitVec 512) (data : VWord) (gone : List Nat)
  | cmd (op : CmdOp) (by_ : Issuer)
  | trig (by_ : Issuer)
  deriving DecidableEq, Repr

/-- R239: a gated item with its segment and the tick of its bundle. -/
structure Gated where
  seg : Nat
  tick : Nat
  item : GatedItem
  deriving DecidableEq, Repr

/-- R248: the entry record of a trap. Pending writes are kept for a cause without rewind; whether the next bundle
follows a FENCE of R200 is kept; trappc is as entry set it. -/
structure EntryRec where
  tick : Nat
  fmt : BitVec 32
  shadow : List (Nat × BitVec 32)
  rngctr : Word
  loops : List Loop
  printRep : Nat
  crc : Option (BitVec 16 × BitVec 32)
  pend : Option (List Pending)
  fenced : Bool
  trappc : BitVec 32
  deriving DecidableEq, Repr

/-- R141, R142, R200, R206: a proof captured at a stalled bundle that must seal before the bundle issues. -/
inductive Bracket where
  | slide | inverse | atomic | fence
  deriving DecidableEq, Repr

/-- R359: a context's arrival at a vigil. -/
structure Arrival where
  vid : BitVec 10
  mask : BitVec 8
  since : Nat
  complete : Bool
  deriving DecidableEq, Repr

/-- R137, R146, R148: a unit in a read stream's prefetch buffer: its bytes, or the cause its pop raises; the payload bytes
of its block in a DEC stream, and its lowest out-of-range address. -/
structure StreamUnit where
  data : VWord
  bad : Option Cause
  len : Nat
  spv : Option Nat
  deriving DecidableEq, Repr

/-- R13, R50 to R58: a context. `startSeg` names the SPAWN that claimed it: the spawner, its run and its segment (R23);
`reload` the factor command that its first bundle after a resume waits for (R131, R252); `waiting` the engine causes that were
pending when another cause was taken (R247); `aevtNew` the bits of AEVT that an event has set in this cycle (R302);
`preqHeld` says that the pre-emption request arose in a handler and is held until its ERET (R247). -/
structure Ctx where
  arch : Arch
  state : RunState
  freeze : Option Freeze
  kernel : Option Nat
  gen : Nat
  task : BitVec 10
  phase : BitVec 32
  segno : BitVec 8
  spawn : Nat
  parent : Option (Nat × Nat)
  splo : BitVec 32
  sphi : BitVec 32
  stklim : BitVec 32
  stkovf : Word
  startAt : Nat
  startSeg : Option (Nat × Nat × Nat)
  bankZero : Bool
  trapCause : Word
  dfcause : Word
  trappc : BitVec 32
  fbndl : BitVec 32
  fslot : BitVec 32
  faddr : Word
  proofpc : BitVec 32
  intrap : Bool
  entry : Option EntryRec
  fprog : BitVec 8
  fgrow : BitVec 32
  fperm : BitVec 1024
  fstat : BitVec 2
  fdone : Bool
  sqblock : AMap (BitVec 32)
  growth : Growth
  aevt : Word
  preq : Bool
  preqHeld : Bool
  gather : BitVec 4
  causes : List Cause
  waiting : List Cause
  aevtNew : BitVec 2
  captured : Option Capture
  unsealed : List Capture
  serial : Nat
  fresh : Bool
  gated : List Gated
  bracket : Option Bracket
  notice : Bool
  arrival : Option Arrival
  units : AMap (List StreamUnit)
  fetched : AMap Nat
  fetchOff : AMap Nat
  halt : Bool
  attach : Bool
  present : Bool
  bps : AMap (BitVec 33)
  bpDone : Bool
  step : Bool
  frozenAt : Nat
  reload : Option Nat
  deriving DecidableEq, Repr

/-- R243, R324: what gave a bank its kind, true for integer: the opening of a chain or an MZERO, with the context, the run and
the segment that a rewind takes it back with; without them it stands. -/
structure KindMark where
  owner : Option (Nat × Nat × Nat)
  isInt : Bool
  deriving DecidableEq, Repr

/-- R33, R57, R98, R344: what belongs to a core. `kinds` holds, for each bank, what gave it its kind, the latest first, down to
the latest that stands (R324), `appended` the slots that have been appended to each ring in this cycle (R103). -/
structure Core where
  prioB : Bool
  plates : AMap (BitVec 256)
  stencils : AMap (BitVec 28672)
  bnWrites : List (Nat × Nat × Nat × Nat × BitVec 28672)
  loaded : Option Nat
  erng : AMap Word
  erngNext : List (Nat × Word)
  head : AMap (BitVec 32)
  tail : AMap (BitVec 32)
  bank : AMap (BitVec 32)
  lsf : NSet
  gathered : AMap (BitVec 4)
  openRel : NSet
  held : AMap Nat
  kinds : AMap (List KindMark)
  pace : NSet
  appended : AMap Nat
  deriving DecidableEq, Repr

/-- R152: the state of a row group; AGE counts from the age tick `stamp`. -/
structure RowGroup where
  stamp : Nat
  cls : BitVec 3
  action : BitVec 2
  valid : Bool
  queued : Bool
  owner : BitVec 3
  owned : Bool
  okernel : Option Nat
  deriving DecidableEq, Repr

/-- R155, R156: a cluster's refresh engine. Its age ticks and service slots count from the cycle `since` of its reset. -/
structure Cluster where
  rows : AMap RowGroup
  band : Nat
  sensor : Int
  ages : Nat
  slots : Nat
  fifo : List Nat
  guards : Word
  share : Nat
  almanac : VWord
  since : Nat
  deriving DecidableEq, Repr

/-- R178: a TLB entry. -/
structure TlbEntry where
  part : Nat
  vbase : Nat
  size : Nat
  dev : Nat
  pbase : Nat
  writable : Bool
  user : Bool
  glob : Bool
  deriving DecidableEq, Repr

/-- R179: a side-logged write: the command it belongs to, its partition, the 256-byte block of its addresses, its bytes
(address, value, poison), and the page request it waits for. -/
structure SideEntry where
  cmd : Nat
  part : Nat
  block : Nat
  bytes : List (Nat × Byte × Bool)
  req : Nat
  deriving DecidableEq, Repr

/-- R210: a byte of a task's write log: where it lies, its value, and whether it carries poison (R193). -/
structure LogByte where
  dev : Nat
  pa : Nat
  byte : Byte
  poison : Bool
  deriving DecidableEq, Repr

/-- R210: a frame whose contents a migration has moved during a phase: where they are now, and where they were. -/
structure FrameMove where
  dev : Nat
  pa : Nat
  size : Nat
  oldDev : Nat
  old : Nat
  deriving DecidableEq, Repr

/-- R261: a page request and its answer. -/
structure PageReq where
  va : Word
  part : Nat
  unit : Nat
  kind : Nat
  write : Bool
  answer : Option Bool
  deriving DecidableEq, Repr

/-- R162, R178, R179: a copy unit. `due` lists the slots of the fault queue, with their requests, that have been answered and
whose replay waits for a debug step (R257). -/
structure CopyUnit where
  tlb : List TlbEntry
  side : List SideEntry
  due : List (Nat × PageReq)
  deriving DecidableEq, Repr

/-- R181: a byte that a command has made and not yet written: of an index entry or scale, or of its destination, and the
chunk that it belongs to. -/
structure OutByte where
  param : Bool
  chunk : Nat
  addr : Nat
  byte : Byte
  poison : Bool
  deriving DecidableEq, Repr

/-- R121, R133: what a factor command has loaded: the tile and right-hand side as codes, the scale factors, the
permutation, the largest magnitude seen, and its LSF and UFL. -/
structure Fac where
  t : List (List Nat)
  y : List (List Nat)
  tau : AMap Nat
  perm : List Nat
  seen : Nat
  lsf : Bool
  ufl : Bool
  deriving DecidableEq, Repr

/-- R59, R196: a released engine command: what it waits for at release, the units of work done, the page request that
holds it, its status so far, the flags it gathers, a gang's members and those that failed, the address denied to it
(R182), the cause and address it will report, the cycle from which it waits in a replay and its ordinal (R233), the
bytes of a payload read (R374) or the moves a held copy has made (R179), the job card read at release (R168), the
bytes that a held command has still to write and the input of its job card that it has already consumed, with its poison
(R181; no byte where an invalid row group held none, R158), and what a factor command has loaded, with its input maximum and
the step it is at (R131, R133). `due` lists the members of a gang that failed at its release and whose bank is still to be
zeroed in its order (R115, R116); `parked` marks a factor command that waits for the resume of its saved context (R131). `ord`
is also the cycle after which a weight-stream packet has reached its streamer. -/
structure Cmd where
  id : Nat
  by_ : Issuer
  op : CmdOp
  waits : NSet
  prog : Nat
  hold : Option Nat
  status : Nat
  flags : BitVec 4
  parts : List (Option MatJob)
  failed : BitVec 4
  denied : Option Word
  fail : Option (Nat × Word)
  since : Option Nat
  ord : Nat
  pos : Nat
  card : Option (BitVec 256)
  left : List OutByte
  taken : List (Option (Byte × Bool))
  work : Option (Fac × Nat)
  due : BitVec 4
  parked : Bool
  deriving DecidableEq, Repr

/-- R216, R231: a command that a queue has accepted or started: its number among those started, its sequence number
and opcode, when it was accepted and started, its 64 bytes, and the kernel or migration it started. -/
structure Started where
  n : Nat
  seq : BitVec 32
  op : Nat
  accT : Nat
  startT : Nat
  cycle : Nat
  slot : BitVec 512
  kernel : Option Nat
  cmd : Option Nat
  deriving DecidableEq, Repr

/-- R216: a command queue. -/
structure Queue where
  base : Word
  log2 : Nat
  prio : Nat
  priv : Bool
  head : BitVec 32
  tail : BitVec 32
  running : Bool
  expect : Option (BitVec 32)
  faulted : Bool
  accepted : Option Started
  started : List Started
  count : Nat
  progress : Nat
  logPtr : BitVec 32
  deriving DecidableEq, Repr

/-- R10, R221: a partition, with the queue of the last record picked up (R223) and the queue whose timer has expired
(R230). -/
structure Partition where
  clusters : BitVec 16
  groups : BitVec 16
  wdt : Nat
  queues : Word
  htbase : Word
  rtroot : Word
  save : Word
  lastPick : Nat
  drain : Option Nat
  deriving DecidableEq, Repr

/-- R219 to R225, R233: a kernel. `moves` lists the frames that have moved since the phase's snapshot, the latest first
(R210). -/
structure Kernel where
  queue : Nat
  seq : BitVec 32
  part : Nat
  args : List Word
  desc : VWord
  phase : BitVec 32
  committed : NSet
  triggered : NSet
  ended : Option Nat
  order : Nat
  prio : Nat
  snap : Memory
  snapPoison : NSet
  moves : List FrameMove
  logs : AMap (AMap LogByte)
  ordinals : AMap Nat
  recCount : Nat
  recStop : Bool
  used : NSet
  waitSince : Option Nat
  regions : List (Nat × Nat × Nat)
  deriving DecidableEq, Repr

/-- R146, R148: what the device keeps of a stream of a saved context: its descriptor and position, the payload bytes
before that, and of each unit in the prefetch buffer the payload bytes and the out-of-range address. -/
structure SavedStream where
  q : Nat
  desc : BitVec 512
  pos : Nat
  off : Nat
  units : List (Nat × Option Nat)
  deriving DecidableEq, Repr

/-- R228: a context saved to its slot, and what the device keeps outside the slot: the issue ticks of its causes and of
its pending writes (R247), with the out-of-range addresses of those (R137), the pending writes beyond the 80 of the slot
(log entry 72), and what it knows of its streams. `stale` says that prefetched units must be read again (R200), `fenced`
that the next bundle follows a FENCE of R200, `job` which factor command the slot records (R131). FSTAT is kept. -/
structure Saved where
  kernel : Nat
  gen : Nat
  order : Nat
  parent : Option (Nat × Nat)
  serial : Nat
  causeTicks : List Nat
  arrival : Option Arrival
  fstat : BitVec 2
  fdone : Bool
  pends : List (Nat × Option (BitVec 32))
  more : List Pending
  streams : List SavedStream
  stale : Bool
  fenced : Bool
  job : Option Nat
  deriving DecidableEq, Repr

/-- R186, R187: a forwarding entry of a migrated frame: the device where it stands, the device and the command whose
migration it is, the old frame, and where it is now. -/
structure Forward where
  home : Nat
  owner : Nat
  cmd : Nat
  old : Nat
  size : Nat
  dev : Nat
  pa : Nat
  deriving DecidableEq, Repr

/-- R186, R188: a migration window: the device where it is open, the device and the command whose migration it is, and the
frame whose writes are held. -/
structure Window where
  home : Nat
  owner : Nat
  cmd : Nat
  old : Nat
  size : Nat
  deriving DecidableEq, Repr

/-- R188: a parked write: its address in the frame that holds it up, its bytes and poisoned granules, the device that sent it,
and the address that it was sent to. -/
structure Parked where
  pa : Nat
  bytes : List Byte
  poison : NSet
  src : Nat
  sent : Nat
  deriving DecidableEq, Repr

/-- R190: a bank's rowhammer tracker: rows with counts, the spill count, and the rows refreshed last. -/
structure Tracker where
  rows : List (Nat × Nat)
  spill : Nat
  refreshed : List Nat
  deriving DecidableEq, Repr

/-- R191, R192: a channel: retired, or retraining. -/
structure Channel where
  retired : Bool
  training : Bool
  deriving DecidableEq, Repr

/-- R186, R193, R205, R262: what a message sent over Noleve Link asks or answers: a write, with the granules of it that
carry poison (by their number from the first); an atomic (operation code of R313, width, operand, compare); an answer (to a
write, without bytes and with the granules that it met poisoned); a shootdown of a page of a partition, with a tag; a report
that one is complete; and at the home of an old frame the window of a migration of so many bytes, its forwarding entry to
the new frame, and the end of either. -/
inductive LinkOp where
  | write (bytes : List Byte) (poison : NSet)
  | atomic (op z operand compare : Nat)
  | answer (bytes : List Byte) (poison : NSet)
  | shootdown (tag part : Nat) (range : Option (Nat × Nat))
  | report (tag : Nat)
  | window (tag size : Nat)
  | forward (tag size dev pa : Nat)
  | close (tag : Nat)
  | retire (tag : Nat)
  deriving DecidableEq, Repr
/-- R262: a message sent over Noleve Link: to a device, about an address there. -/
structure LinkMsg where
  dev : Nat
  pa : Nat
  op : LinkOp
  deriving DecidableEq, Repr

/-- What the bundle being issued has come to so far: nothing, a stall, or a synchronous cause. -/
inductive Verdict where
  | ok
  | stall
  | raised (c : Cause)
  deriving DecidableEq, Repr

/-- The bundle being issued: its parcel, the parcels it spans, its PRINT repetition and count, its words, and what its
slots have decided so far. -/
structure Issue where
  parcel : BitVec 32
  size : Nat
  rep : Nat
  reps : Nat
  words : List SlotWord
  verdict : Verdict
  target : Option (BitVec 32)
  newLoop : Option Loop
  skip : Bool
  direct : List (Nat × Byte)
  pops : NSet
  after : Option Cause
  want : Option Bracket
  atomic : Bool
  eret : Bool
  opened : Bool
  ends : Option CapKind
  deriving DecidableEq, Repr

/-- R216 to R231: the command engine. `passed` lists the queues whose turn came while their LAUNCH had to wait, and that
have kept it (R222). `lost` lists the runs of spawners of which a debugger has released a spawned context,
which then never ends (R20, R249). -/
structure Engine where
  queues : AMap Queue
  parts : AMap Partition
  kernels : AMap Kernel
  pool : List Record
  saved : AMap Saved
  nextKernel : Nat
  nextOrder : Nat
  nextGen : Nat
  rrStart : AMap Nat
  passed : List Nat
  lost : List (Nat × Nat)
  jcfg : Word
  jseq : Nat
  deriving DecidableEq, Repr

/-- R258 to R270: the edges of the device. `windows` and `forwards` hold those that stand here, and those that this
device's migrations have at another home (R186). `park` holds the writes that wait for a window (R188). `shots` lists the
shootdowns that other devices have not yet reported complete (R178, R186): the migration that asked, and the device. -/
structure Edge where
  part : BitVec 16
  dev : Nat
  clusters : BitVec 12
  frames : Nat
  hostFrames : Nat
  almanac : VWord
  domain : NSet
  pwrlim : BitVec 16
  pstate : Nat
  hbmrh : Word
  ltsg : AMap Word
  ltsr : AMap Nat
  fq : AMap PageReq
  fqRead : Nat
  fqWrite : Nat
  forwards : List Forward
  windows : List Window
  park : List Parked
  link : List LinkMsg
  shots : List (Nat × Nat)
  hints : List (HintAccess × HintTier × Word × Word)
  hostRead : List Byte
  trackers : AMap Tracker
  channels : AMap Channel
  boot : Nat
  locked : Bool
  versions : AMap (Option (Nat × Nat))
  measured : BitVec 512
  quote : Option (BitVec 1056)
  deriving DecidableEq, Repr

/-- The machine. `poison` lists the granules that cannot be read, `flawed` those among them that carry an ECC error and no
poison mark (R129, R189), `deferred` the granules written while a channel of their group retrains (R192). `late` holds what the
bundles of a core's two contexts have written at issue in this cycle, until both have had their turn (R12). -/
structure State where
  cycle : Nat
  turn : Nat
  busy : List Nat
  late : List (Nat × GatedItem)
  cur : Nat
  slot : Nat
  iss : Issue
  ctxs : AMap Ctx
  cores : AMap Core
  clusters : AMap Cluster
  units : AMap CopyUnit
  mem : Memory
  poison : NSet
  flawed : NSet
  deferred : NSet
  cmds : List Cmd
  nextCmd : Nat
  ce : Engine
  edge : Edge
  inbox : List (Nat × Instr)
  choice : Nat
  deriving DecidableEq, Repr

/-- R17, R57: the captured part of a context before any pickup; FMT as R60 gives it at core reset, the rest log entry
3. -/
def Arch.reset : Arch where
  sreg := []
  vreg := []
  preg := []
  pc := 0
  tick := 0
  fmt := 0xC000
  shadow := []
  rngkey := 0
  rngctr := 0
  tvec := 0
  tstk := 0
  vgtmo := 0
  flags := 0
  spvio := 0
  stktop := 0
  stkbase := 0
  depth := 0
  mgeo := 0
  mlim := 0xFFFFFFFF
  mgcfg := 0
  wbcfg := 0
  fgeo := 0
  frhs := 0
  loops := []
  printRep := 0
  crc := none
  streams := []
  chains := []
  pend := []
  fenced := false

/-- R17, R57: FPERM as the identity: byte j of the permutation is j. -/
def fpermIdentity : BitVec 1024 :=
  BitVec.ofNat 1024 ((List.range 128).foldl (fun a j => a + j * 2 ^ (8 * j)) 0)

/-- R125: the cleared growth record. -/
def Growth.cleared : Growth := ⟨false, 0, false, 0, 0, 0, 0⟩

/-- R13, R230 step 4: a context after core reset (log entry 3 for the values the spec does not give). -/
def Ctx.reset : Ctx where
  arch := Arch.reset
  state := .idle
  freeze := none
  kernel := none
  gen := 0
  task := 0
  phase := 0
  segno := 0
  spawn := 0
  parent := none
  splo := 0
  sphi := 0
  stklim := 0
  stkovf := 0
  startAt := 0
  startSeg := none
  bankZero := false
  trapCause := 0
  dfcause := 0
  trappc := 0
  fbndl := 0
  fslot := 0
  faddr := 0
  proofpc := 0
  intrap := false
  entry := none
  fprog := 0
  fgrow := 0
  fperm := fpermIdentity
  fstat := 0
  fdone := false
  sqblock := []
  growth := Growth.cleared
  aevt := 0
  preq := false
  preqHeld := false
  gather := 0
  causes := []
  waiting := []
  aevtNew := 0
  captured := none
  unsealed := []
  serial := 0
  fresh := false
  gated := []
  bracket := none
  notice := false
  arrival := none
  units := []
  fetched := []
  fetchOff := []
  halt := false
  attach := false
  present := false
  bps := []
  bpDone := false
  step := false
  frozenAt := 0
  reload := none

/-- R11, R230 step 4: a core after core reset. -/
def Core.reset : Core where
  prioB := false
  plates := []
  stencils := []
  bnWrites := []
  loaded := none
  erng := []
  erngNext := []
  head := []
  tail := []
  bank := []
  lsf := []
  gathered := []
  openRel := []
  held := []
  kinds := []
  pace := []
  appended := []

/-- R152: a row group after cluster reset. -/
def RowGroup.reset : RowGroup := ⟨0, 0, 0, false, false, 0, false, none⟩

/-- R154, log entry 1: an almanac that holds each class's budget in every band, 0xFFFF for LC6 and LC7. -/
def almanacReset : VWord :=
  BitVec.ofNat 2048 (((List.range 16).flatMap fun b =>
    [63, 250, 1000, 4000, 15625, 62500, 65535, 65535].zipIdx.map fun p => (p.1 : Nat) * 2 ^ (128 * b + 16 * p.2)).foldl
      (· + ·) 0)

/-- R155, R156, R268 step 4: a cluster after cluster reset. -/
def Cluster.reset : Cluster where
  rows := []
  band := 0
  sensor := -40
  ages := 0
  slots := 0
  fifo := []
  guards := 0
  share := 4
  almanac := almanacReset
  since := 0

/-- R178: a copy unit after reset. -/
def CopyUnit.reset : CopyUnit := ⟨[], [], []⟩

/-- R216: a queue after device reset: not set up, STOPPED, expecting sequence number 1. -/
def Queue.reset : Queue where
  base := 0
  log2 := 0
  prio := 0
  priv := false
  head := 0
  tail := 0
  running := false
  expect := some 1
  faulted := false
  accepted := none
  started := []
  count := 0
  progress := 0
  logPtr := 0

/-- No bundle in issue. -/
def Issue.reset : Issue where
  parcel := 0
  size := 17
  rep := 0
  reps := 1
  words := []
  verdict := .ok
  target := none
  newLoop := none
  skip := false
  direct := []
  pops := []
  after := none
  want := none
  atomic := false
  eret := false
  opened := false
  ends := none

/-- R216, R231: the command engine after device reset. -/
def Engine.reset : Engine where
  queues := []
  parts := []
  kernels := []
  pool := []
  saved := []
  nextKernel := 0
  nextOrder := 0
  nextGen := 1
  rrStart := []
  passed := []
  lost := []
  jcfg := 0
  jseq := 1

/-- R260, R268: the edges after a cold start, with the configuration record of log entry 1. -/
def Edge.reset : Edge where
  part := 0x4821
  dev := 0
  clusters := 0xFFF
  frames := 228880
  hostFrames := 1048576
  almanac := almanacReset
  domain := []
  pwrlim := 2400
  pstate := 0
  hbmrh := 0x44000
  ltsg := []
  ltsr := []
  fq := []
  fqRead := 0
  fqWrite := 0
  forwards := []
  windows := []
  park := []
  link := []
  shots := []
  hints := []
  hostRead := []
  trackers := []
  channels := []
  boot := 5
  locked := false
  versions := []
  measured := 0
  quote := none

/-- The machine right after reset: every queue STOPPED, every context IDLE, memory with nothing listed. -/
def State.reset : State where
  cycle := 0
  turn := 0
  busy := []
  late := []
  cur := 0
  slot := 0
  iss := Issue.reset
  ctxs := []
  cores := []
  clusters := []
  units := []
  mem := []
  poison := []
  flawed := []
  deferred := []
  cmds := []
  nextCmd := 0
  ce := Engine.reset
  edge := Edge.reset
  inbox := []
  choice := 0

end Sys2Proof.Machine
end

