-- ==== Sys2Proof/Machine/Ops.lean ====
section
/-!
DEFINITION. The named operations over the state: access to its parts, memory, row groups and poison, the journal,
landing, captures and rewinds, taking an exception and returning from one.
-/

namespace Sys2Proof.Machine

/-- What a meaning answers. -/
abbrev Res := Host.Outcome State Fault Refusal

/-! Position of a context: g = 8 * cluster + 2 * core + x (R9, R219). -/

/-- The core of a context, 0 to 47. -/
def coreOf (g : Nat) : Nat := g / 2
/-- The cluster of a context. -/
def clusterOf (g : Nat) : Nat := g / 8
/-- The other context of the core. -/
def sibling (g : Nat) : Nat := if g % 2 = 0 then g + 1 else g - 1
/-- The accumulator bank that belongs to a context (R109). -/
def ownBank (g : Nat) : Nat := g % 2

/-- R13: a context; one never touched is as core reset leaves it. -/
def State.ctx (s : State) (g : Nat) : Ctx := AMap.get Ctx.reset s.ctxs g
/-- Replaces a context. -/
def State.setCtx (s : State) (g : Nat) (c : Ctx) : State := { s with ctxs := AMap.put s.ctxs g c }
/-- Changes a context. -/
def State.modCtx (s : State) (g : Nat) (f : Ctx → Ctx) : State := s.setCtx g (f (s.ctx g))
/-- Changes the captured part of a context. -/
def State.modArch (s : State) (g : Nat) (f : Arch → Arch) : State :=
  s.modCtx g fun c => { c with arch := f c.arch }
/-- A core. -/
def State.core (s : State) (c : Nat) : Core := AMap.get Core.reset s.cores c
/-- Changes a core. -/
def State.modCore (s : State) (c : Nat) (f : Core → Core) : State :=
  { s with cores := AMap.put s.cores c (f (s.core c)) }
/-- A cluster. -/
def State.cluster (s : State) (c : Nat) : Cluster := AMap.get Cluster.reset s.clusters c
/-- Changes a cluster. -/
def State.modCluster (s : State) (c : Nat) (f : Cluster → Cluster) : State :=
  { s with clusters := AMap.put s.clusters c (f (s.cluster c)) }
/-- A copy unit, by its core (R162). -/
def State.unit (s : State) (c : Nat) : CopyUnit := AMap.get CopyUnit.reset s.units c
/-- Changes a copy unit. -/
def State.modUnit (s : State) (c : Nat) (f : CopyUnit → CopyUnit) : State :=
  { s with units := AMap.put s.units c (f (s.unit c)) }
/-- A queue. -/
def State.queue (s : State) (q : Nat) : Queue := AMap.get Queue.reset s.ce.queues q
/-- Changes a queue. -/
def State.modQueue (s : State) (q : Nat) (f : Queue → Queue) : State :=
  { s with ce := { s.ce with queues := AMap.put s.ce.queues q (f (s.queue q)) } }
/-- A kernel that has started. -/
def State.kernel (s : State) (k : Nat) : Option Kernel := AMap.find s.ce.kernels k
/-- Changes a kernel. -/
def State.modKernel (s : State) (k : Nat) (f : Kernel → Kernel) : State :=
  match s.kernel k with
  | none => s
  | some x => { s with ce := { s.ce with kernels := AMap.put s.ce.kernels k (f x) } }
/-- Changes the issue-scope record. -/
def State.modIss (s : State) (f : Issue → Issue) : State := { s with iss := f s.iss }
/-- The context that executes. -/
def State.me (s : State) : Ctx := s.ctx s.cur
/-- A value of the free choice sequence (log entry 5) and the state with the sequence advanced. -/
def State.choose (s : State) : Nat × State := (Config.pick s.choice, { s with choice := s.choice + 1 })

/-- Device time in ns (R4): one cycle is 1/2.1 ns. The spec gives no rounding to whole ns; the model rounds down (log entry
52). -/
def State.timeNs (s : State) : Nat := s.cycle * 10 / 21

/-! Little-endian bytes (R6). -/

/-- The n low bytes of a number. -/
def leBytes : Nat → Nat → List Byte
  | 0, _ => []
  | n + 1, v => BitVec.ofNat 8 v :: leBytes n (v / 256)
/-- The number that bytes hold. -/
def leNat : List Byte → Nat
  | [] => 0
  | b :: t => b.toNat + 256 * leNat t
/-- A 32-bit field of a packet or descriptor, by its byte offset. -/
def u32At {n : Nat} (p : BitVec n) (off : Nat) : BitVec 32 := p.extractLsb' (8 * off) 32
/-- A 64-bit field. -/
def u64At {n : Nat} (p : BitVec n) (off : Nat) : Word := p.extractLsb' (8 * off) 64
/-- A 16-bit field, as a number. -/
def u16At {n : Nat} (p : BitVec n) (off : Nat) : Nat := (p.extractLsb' (8 * off) 16).toNat
/-- A byte, as a number. -/
def u8At {n : Nat} (p : BitVec n) (off : Nat) : Nat := (p.extractLsb' (8 * off) 8).toNat
/-- Bits hi..lo of a register as a number. -/
def fld {n : Nat} (v : BitVec n) (hi lo : Nat) : Nat := (v.extractLsb' lo (hi + 1 - lo)).toNat

/-! Keys of the one byte memory. -/

/-- R135: near store of a core. -/
def nearKey (core off : Nat) : Nat := core * 0x80000 + off
/-- R135: LTS of a cluster. -/
def ltsKey (cl off : Nat) : Nat := 0x10000000 + cl * 0x4000000 + off
/-- R104: weight buffer of a core. -/
def wbufKey (core off : Nat) : Nat := 0x100000000 + core * 0x20000 + off
/-- R170: a physical address of this device, HBM or host tier. -/
def physKey (pa : Nat) : Nat :=
  if pa < 0x8000000000000 then 0x100000000000 + pa else 0x800000000000 + (pa - 0x8000000000000)
/-- R170: whether a physical address lies in an installed frame. -/
def State.mapped (s : State) (pa : Nat) : Bool :=
  if pa < 0x8000000000000 then pa / 0x200000 < s.edge.frames
  else pa < 0x10000000000000 && (pa - 0x8000000000000) / 0x200000 < s.edge.hostFrames
/-- R170: n bytes from a physical address all lie in installed frames. -/
def State.mappedRange (s : State) (pa n : Nat) : Bool :=
  n == 0 || (s.mapped pa && s.mapped (pa + n - 1)
    && (pa < 0x8000000000000) == (pa + n - 1 < 0x8000000000000))
/-- n bytes from a key. -/
def readKeys (m : Memory) (key n : Nat) : List Byte := (List.range n).map fun i => m.read (key + i)
/-- The number that n bytes from a key hold. -/
def readNat (m : Memory) (key n : Nat) : Nat := leNat (readKeys m key n)
/-- R193: a key's granule is poisoned. -/
def State.poisoned (s : State) (key : Nat) : Bool := s.poison.contains (key / 64)
/-- R193: some granule of n bytes from a key is poisoned. -/
def State.poisonedRange (s : State) (key n : Nat) : Bool :=
  s.poison.any fun g => g * 64 < key + n && key < g * 64 + 64

/-- R193: the cells hold every byte of a granule. -/
def coversGranule (cells : List (Nat × Byte)) (g : Nat) : Bool :=
  (List.range 64).all fun i => cells.any fun c => c.1 == g * 64 + i
/-- R193: the cells hold some byte of a granule. -/
def touchesGranule (cells : List (Nat × Byte)) (g : Nat) : Bool := cells.any fun c => c.1 / 64 == g

/-- R189: the parity group of a key of HBM: frame f lies in group f mod 16. -/
def groupOf (key : Nat) : Option Nat :=
  if 0x100000000000 ≤ key ∧ key < 0x800000000000 then some ((key - 0x100000000000) / 0x200000 % 16) else none
/-- R189: the parity group of a channel (log entry 53: 16 channels in a row form a group). -/
def channelGroup (ch : Nat) : Nat := ch / 16
/-- R191, R192: some channel of a group is as asked. -/
def Edge.groupHas (e : Edge) (grp : Nat) (f : Channel → Bool) : Bool :=
  e.channels.any fun p => channelGroup p.1 == grp && f p.2
/-- R192: the deferred bitmaps after a write: granules of groups with a channel in training. -/
def State.deferCells (s : State) (cells : List (Nat × Byte)) : NSet :=
  if s.edge.channels.any fun p => p.2.training then
    cells.foldl (fun l c => match groupOf c.1 with
      | some grp => if s.edge.groupHas grp Channel.training then NSet.add l (c.1 / 64) else l
      | none => l) s.deferred
  else s.deferred

/-- Writes cells in order. A granule written whole loses its poison (R193); a write to a group in training sets the bits of
its deferred bitmap (R192). -/
def State.writeCells (s : State) (cells : List (Nat × Byte)) : State :=
  { s with
    mem := cells.foldl (fun m c => m.write c.1 c.2) s.mem
    poison := s.poison.filter fun g => !coversGranule cells g
    flawed := s.flawed.filter fun g => !coversGranule cells g
    deferred := s.deferCells cells }

/-- R193: granules that the cells touch in part and that are poisoned. -/
def State.poisonHits (s : State) (cells : List (Nat × Byte)) : List Nat :=
  s.poison.filter fun g => touchesGranule cells g && !coversGranule cells g

/-- Marks granules poisoned. -/
def State.addPoison (s : State) (gs : List Nat) : State := { s with
  poison := gs.foldl NSet.add s.poison
  flawed := gs.foldl NSet.del s.flawed }
/-- R129, R189: the granule of a key has an uncorrectable error and no poison mark. -/
def State.isFlawed (s : State) (key : Nat) : Bool := s.poisoned key && s.flawed.contains (key / 64)

/-! Row groups of the lifetime store (R152, R153). -/

/-- R152: a row group of a cluster. -/
def State.row (s : State) (cl r : Nat) : RowGroup := AMap.get RowGroup.reset (s.cluster cl).rows r
/-- Changes a row group. -/
def State.modRow (s : State) (cl r : Nat) (f : RowGroup → RowGroup) : State :=
  s.modCluster cl fun c => { c with rows := AMap.put c.rows r (f (s.row cl r)) }
/-- R152: AGE, in age ticks since the last write or refresh, saturating. -/
def State.age (s : State) (cl r : Nat) : Nat := min 0xFFFF ((s.cluster cl).ages - (s.row cl r).stamp)
/-- The row groups of a cluster that cells of the memory lie in. -/
def ltsRows (cells : List (Nat × Byte)) : List (Nat × Nat) :=
  (cells.filterMap fun c =>
    if 0x10000000 ≤ c.1 ∧ c.1 < 0x10000000 + 12 * 0x4000000 then
      some ((c.1 - 0x10000000) / 0x4000000, (c.1 - 0x10000000) % 0x4000000 / 1024)
    else none).eraseDups
/-- R153: a write of a row group by a context (none: the command engine), with the class and action it sets. -/
def State.touchRow (s : State) (cl r : Nat) (owner : Option (Nat × Option Nat)) (ca : Option (Nat × Nat)) : State :=
  let old := s.row cl r
  let s := if old.valid then s else { s with
    mem := s.mem.filter fun c => !(ltsKey cl (1024 * r) ≤ c.1 && c.1 < ltsKey cl (1024 * r) + 1024)
    poison := s.poison.filter fun i => i / 16 != ltsKey cl (1024 * r) / 1024 }
  (s.modCluster cl fun c => { c with fifo := c.fifo.filter (· != r) }).modRow cl r fun x => { x with
    stamp := (s.cluster cl).ages
    valid := true
    queued := false
    owner := BitVec.ofNat 3 ((owner.map Prod.fst).getD 0 % 8)
    owned := owner.isSome
    okernel := (owner.bind Prod.snd)
    cls := (ca.map fun p => BitVec.ofNat 3 p.1).getD x.cls
    action := (ca.map fun p => BitVec.ofNat 2 p.2).getD x.action }

/-- R153: the row groups that cells lie in are written. -/
def State.touchRows (s : State) (cells : List (Nat × Byte)) (owner : Option (Nat × Option Nat))
    (ca : Option (Nat × Nat)) : State := (ltsRows cells).foldl (fun s p => s.touchRow p.1 p.2 owner ca) s
/-- R153, R193: writes cells wherever they lie, with the row groups' own bookkeeping. -/
def State.store (s : State) (cells : List (Nat × Byte)) (owner : Option (Nat × Option Nat))
    (ca : Option (Nat × Nat)) : State := (s.touchRows cells owner ca).writeCells cells

/-! The journal (R231). -/

/-- R231: one entry. -/
structure JournalEntry where
  seq : BitVec 32 := 0
  queue : Nat := 0xFF
  kind : Nat
  state : Nat
  cause : Nat := 0
  accT : Nat := 0
  startT : Nat := 0
  detail0 : Word := 0
  detail1 : Word := 0
  ctxid : BitVec 32 := 0

/-- R267: the interfaces in the order of R267's table. -/
inductive Interface where
  | command | journal | record | window | link
  deriving DecidableEq, Repr
/-- R267: the number of an interface. -/
def Interface.index : Interface → Nat
  | .command => 0 | .journal => 1 | .record => 2 | .window => 3 | .link => 4
/-- R267: an interface whose partners have found no common major stays closed. -/
def Edge.closed (e : Edge) (i : Interface) : Bool := AMap.find e.versions i.index == some none

/-- R231: appends an entry, numbered in sequence; nothing is written while the journal is off or its interface closed
(R267). The spec does not say which slot of the ring an entry takes, after a write of JCFG either: the model puts entry n
at slot n - 1 modulo the ring's size (log entry 77). -/
def State.journal (s : State) (e : JournalEntry) : State :=
  let n := s.ce.jseq
  let s1 := { s with ce := { s.ce with jseq := n + 1 } }
  let j := fld s.ce.jcfg 4 0
  if j = 0 ∨ s.edge.closed .journal = true then s1 else
    let base := fld s.ce.jcfg 51 12 * 4096 + (n - 1) % 2 ^ j * 64
    let bytes := leBytes 8 n ++ leBytes 4 e.seq.toNat ++ leBytes 1 e.queue ++ leBytes 1 e.kind ++ leBytes 1 e.state
      ++ leBytes 1 e.cause ++ leBytes 8 e.accT ++ leBytes 8 e.startT ++ leBytes 8 s.timeNs ++ leBytes 8 e.detail0.toNat
      ++ leBytes 8 e.detail1.toNat ++ leBytes 4 e.ctxid.toNat ++ leBytes 4 0
    s1.writeCells ((bytes.zipIdx).map fun p => (physKey base + p.2, p.1))

/-- R193, R231: the physical address of a key of HBM or the host tier. -/
def keyPhys (key : Nat) : Option Nat :=
  if 0x800000000000 ≤ key then some (key - 0x800000000000 + 0x8000000000000)
  else if 0x100000000000 ≤ key then some (key - 0x100000000000) else none

/-- R54: CTXID of a context. -/
def State.ctxid (s : State) (g : Nat) : Word :=
  BitVec.ofNat 64 (s.edge.dev * 0x10000 + clusterOf g * 0x100 + coreOf g % 4 * 0x10 + g % 2)
/-- R135: the core and the cluster's scratch address of a key of near store, or of LTS with the cluster's first core. -/
def keyScratch (key : Nat) : Option (Nat × Nat) :=
  if key < 48 * 0x80000 then some (key / 0x80000, 0x1000000 + key / 0x80000 % 4 * 0x80000 + key % 0x80000)
  else if 0x10000000 ≤ key ∧ key < 0x10000000 + 12 * 0x4000000 then
    some ((key - 0x10000000) / 0x4000000 * 4, 0x10000000 + (key - 0x10000000) % 0x4000000)
  else none
/-- R193, R231: the journal names a poisoned granule that a partial write met. The spec does not say how an entry names one of
near store or LTS: the model gives the cluster's scratch address, and the CTXID of context A of the core, for LTS of the
cluster's first core (log entry 40). -/
def State.journalGranule (s : State) (g : Nat) : State :=
  match keyPhys (g * 64), keyScratch (g * 64) with
  | some pa, _ => s.journal { kind := 0x82, state := 5, detail0 := BitVec.ofNat 64 pa }
  | none, some (core, a) => s.journal {
      kind := 0x82, state := 5, detail0 := BitVec.ofNat 64 a, ctxid := (s.ctxid (2 * core)).truncate 32 }
  | none, none => s
/-- R193: journals each poisoned granule that a partial write met. -/
def State.journalPoison (s : State) (gs : List Nat) : State := gs.foldl State.journalGranule s
/-- R193: writes cells in order. A granule that cannot be read and is written in part is poisoned, with the new bytes merged,
and named in the journal. -/
def State.mergeCells (s : State) (cells : List (Nat × Byte)) : State :=
  ((s.writeCells cells).addPoison (s.poisonHits cells)).journalPoison (s.poisonHits cells)
/-- R153, R193: the same wherever the cells lie, with the row groups' own bookkeeping. -/
def State.mergeStore (s : State) (cells : List (Nat × Byte)) (owner : Option (Nat × Option Nat))
    (ca : Option (Nat × Nat)) : State := (s.touchRows cells owner ca).mergeCells cells

/-! Near store as a context sees it (R136 to R139). -/

/-- R137: a byte is in range for a context. -/
def Ctx.inWindow (c : Ctx) (a : Nat) : Bool := c.splo.toNat ≤ a && a ≤ c.sphi.toNat
/-- R138: n bytes lie wholly in the window. -/
def Ctx.inWindowRange (c : Ctx) (a n : Nat) : Bool := c.inWindow a && c.inWindow (a + n - 1)
/-- R139, R43: the newest byte an earlier bundle's gated store holds for an address. -/
def gatedByte (gs : List Gated) (now a : Nat) : Option Byte :=
  gs.foldl (fun r e => match e.item with
    | .store bs => if e.tick < now then (match bs.find? fun p => p.1 == a with
        | some p => some p.2
        | none => r) else r
    | _ => r) none
/-- R137, R139: the byte that a context reads at a near-store address; zero out of range. -/
def State.nearByte (s : State) (g a : Nat) : Byte :=
  let c := s.ctx g
  if c.inWindow a then (gatedByte c.gated c.arch.tick a).getD (s.mem.read (nearKey (coreOf g) a)) else 0
/-- n bytes that a context reads. -/
def State.nearBytes (s : State) (g a n : Nat) : List Byte := (List.range n).map fun i => s.nearByte g (a + i)
/-- The number that n bytes hold. -/
def State.nearNat (s : State) (g a n : Nat) : Nat := leNat (s.nearBytes g a n)
/-- R193: a granule of near store that a load meets poisoned, unless the context's own earlier store covers it whole. -/
def State.nearPoison (s : State) (g : Nat) (addrs : List Nat) : Option Nat :=
  let c := s.ctx g
  addrs.find? fun a => c.inWindow a && s.poisoned (nearKey (coreOf g) a)
    && !(c.gated.any fun e => match e.item with
      | .store bs => e.tick < c.arch.tick && (List.range 64).all fun i => bs.any fun p => p.1 == a / 64 * 64 + i
      | _ => false)

/-! Engine accesses to scratch (R135, R138). -/

/-- R135, R138: the key of a scratch address for a command of context g whose window is lo to hi. -/
def scratchKey (g : Nat) (lo hi : Nat) (a : Nat) : Option Nat :=
  if a < 0x80000 then (if lo ≤ a ∧ a ≤ hi then some (nearKey (coreOf g) a) else none)
  else if 0x1000000 ≤ a ∧ a < 0x1200000 then some (nearKey (clusterOf g * 4) (a - 0x1000000))
  else if 0x10000000 ≤ a ∧ a < 0x14000000 then some (ltsKey (clusterOf g) (a - 0x10000000))
  else none
/-- R138: completion words in near store are not subject to the window. -/
def completionKey (g a : Nat) : Option Nat := scratchKey g 0 0x7FFFF a
/-- R158: the row group of a scratch address is invalid. -/
def State.rowBad (s : State) (g a : Nat) : Bool :=
  0x10000000 ≤ a && a < 0x14000000 && !(s.row (clusterOf g) ((a - 0x10000000) / 1024)).valid

/-! Landing (R40 to R42, R56). -/

/-- Spreads a byte mask over the bits of a vector. -/
def byteMask (m : PWord) : VWord :=
  (List.range 256).foldl (fun a j => if m.getLsbD j then a ||| ((0xFF : VWord) <<< (8 * j)) else a) 0
/-- Takes masked bits from a new value. -/
def merge {n : Nat} (old new mask : BitVec n) : BitVec n := (old &&& ~~~mask) ||| (new &&& mask)

/-- R50, R41: reads a scalar; s0 is zero. -/
def Arch.s (a : Arch) (r : Nat) : Word := if r = 0 then 0 else AMap.get 0 a.sreg r
/-- R50: reads a vector register. -/
def Arch.v (a : Arch) (r : Nat) : VWord := AMap.get 0 a.vreg r
/-- R50, R41: reads a predicate; p0 is all ones. -/
def Arch.p (a : Arch) (r : Nat) : PWord := if r = 0 then BitVec.allOnes 256 else AMap.get 0 a.preg r
/-- R50, R41: writes a scalar; a write to s0 is discarded. -/
def Arch.setS (a : Arch) (r : Nat) (v : Word) : Arch := if r = 0 then a else { a with sreg := AMap.put a.sreg r v }
/-- R50: writes a vector register. -/
def Arch.setV (a : Arch) (r : Nat) (v : VWord) : Arch := { a with vreg := AMap.put a.vreg r v }
/-- R50, R41: writes a predicate; a write to p0 is discarded. -/
def Arch.setP (a : Arch) (r : Nat) (v : PWord) : Arch := if r = 0 then a else { a with preg := AMap.put a.preg r v }

/-- R53, R54: the effect of a CWR's landing; RO registers and fields are left (R41), W1C fields cleared, but those bits of
AEVT that an event has set in this cycle (R302). -/
def Ctx.writeControl (c : Ctx) (r : Nat) (v : Word) : Ctx :=
  match r with
  | 0x002 => { c with trappc := v.truncate 32 }
  | 0x006 => { c with arch := { c.arch with tvec := v.truncate 32 } }
  | 0x007 => { c with arch := { c.arch with tstk := v.truncate 32 } }
  | 0x012 => { c with arch := { c.arch with rngkey := v } }
  | 0x013 => { c with arch := { c.arch with rngctr := v } }
  | 0x017 => { c with arch := { c.arch with stktop := v.truncate 32 } }
  | 0x01E =>
    let f := c.arch.flags &&& ~~~(v.truncate 4)
    { c with arch := { c.arch with flags := f, spvio := if v.getLsbD 3 then 0 else c.arch.spvio } }
  | 0x020 => { c with arch := { c.arch with vgtmo := v.truncate 32 } }
  | 0x022 => { c with aevt := c.aevt &&& ~~~(v &&& ~~~(c.aevtNew.zeroExtend 64) &&& 3) }
  | _ => c

/-- R137, R302: the out-of-range address of the earliest access whose FLAGS.SPV is still to be set. -/
def firstSpv (ps : List Pending) : BitVec 32 :=
  ((ps.foldl (fun r p => match p.spv, r with
    | none, r => r
    | some _, none => some p
    | some _, some q => if p.issued < q.issued ∨ (p.issued = q.issued ∧ p.slot < q.slot) then some p else some q)
    (none : Option Pending)).bind Pending.spv).getD 0
/-- R41, R255: one pending write lands. -/
def Ctx.landOne (c : Ctx) (p : Pending) : Ctx :=
  match p.file with
  | .scalar =>
    let v := merge (c.arch.s p.num) (p.val.truncate 64) (p.mask.truncate 64)
    { c with arch := c.arch.setS p.num v }
  | .vector => { c with arch := c.arch.setV p.num (merge (c.arch.v p.num) p.val (byteMask p.mask)) }
  | .predicate => { c with arch := c.arch.setP p.num (merge (c.arch.p p.num) (p.val.truncate 256) p.mask) }
  | .control => c.writeControl p.num (p.val.truncate 64)
  | .flagSet => { c with arch := { c.arch with
      flags := c.arch.flags ||| p.val.truncate 4 } }

/-- R42, R59: the pending writes of a context, those that its trap entry set aside among them, change; each has a number of
its own, and the free choices they may take are used up. -/
def State.mapPending (s : State) (g : Nat) (f : Nat → Pending → Pending) : State :=
  let c := s.ctx g
  let take (n : Nat) (l : List Pending) : List Pending := l.zipIdx.map fun p => f (n + p.2) p.1
  let aside := (c.entry.bind EntryRec.pend).getD []
  { s.modCtx g fun x => { x with
      arch := { x.arch with pend := take s.choice x.arch.pend }
      entry := x.entry.map fun e => { e with pend := e.pend.map (take (s.choice + c.arch.pend.length)) } } with
    choice := s.choice + c.arch.pend.length + aside.length }

/-- R302: the write clears FLAGS.SPV, and SPVIO with it. -/
def Pending.clearsSpv (p : Pending) : Bool := p.file == .control && p.num == 0x01E && p.val.getLsbD 3
/-- R41, R302: pending writes land in the order given. A clear of FLAGS.SPV leaves SPVIO with the access that comes first
among those whose SPV is still to be set. -/
def Ctx.landAll (c : Ctx) : List Pending → Ctx
  | [] => c
  | p :: t =>
    let c1 := c.landOne p
    (if p.clearsSpv then { c1 with arch := { c1.arch with spvio := firstSpv (t ++ c1.arch.pend) } } else c1).landAll t
/-- R302: at one landing tick flags are set after every other write, so a clear of FLAGS precedes them. -/
def Pending.before (p q : Pending) : Bool :=
  p.tick < q.tick || (p.tick == q.tick && p.file != .flagSet && q.file == .flagSet)

/-- Insertion by landing tick, after those of the same tick. -/
def insertPending (p : Pending) : List Pending → List Pending
  | [] => [p]
  | q :: t => if p.before q then p :: q :: t else q :: insertPending p t

/-- R41: pending writes in landing order, those of one tick in issue order. -/
def landingOrder (ps : List Pending) : List Pending := ps.foldl (fun l p => insertPending p l) []

/-- R41, R44: everything that lands at or before the context's tick is applied; FMT takes the values whose shadow is
over. -/
def Ctx.land (c : Ctx) : Ctx :=
  let now := c.arch.tick
  let due := landingOrder (c.arch.pend.filter fun p => decide (p.tick ≤ now))
  let later := c.arch.pend.filter fun p => decide (now < p.tick)
  let c1 := ({ c with arch := { c.arch with pend := later } } : Ctx).landAll due
  { c1 with arch := { c1.arch with
      fmt := c.arch.shadow.foldl (fun f p => if p.1 ≤ now then p.2 else f) c.arch.fmt
      shadow := c.arch.shadow.filter (fun p => decide (now < p.1)) } }

/-! Captures and rewinds (R237 to R244). -/

/-- R240: unsealed proofs. -/
def Ctx.nUnsealed (c : Ctx) : Nat := c.unsealed.length
/-- R243: the newest captured proof. -/
def Ctx.newest (c : Ctx) : Option Capture := match c.unsealed.getLast? with
  | some p => some p
  | none => c.captured
/-- R237, R238: captures a proof of the context as it stands; the segment it begins is the next one. -/
def Ctx.capture (c : Ctx) (cycle : Nat) (kind : CapKind) : Ctx :=
  { c with
    serial := c.serial + 1
    unsealed := c.unsealed ++ [⟨c.arch, c.serial + 1, cycle, kind⟩]
    proofpc := match kind with | .proof => c.arch.pc | _ => c.proofpc }
/-- R141, R206: a proof captured and sealed at once, after those before it (the PROOF of a near atomic's own bundle, log
entry 54). -/
def Ctx.captureSealed (c : Ctx) (cycle : Nat) : Ctx :=
  { c with
    unsealed := []
    serial := c.serial + 1
    captured := some ⟨c.arch, c.serial + 1, cycle, .proof⟩
    proofpc := c.arch.pc }
/-- R147, R200, R360: prefetched stream data goes, and later pops read memory again. -/
def Ctx.dropUnits (c : Ctx) : Ctx :=
  { c with
    units := []
    fetched := c.arch.streams.map fun q => (q.1, q.2.pos)
    fetchOff := c.arch.streams.map fun q => (q.1, q.2.off) }
/-- R244: what a rewind to a captured proof restores, and nothing else. Later captures and gated entries go. -/
def Ctx.rewindTo (c : Ctx) (p : Capture) : Ctx :=
  { ({ c with arch := p.arch } : Ctx).dropUnits with
    serial := p.serial
    proofpc := p.arch.pc
    gated := c.gated.filter fun e => e.seg < p.serial
    unsealed := c.unsealed.filter fun q => q.serial ≤ p.serial
    bracket := none
    arrival := none
    fresh := decide (p.serial = 0)
    bpDone := false }
/-- R26: context index k is reserved for SPAWN by the mask of a kernel of its partition that has not ended. -/
def State.reservedBy (s : State) (g : Nat) : Option Nat :=
  (s.ce.kernels.find? fun p => p.2.ended.isNone
    && ((AMap.find s.ce.parts p.2.part).map fun x => x.clusters.getLsbD (clusterOf g)).getD false
    && (u8At p.2.desc 0x22).testBit (g % 8)).map Prod.fst

/-- R13, R26: the state of a context without work. -/
def State.restState (s : State) (g : Nat) : RunState := if (s.reservedBy g).isSome then .reserved else .idle

/-- R243, R324: what the discarded segments of a run did to the kinds of a core's banks is undone. -/
def Core.forgetKinds (k : Core) (g gen serial : Nat) : Core :=
  { k with kinds := k.kinds.map fun p => (p.1, p.2.filter fun m => match m.owner with
      | some (h, n, seg) => !(h == g && n == gen && decide (serial ≤ seg))
      | none => true) }
/-- R324: a mark that belongs to a sealed segment of a run stands. -/
def KindMark.seal (m : KindMark) (g gen serial : Nat) : KindMark :=
  match m.owner with
  | some (h, n, seg) => if h = g ∧ n = gen ∧ seg < serial then { m with owner := none } else m
  | none => m
/-- R324: the marks down to the latest that stands. -/
def trimKinds : List KindMark → List KindMark
  | [] => []
  | m :: t => if m.owner.isNone then [m] else m :: trimKinds t
/-- R324: what the sealed segments of a run did to the kinds of a core's banks stands. -/
def Core.sealKinds (k : Core) (g gen serial : Nat) : Core :=
  { k with kinds := k.kinds.map fun p => (p.1, trimKinds (p.2.map fun m => m.seal g gen serial)) }
/-- R335: claims by SPAWNs whose segments are discarded are released. -/
def State.unclaim (s : State) (g serial : Nat) : State :=
  s.ctxs.foldl (fun s p => match p.2.startSeg with
    | some (h, gen, seg) => if h = g ∧ gen = (s.ctx g).gen ∧ serial ≤ seg then
        s.modCtx p.1 fun x => { x with state := s.restState p.1, kernel := none, startSeg := none, parent := none }
      else s
    | none => s) s

/-- R243, R324, R335: the segments of a context from one on are discarded: what they claimed and opened is undone. -/
def State.discard (s : State) (g serial : Nat) : State :=
  (s.unclaim g serial).modCore (coreOf g) fun k => k.forgetKinds g (s.ctx g).gen serial
/-- R243, R116: rewinds a context to its newest captured proof, or to its newest sealed one. -/
def State.rewindCtx (s : State) (g : Nat) (toSealed : Bool) : State :=
  match (if toSealed then (s.ctx g).captured else (s.ctx g).newest) with
  | some p => (s.discard g p.serial).modCtx g fun x => x.rewindTo p
  | none => s

/-! Taking an exception (R246 to R249) and returning from one (R250). -/

/-- R247: causes in the order in which their commands issued. -/
def insertCause (c : Cause) : List Cause → List Cause
  | [] => [c]
  | d :: t => if c.issued < d.issued then c :: d :: t else d :: insertCause c t
/-- R247: causes that stayed pending while another was taken may be taken again. -/
def Ctx.rejoin (c : Ctx) : Ctx := { c with causes := c.waiting.foldl (fun l x => insertCause x l) c.causes, waiting := [] }

/-- R54, R55: CAUSE from its fields. -/
def causeWord (code : Nat) (async : Bool) (detail : BitVec 32) : Word :=
  detail ++ (BitVec.ofNat 32 (code + if async then 0x8000 else 0))
/-- R54: FSLOT from its fields. -/
def fslotWord (slot : Nat) (fetch : Bool) (rep : Nat) : BitVec 32 :=
  BitVec.ofNat 32 (rep % 64 * 256 + (if fetch then 128 else 0) + slot % 8)
/-- R247: causes that leave the bundle's effects standing: BKPT, SWTRAP and the asynchronous LTSEXP. -/
def keepsBundle (code : Nat) : Bool := code == 0x10 || code == 0x11 || code == 0x21

/-- R249: a double fault halts the context and is journalled. -/
def State.doubleFault (s : State) (g : Nat) (df : Word) : State :=
  let s := s.modCtx g fun c => { c with dfcause := df, state := .halted, freeze := none, arrival := none }
  s.journal { kind := 0x80, state := 5, cause := 0x15, ctxid := (s.ctxid g).truncate 32 }

/-- R43, R248: a store no longer holds bytes that have since been written directly. -/
def GatedItem.withoutStores (i : GatedItem) (addrs : List Nat) : GatedItem :=
  match i with
  | .store bs => .store (bs.filter fun p => !addrs.contains p.1)
  | i => i
/-- R196: a push no longer writes bytes that a later push has written directly. -/
def GatedItem.withoutPushes (i : GatedItem) (addrs : List Nat) : GatedItem :=
  match i with
  | .push q unit desc data gone => .push q unit desc data (gone ++ addrs)
  | i => i
/-- R43, R248: the context's gated stores no longer hold the bytes that it has since written directly. -/
def Ctx.overwrite (c : Ctx) (addrs : List Nat) : Ctx :=
  { c with gated := c.gated.map fun e => { e with item := e.item.withoutStores addrs } }
/-- R196, R248: the context's gated pushes no longer write the bytes that a push of its handler has written since (log entry
55: those bytes do not land again at the seal). -/
def Ctx.overwritePushes (c : Ctx) (addrs : List Nat) : Ctx :=
  { c with gated := c.gated.map fun e => { e with item := e.item.withoutPushes addrs } }
/-- R43, R248: bytes that an entry writes directly to the context's near store: they are in memory at once, and newer than
the stores of the same bytes that are gated, or that its bundle has made (log entry 55: those bytes do not land again). -/
def State.storeDirect (s : State) (g : Nat) (bytes : List (Nat × Byte)) : State :=
  if bytes.isEmpty then s else
  (({ s with late := s.late.map fun p =>
      if coreOf p.1 = coreOf g then (p.1, p.2.withoutStores (bytes.map Prod.fst)) else p } : State).mergeCells
    (bytes.map fun p => (nearKey (coreOf g) p.1, p.2))).modCtx g fun c => c.overwrite (bytes.map Prod.fst)
/-- R43, R248: the byte that a bundle of a context has written directly and that is not in memory yet. -/
def State.lateByte (s : State) (g a : Nat) : Option Byte :=
  s.late.foldl (fun r p => if p.1 = g then match p.2 with
    | .store bs => (bs.find? fun b => b.1 == a).map Prod.snd <|> r
    | _ => r else r) none
/-- R12, R206, R248: bytes that a bundle writes directly to its context's near store, by a near atomic or in a handler: they
reach memory when both contexts of the core have had their turn of the cycle. -/
def State.storeLate (s : State) (g : Nat) (bytes : List (Nat × Byte)) : State :=
  if bytes.isEmpty then s else
  ({ s with late := s.late ++ [(g, .store bytes)] } : State).modCtx g fun c => c.overwrite (bytes.map Prod.fst)
/-- R248: enters the handler after the fate of the cause: the trap registers, the entry record, INTRAP, s30 and s31 at
TSTK, s31 and the pc. Engine causes that are pending stay so until the handler ends (R247). TVEC and TSTK are as they stand at
the boundary, a CWR of the last tick landed (R302). A bad TSTK is a double fault (R249). -/
def State.enterHandler (s : State) (g : Nat) (c : Cause) : State :=
  let x := s.ctx g
  let keep := keepsBundle c.code
  let a := x.arch
  let rec_ : EntryRec := ⟨a.tick, a.fmt, a.shadow, a.rngctr, a.loops, a.printRep, a.crc,
    if keep then some a.pend else none, a.fenced, a.pc⟩
  let x1 := { x with
    trapCause := causeWord c.code (c.code == 0x21) c.detail
    fbndl := c.bndl
    fslot := fslotWord c.slot c.fetch c.rep
    faddr := c.faddr
    trappc := a.pc
    entry := some rec_
    intrap := true
    bracket := none
    bpDone := false
    causes := []
    waiting := x.rejoin.causes }
  let tstk := x.land.arch.tstk
  let t := tstk.toNat
  let s1 := s.setCtx g x1
  if t % 256 ≠ 0 ∨ !x1.inWindowRange t 16 then
    s1.doubleFault g (causeWord 0x01 false tstk)
  else
    let bytes := ((leBytes 8 (a.s 30).toNat ++ leBytes 8 (a.s 31).toNat).zipIdx).map fun p => (t + p.2, p.1)
    let a1 := a.setS 31 (tstk.zeroExtend 64)
    (s1.storeDirect g bytes).modCtx g fun y => { y with arch := { a1 with
      pc := x.land.arch.tvec
      tvec := x.land.arch.tvec
      tstk := tstk
      loops := []
      printRep := 0
      crc := none
      fenced := false
      pend := if keep then [] else a.pend } }

/-- R246, R247, R249: a cause is taken at a boundary of a context: its fate, then the handler; a synchronous cause in a
handler is a double fault. -/
def State.take (s : State) (g : Nat) (c : Cause) : State :=
  let x := s.ctx g
  if x.intrap ∧ c.code ≠ 0x21 then s.doubleFault g (causeWord c.code false c.detail)
  else if keepsBundle c.code then s.enterHandler g c
  else (s.rewindCtx g c.toSealed).enterHandler g c

/-- R58, R148: SQST.BLOCK takes the block that raises DECBOUND. -/
def State.noteBlock (s : State) (c : Cause) : State :=
  if c.code ≠ 0x09 then s else
  let q := c.detail.toNat % 8
  match AMap.find s.me.arch.streams q with
  | some st => s.modCtx s.cur fun x => { x with
      sqblock := AMap.put x.sqblock q (u32At st.desc 0x24 + BitVec.ofNat 32 st.pos) }
  | none => s

/-- A synchronous cause raised by the instruction in execution (R7, R71): no slot of its bundle has any effect. -/
def State.raise (s : State) (c : Cause) : State :=
  ((s.noteBlock c).take s.cur c).modIss fun i => { i with verdict := .raised c }

/-- The cause of the slot in execution, with its bundle and repetition (R246). -/
def State.slotCause (s : State) (code : Nat) (detail : BitVec 32) (faddr : Word) : Cause :=
  ⟨code, detail, s.iss.parcel, s.slot, false, s.iss.rep, faddr, false, s.me.arch.tick⟩

/-- R71: ILLEGAL of the slot in execution, with its word. -/
def State.illegal (s : State) : State :=
  s.raise (s.slotCause 0x01 (s.iss.words.getD s.slot 0) 0)

/-- The bundle stalls: it does not issue and TICK does not advance (R39). -/
def State.stall (s : State) : State := s.modIss fun i => { i with verdict := .stall }

/-- R250: ERET's steps: the handler's pending writes land at once, s30 and s31 come back, the entry record is restored,
INTRAP is cleared and the next bundle is at TRAPPC. The CRC state is the record's if TRAPPC is as entry set it (R49); a
handler that writes the value that entry set is taken to have left it as it was (log entry 56);
loops whose body a moved TRAPPC leaves are ended (log entry 12). -/
def State.leaveHandler (s : State) (g : Nat) : State :=
  let x0 := s.ctx g
  let x := ({ x0 with arch := { x0.arch with pend := [] } } : Ctx).landAll (landingOrder x0.arch.pend)
  match x.entry with
  | none => s.setCtx g { x.rejoin with intrap := false, preqHeld := false }
  | some e =>
    let saved (o : Nat) : Word := BitVec.ofNat 64 (leNat ((List.range 8).map fun i =>
      let at_ := x.arch.tstk.toNat + o + i
      if x.inWindow at_ then (s.lateByte g at_).getD (s.mem.read (nearKey (coreOf g) at_)) else 0))
    let moved := x.trappc != e.trappc
    let a := (x.arch.setS 30 (saved 0)).setS 31 (saved 8)
    s.setCtx g { x.rejoin with
      intrap := false
      preqHeld := false
      entry := none
      arch := { a with
        tick := e.tick
        fmt := e.fmt
        shadow := e.shadow
        rngctr := e.rngctr
        loops := if moved then e.loops.filter (fun l => l.start.toNat ≤ x.trappc.toNat && x.trappc.toNat < l.stop.toNat)
          else e.loops
        printRep := if moved then 0 else e.printRep
        crc := if moved then none else e.crc
        pend := e.pend.getD []
        fenced := e.fenced
        pc := x.trappc } }

/-! Synchronous causes that wait for a boundary (R245 to R247, R251, R257). -/

/-- R245: the poisoned write that lands first before the next bundle. -/
def Ctx.badLanding (c : Ctx) : Option Pending :=
  (c.arch.pend.filter fun p => decide (p.tick ≤ c.arch.tick) && p.poison.isSome).foldl (fun r p => match r with
    | none => some p
    | some q => if p.issued < q.issued ∨ (p.issued = q.issued ∧ p.slot < q.slot) then some p else some q) none
/-- R245, R246: the cause of a poisoned landing. DETAIL[0] says that the access issued before the proof rewound to. -/
def Ctx.landingCause (c : Ctx) (p : Pending) : Cause :=
  let again := match c.newest with
    | some q => decide (q.arch.tick ≤ p.issued)
    | none => true
  ⟨0x04, if again then 0 else 1, p.parcel, p.slot, false, p.rep, p.poison.getD 0, false, p.issued⟩
/-- R245: a recognised landing is removed from the landing buffer, every captured proof and the entry record. -/
def Ctx.dropLanding (c : Ctx) (p : Pending) : Ctx :=
  let cut (a : Arch) : Arch := { a with pend := a.pend.filter (· != p) }
  { c with
    arch := cut c.arch
    captured := c.captured.map fun q => { q with arch := cut q.arch }
    unsealed := c.unsealed.map fun q => { q with arch := cut q.arch }
    entry := c.entry.map fun e => { e with pend := e.pend.map fun l => l.filter (· != p) } }
/-- R130: causes of engine commands wait in the handler of an asynchronous cause. -/
def Ctx.holdsCauses (c : Ctx) : Bool := c.intrap && c.trapCause.getLsbD 15
/-- R247: the engine cause that is next. -/
def Ctx.engineCause (c : Ctx) : Option Cause := if c.holdsCauses then none else c.causes.head?
/-- R246, R247: a cause is due at the boundary of a context, other than those of its next bundle. -/
def Ctx.syncDue (c : Ctx) : Bool := c.engineCause.isSome || c.badLanding.isSome

/-- R251, R257: TRAP or BKPT is taken: the handler, or a freeze for the debugger. R37 lets a TRAP cancel the repetitions left of a
PRINT, R251 and R339 let them go on after the ERET unless the handler moves TRAPPC: the model follows R251 (log entry 93). -/
def State.takeTrap (s : State) (g : Nat) (c : Cause) : State :=
  if c.code = 0x10 ∧ (s.ctx g).present then
    s.modCtx g fun x => { x with state := .frozen, freeze := some .debug, trapCause := causeWord 0x10 false c.detail }
  else s.take g { c with rep := (s.ctx g).arch.printRep }
/-- R247: the engine cause that is next is taken. A TRAP or BKPT that has waited is one of them. -/
def State.takeEngine (s : State) (g : Nat) (e : Cause) : State :=
  let t := s.modCtx g fun x => { x with causes := x.causes.drop 1 }
  if keepsBundle e.code then t.takeTrap g e else t.take g e
/-- R245: a poisoned landing is taken. -/
def State.takeLanding (s : State) (g : Nat) (p : Pending) : State :=
  (s.modCtx g fun x => x.dropLanding p).take g ((s.ctx g).landingCause p)
/-- R245 to R247: of an engine cause and a poisoned landing, the one of the earlier-issued instruction is taken, the landing
(slot 3) before the command (slot 7) of one bundle. -/
def State.takeSync (s : State) (g : Nat) : Option State :=
  match (s.ctx g).engineCause, (s.ctx g).badLanding with
  | some e, some p => some (if e.issued < p.issued then s.takeEngine g e else s.takeLanding g p)
  | some e, none => some (s.takeEngine g e)
  | none, some p => some (s.takeLanding g p)
  | none, none => none
/-- R247: TRAP or BKPT stays pending where the proof that its context goes back to stands after its bundle, which held a near
atomic as well (log entry 96). -/
def Ctx.keepTrap (c : Ctx) (e : Cause) : Ctx :=
  if c.newest.any fun p => decide (e.issued < p.arch.tick) then { c with causes := insertCause e c.causes } else c
/-- R247, R251: TRAP or BKPT at the boundary after its bundle. A cause of an instruction that issued earlier is taken in its
place, and its rewind undoes the bundle. -/
def State.finishTrap (s : State) (g : Nat) (c : Cause) : State :=
  if (s.ctx g).syncDue then
    let s1 := s.modCtx g fun x => x.keepTrap c
    (s1.takeSync g).getD s1
  else s.takeTrap g c

end Sys2Proof.Machine
end

