-- ==== Sys2Proof/Machine/Flags.lean ====
section
/-!
DEFINITION. The sticky flags (R54, R56, R137) and the landing of results (R40).
-/

namespace Sys2Proof.Machine

/-- FLAGS.UFL (R54). -/
def flagUfl : BitVec 4 := 1
/-- FLAGS.LSFANY. -/
def flagLsf : BitVec 4 := 2
/-- FLAGS.SATF. -/
def flagSat : BitVec 4 := 4
/-- FLAGS.SPV. -/
def flagSpv : BitVec 4 := 8
/-- A flag set from whether each flag is raised. -/
def flagsOf (spv sat lsf ufl : Bool) : BitVec 4 :=
  BitVec.ofBool spv ++ BitVec.ofBool sat ++ BitVec.ofBool lsf ++ BitVec.ofBool ufl

/-- R40, R42: a write that lands L ticks after the bundle's own. -/
def State.landAt (s : State) (l : Nat) (file : RegFile) (num : Nat) (mask : PWord) (val : VWord)
    (poison : Option Word) : State :=
  s.modArch s.cur fun a => { a with
    pend := a.pend ++ [⟨file, num, a.tick + l, s.slot, mask, val, s.iss.parcel, s.iss.rep, poison, a.tick, none, none⟩] }

/-- All 64 bits of a scalar. -/
def fullScalar : PWord := (BitVec.allOnes 64).zeroExtend 256

/-- R40, R288: a scalar result with its latency; a write to s0 is discarded. -/
def State.landS (s : State) (l d : Nat) (v : Word) : State :=
  if d = 0 then s else s.landAt l .scalar d fullScalar (v.zeroExtend 2048) none

/-- R40: a predicate result on some of its bits; a write to p0 is discarded. -/
def State.landP (s : State) (l d : Nat) (mask v : PWord) : State :=
  if d = 0 then s else s.landAt l .predicate d mask (v.zeroExtend 2048) none

/-- R56: sticky flags set at the landing tick of the instruction, L ticks on (1 for one that writes no register). -/
def State.raiseFlags (s : State) (l : Nat) (f : BitVec 4) : State :=
  if f = 0 then s else s.landAt l .flagSet 0x01E fullScalar (f.zeroExtend 2048) none

/-- R137: FLAGS.SPV is set or about to be. -/
def Arch.spvSeen (a : Arch) : Bool :=
  a.flags.getLsbD 3 || a.pend.any fun p => p.file == .flagSet && p.val.getLsbD 3

/-- R56, R137: an access whose lowest out-of-range address is `a`: SPV at its landing tick, and SPVIO for the first access. -/
def State.spvAt (s : State) (l a : Nat) : State :=
  s.modArch s.cur fun x => { x with
    spvio := if x.spvSeen then x.spvio else BitVec.ofNat 32 a
    pend := x.pend ++ [⟨.flagSet, 0x01E, x.tick + l, s.slot, fullScalar, flagSpv.zeroExtend 2048, s.iss.parcel, s.iss.rep,
      none, x.tick, some (BitVec.ofNat 32 a), none⟩] }
/-- R137: the out-of-range bytes of an access among addresses. -/
def State.rangeFlags (s : State) (l : Nat) (addrs : List Nat) : State :=
  match (addrs.filter fun a => !s.me.inWindow a).min? with
  | none => s
  | some a => s.spvAt l a

end Sys2Proof.Machine
end

