-- ==== Sys2Proof/Machine/Report.lean ====
section
/-!
DEFINITION. What an engine command reports: its completion word (R111, R122, R166), the cause its issuer takes (R130),
held in the save slot of a saved context (R253), and the flags it gathers (R110, R122).
-/

namespace Sys2Proof.Machine

/-! The timer of a queue (R229). -/

/-- R229: the timer advances: a command is started and uncompleted, and not a SEMWAIT alone. -/
def Queue.timing (q : Queue) : Bool := q.started.any fun c => c.op != 3
/-- R229: the started commands change. While the timer advances, `progress` is the cycle it counts from, else what it has
counted. -/
def Queue.setStarted (q : Queue) (l : List Started) (cycle : Nat) : Queue :=
  let r := { q with started := l }
  if r.timing = q.timing then r else { r with progress := cycle - q.progress }
/-- R229: a progress event restarts the timer. -/
def Queue.restartTimer (q : Queue) (cycle : Nat) : Queue := { q with progress := if q.timing then cycle else 0 }

/-- R229: a progress event of the queue that launched a kernel. -/
def State.progressOf (s : State) (kernel : Option Nat) : State :=
  match kernel.bind s.kernel with
  | some k => s.modQueue k.queue fun q => q.restartTimer s.cycle
  | none => s

/-! The save slot of a context (R228, R253). -/

/-- R228: the physical address of slot g of a partition. -/
def State.slotBase (s : State) (part g : Nat) : Nat :=
  (((AMap.find s.ce.parts part).map Partition.save).getD 0).toNat + Config.saveSlotBytes * g
/-- Bytes at a physical address of this device. -/
def physCells (pa : Nat) (bytes : List Byte) : List (Nat × Byte) := bytes.zipIdx.map fun p => (physKey (pa + p.2), p.1)
/-- R170, R193: bytes that the device writes to a physical address on its own account: none outside installed frames, and
a poisoned granule written in part stays so and is journalled. -/
def State.writePhys (s : State) (pa : Nat) (bytes : List Byte) : State :=
  if !s.mappedRange pa bytes.length then s else
  s.mergeCells (physCells pa bytes)
/-- R253: offset of the held engine-cause count in the header. -/
def slotCauseCount : Nat := 0x98
/-- R253: offset of the held engine causes. -/
def slotCauses : Nat := 0x1C400
/-- R253: an entry of the held engine causes. -/
def causeBytes (c : Cause) : List Byte :=
  leBytes 1 c.code ++ leBytes 1 c.slot ++ leBytes 2 0 ++ leBytes 4 c.bndl.toNat ++ leBytes 4 c.detail.toNat ++ leBytes 4 0
    ++ leBytes 8 c.faddr.toNat ++ leBytes 8 0

/-- R130, R253: a cause held in the save slot of a context, in issue order; past the 32nd only the count grows. -/
def State.holdCause (s : State) (g : Nat) (sv : Saved) (c : Cause) : State :=
  match s.kernel sv.kernel with
  | none => s
  | some k =>
    let base := s.slotBase k.part g
    let n := readNat s.mem (physKey (base + slotCauseCount)) 4
    let at_ := (sv.causeTicks.filter fun t => decide (t ≤ c.issued)).length
    let old := readKeys s.mem (physKey (base + slotCauses + 32 * at_)) (32 * (n - at_))
    let new := (causeBytes c ++ old).take (32 * (32 - at_))
    let s1 := (s.writePhys (base + slotCauseCount) (leBytes 4 (n + 1))).writePhys (base + slotCauses + 32 * at_) new
    { s1 with ce := { s1.ce with saved := AMap.put s1.ce.saved g { sv with
        causeTicks := sv.causeTicks.take at_ ++ c.issued :: sv.causeTicks.drop at_ } } }

/-- R130, R116: a cause is reported to a run of a context: taken at its next boundary, held while it is FROZEN or
saved, dropped when the run has ended or the context is HALTED. -/
def State.reportTo (s : State) (g gen : Nat) (c : Cause) : State :=
  match (AMap.find s.ce.saved g).filter fun v => v.gen == gen with
  | some v => s.holdCause g v c
  | none =>
    let x := s.ctx g
    if x.gen = gen ∧ (x.state = .running ∨ x.state = .frozen ∨ x.state = .sealing) then
      s.modCtx g fun y => { y with causes := insertCause c y.causes }
    else s

/-- R246: the cause of an engine command: its issuing bundle, slot 7. -/
def Issuer.cause (i : Issuer) (code : Nat) (detail : BitVec 32) (faddr : Word) : Cause :=
  ⟨code, detail, i.parcel, 7, false, i.rep, faddr, false, i.tick⟩
/-- R130: a command reports a cause to its issuer. -/
def State.report (s : State) (i : Issuer) (code : Nat) (detail : BitVec 32) (faddr : Word) : State :=
  s.reportTo i.g i.gen (i.cause code detail faddr)

/-- R110, R122: flags set in FLAGS of a run of a context at its next boundary, in its save slot while it is saved. -/
def State.gatherTo (s : State) (i : Issuer) (f : BitVec 4) : State :=
  match (AMap.find s.ce.saved i.g).filter fun v => v.gen == i.gen with
  | some v =>
    match s.kernel v.kernel with
    | some k =>
      let pa := s.slotBase k.part i.g + 0x48
      s.writePhys pa (leBytes 1 ((s.mem.read (physKey pa)).toNat ||| f.toNat))
    | none => s
  | none => if (s.ctx i.g).gen = i.gen then s.modCtx i.g fun y => { y with gather := y.gather ||| f } else s

/-- R213: an LTS address outside the window of a phased task. -/
def State.outsideLts (s : State) (i : Issuer) (a : Nat) : Bool :=
  i.phased && decide (0x10000000 ≤ a) && match i.kernel.bind s.kernel with
    | some k => !(decide ((u32At k.desc 0x74).toNat ≤ a) && decide (a ≤ (u32At k.desc 0x78).toNat))
    | none => false
/-- R111, R122, R164, R166: the completion word of a command, at the scratch address of its pair. An LTS address keeps its
class and action, and one outside the window of a phased task is not written (R213). Poison follows R193. -/
def State.completionWord (s : State) (i : Issuer) (a : BitVec 32) (v : BitVec 32) : State :=
  if s.outsideLts i a.toNat then s else
  let cells := (leBytes 4 v.toNat).zipIdx.filterMap fun p => (completionKey i.g (a.toNat + p.2)).map fun k => (k, p.1)
  (s.mergeStore cells (some (i.g % 8, i.kernel)) none).progressOf i.kernel

/-- What the writes of an engine command on path A come to: whether a byte was dropped, whether a poisoned granule was
written in part (R193), and the first address outside the LTS window of a phased task (R213). -/
structure EngineWrite where
  state : State
  dropped : Bool
  poisoned : Bool
  isolated : Option Nat
/-- R110, R118, R138: writes of an engine command on path A: bytes outside the window, mapped scratch or the task's LTS
window are dropped. -/
def State.engineWriteBytes (s : State) (i : Issuer) (lo hi : Nat) (bytes : List (Nat × Byte)) : EngineWrite :=
  let cells := bytes.filterMap fun p =>
    if s.outsideLts i p.1 then none else (scratchKey i.g lo hi p.1).map fun k => (k, p.2)
  let owner := some (i.g % 8, i.kernel)
  ⟨s.mergeStore cells owner none, cells.length != bytes.length, !((s.touchRows cells owner none).poisonHits cells).isEmpty,
    (bytes.find? fun p => s.outsideLts i p.1).map Prod.fst⟩
/-- R213: ISOLATION of an engine command whose write left the LTS window. -/
def State.reportIsolated (s : State) (i : Issuer) (a : Option Nat) : State :=
  match a with
  | some a => s.report i 0x0C 0 (BitVec.ofNat 64 a)
  | none => s

end Sys2Proof.Machine
end

