-- ==== Sys2Proof/Machine/Rings.lean ====
section
/-!
DEFINITION. The matrix array's geometry, rings and banks, and what happens to them at the release of a command (R98 to
R117).
-/

namespace Sys2Proof.Machine

/-! Geometry (R58, R96, R100). -/

/-- R58, R100: M, N and KT of MGEO. -/
def geoM (g : Word) : Nat := fld g 6 0 + 1
/-- N. -/
def geoN (g : Word) : Nat := fld g 15 7 + 1
/-- KT. -/
def geoKT (g : Word) : Nat := fld g 23 16 + 1
/-- R60, R96: products of one group for a matrix format code. -/
def groupSize (code : Nat) : Nat := if code = 6 then 64 else if code = 0 then 4 else if code = 1 ∨ code = 2 then 16 else 32
/-- R100: K of one k-step. -/
def MatJob.depthK (j : MatJob) : Nat := (fld j.mgeo 23 16 + 1) * groupSize (fld j.fmt 3 0)
/-- R100: bytes of n elements of a format code. -/
def fmtBytes (code n : Nat) : Nat :=
  if code = 0 then 4 * n else if code = 1 ∨ code = 2 then 2 * n else if code = 6 then n / 2 else n
/-- R100: bytes of the A tile. -/
def tileA (geo : Word) (fmt : BitVec 32) : Nat :=
  let c := fld fmt 3 0
  fmtBytes c (geoM geo * (geoKT geo * groupSize c)) + (if c = 6 then geoM geo * (2 * geoKT geo) else 0)
/-- R100: bytes of the B tile. -/
def tileB (geo : Word) (fmt : BitVec 32) : Nat :=
  let c := fld fmt 7 4
  fmtBytes c (geoKT geo * groupSize c * geoN geo) + (if c = 6 then 2 * geoKT geo * geoN geo else 0)
/-- R100: N is odd with MXFP4. -/
def oddMx (geo : Word) (fmt : BitVec 32) : Bool := fld fmt 3 0 == 6 && geoN geo % 2 == 1
/-- R102, R105: a ring descriptor of rings 0 to 6 that may be read under a window, with slots that hold a tile. -/
def ringOk (lo hi : Nat) (d : Word) (tile : Nat) : Bool :=
  let base := fld d 31 0
  let size := fld d 47 32 * 256
  let n := fld d 63 48
  n != 0 && size != 0 && base % 256 == 0 && tile ≤ size
    && ((lo ≤ base && base + n * size ≤ hi + 1) || (0x10000000 ≤ base && base + n * size ≤ 0x14000000))
/-- R104: slots of the weight buffer; none for a reserved mode or a size out of range. -/
def wbSlots (cfg : Word) : Option Nat :=
  let sz := fld cfg 23 8
  match fld cfg 1 0 with
  | 0 => if 1 ≤ sz ∧ sz ≤ 512 then some (512 / sz) else none
  | 1 => if 1 ≤ sz ∧ sz ≤ 256 then some 2 else none
  | _ => none
/-- R104: the weight buffer may be used for a tile. -/
def wbOk (cfg : Word) (tile : Nat) : Bool := (wbSlots cfg).isSome && tile ≤ fld cfg 23 8 * 256

/-! Banks (R98, R106 to R110). -/

/-- R108: the bank of a command of the matrix array; a factor command works in the bank of its own context. -/
def CmdOp.bankOf (g : Nat) : CmdOp → Option Nat
  | .mma j => some j.bank
  | .mzero b => some b
  | .mret b _ _ _ _ _ _ _ => some b
  | .gang _ j _ => some j.bank
  | .factor _ => some (ownBank g)
  | _ => none
/-- A command of a core works on a bank. -/
def Cmd.onBank (c : Cmd) (core bank : Nat) : Bool :=
  match c.op with
  | .gang mask j _ => decide (clusterOf c.by_.g = core / 4) && mask.getLsbD (core % 4) && j.bank == bank
  | op => decide (coreOf c.by_.g = core) && op.bankOf c.by_.g == some bank
/-- R106, R113: changes a context's chain bookkeeping of a bank, in its captured proofs as well (log entry 13). -/
def State.modChain (s : State) (g bank : Nat) (f : Chain → Chain) : State :=
  let upd (a : Arch) : Arch := { a with chains := AMap.put a.chains bank (f (AMap.get ⟨false, 0⟩ a.chains bank)) }
  s.modCtx g fun c => { c with
    arch := upd c.arch
    captured := c.captured.map fun p => { p with arch := upd p.arch }
    unsealed := c.unsealed.map fun p => { p with arch := upd p.arch } }

/-- R112, R324: the kind of the chain last opened on a bank: true for integer. -/
def State.bankKind (s : State) (core bank : Nat) : Bool :=
  ((AMap.get [] (s.core core).kinds bank).head?.map KindMark.isInt).getD false
/-- R324, R326: a bank takes a kind. -/
def State.setKind (s : State) (core bank : Nat) (m : KindMark) : State :=
  s.modCore core fun k => { k with kinds := AMap.put k.kinds bank (trimKinds (m :: AMap.get [] k.kinds bank)) }
/-- R98: the key of bank element (m, n). -/
def bankKey (bank m n : Nat) : Nat := bank * 65536 + m * 512 + n
/-- R106, R107: a bank and its LSF map become zero. -/
def State.clearBank (s : State) (core bank : Nat) : State :=
  s.modCore core fun k => { k with
    bank := k.bank.filter fun p => p.1 / 65536 != bank
    lsf := k.lsf.filter fun i => i / 65536 != bank }
/-- R110: the flags gathered in a bank are dropped. -/
def State.dropGathered (s : State) (core bank : Nat) : State :=
  s.modCore core fun k => { k with gathered := AMap.del k.gathered bank }
/-- R110: the flags gathered in a bank go to a context's run, and are cleared. -/
def State.giveGathered (s : State) (core bank : Nat) (i : Issuer) : State :=
  (s.gatherTo i (AMap.get 0 (s.core core).gathered bank)).dropGathered core bank
/-- R106, R113, R116: a bank, its LSF map and its gathered flags are zeroed. -/
def State.zeroBank (s : State) (core bank : Nat) : State := (s.clearBank core bank).dropGathered core bank
/-- R113, R116: the chain of a context on a bank is closed. -/
def State.closeChain (s : State) (core bank g : Nat) : State :=
  (s.modCore core fun k => { k with openRel := k.openRel.del bank }).modChain g bank fun ch => { ch with isOpen := false }
/-- R113, R116: work in a bank is lost: the bank is zeroed and the chain closed. -/
def State.loseBank (s : State) (core bank g : Nat) : State := (s.zeroBank core bank).closeChain core bank g

/-! Gang members (R115, R116). -/

/-- R115: the run of a context that is a member of a gang of a kernel: its pickup, saved or not. -/
def State.runOf (s : State) (g : Nat) (kernel : Option Nat) : Nat :=
  match (AMap.find s.ce.saved g).filter fun v => some v.kernel == kernel with
  | some v => v.gen
  | none => (s.ctx g).gen
/-- R115: a member's own product: the leader's geometry and formats over the member's rings, as the registers of its
context stand, whether or not that context is still at work (log entry 60). -/
def State.memberJob (s : State) (core : Nat) (j : MatJob) : MatJob :=
  let c := s.ctx (2 * core + j.bank)
  let k := s.core core
  let ar := fld c.arch.mgcfg 2 0
  let br := fld c.arch.mgcfg 5 3
  { j with
    aring := ar, bring := br, aDesc := AMap.get 0 k.erng ar, bDesc := AMap.get 0 k.erng br, wbcfg := c.arch.wbcfg
    lo := c.splo, hi := c.sphi }
/-- R115: a member's checks at release. -/
def MatJob.memberOk (j : MatJob) : Bool :=
  j.aring != 7 && j.aring != j.bring && !oddMx j.mgeo j.fmt
    && ringOk j.lo.toNat j.hi.toNat j.aDesc (tileA j.mgeo j.fmt) && j.count ≤ fld j.aDesc 63 48
    && (if j.bring = 7 then wbOk j.wbcfg (tileB j.mgeo j.fmt) && j.count ≤ (wbSlots j.wbcfg).getD 0
      else ringOk j.lo.toNat j.hi.toNat j.bDesc (tileB j.mgeo j.fmt) && j.count ≤ fld j.bDesc 63 48)
/-- R112: a core in which the product would continue an open chain of the other kind. -/
def State.kindClash (s : State) (core : Nat) (j : MatJob) : Bool :=
  !j.clr && ((AMap.find (s.ctx (2 * core + j.bank)).arch.chains j.bank).map Chain.isOpen).getD false
    && s.bankKind core j.bank != (fld j.fmt 3 0 == 5)
/-- R116: a member fails: its chain is closed and its context takes a cause, rewinding to its newest sealed proof. Its bank
is zeroed in the bank's order. -/
def State.failMember (s : State) (i : Issuer) (core bank code : Nat) (detail : BitVec 32) (faddr : Word) : State :=
  let g := 2 * core + bank
  (s.closeChain core bank g).reportTo g (s.runOf g i.kernel) { i.cause code detail faddr with toSealed := true }
/-- The jobs of a gang's members at release: none for a core that is no member or fails its checks. -/
def State.gangParts (s : State) (i : Issuer) (mask : BitVec 4) (j : MatJob) : List (Option MatJob) :=
  (List.range 4).map fun m =>
    let x := s.memberJob (clusterOf i.g * 4 + m) j
    if mask.getLsbD m && x.memberOk then some x else none
/-- The members that fail their checks at release. -/
def State.gangFailed (s : State) (i : Issuer) (mask : BitVec 4) (j : MatJob) : BitVec 4 :=
  BitVec.ofNat 4 ((s.gangParts i mask j).zipIdx.foldl
    (fun n p => if mask.getLsbD p.2 && p.1.isNone then n + 2 ^ p.2 else n) 0)

/-- R106, R115, R117: bank bookkeeping at the release of a matrix command. A member's depth grows by the gang's own, and
only the leader's was checked against an MLIM, at issue (R114; log entry 61). -/
def State.releaseBank (s : State) (i : Issuer) (op : CmdOp) : State :=
  match op with
  | .mma j => s.modCore (coreOf i.g) fun c => { c with openRel := c.openRel.add j.bank }
  | .mzero b => s.modCore (coreOf i.g) fun c => { c with openRel := c.openRel.del b }
  | .mret b _ _ _ _ _ _ _ => s.modCore (coreOf i.g) fun c => { c with openRel := c.openRel.del b }
  | .gang mask j _ =>
    let failed := s.gangFailed i mask j
    (List.range 4).foldl (fun s m =>
      let core := clusterOf i.g * 4 + m
      if !mask.getLsbD m then s
      else if failed.getLsbD m then s.failMember i core j.bank 0x12 (mask.zeroExtend 32) 0
      else
        let s1 := s.modCore core fun c => { c with openRel := c.openRel.add j.bank }
        if core = coreOf i.g then s1 else
          (s1.setKind core j.bank ⟨none, fld j.fmt 3 0 == 5⟩).modChain (2 * core + j.bank) j.bank fun ch =>
            ⟨true, (if j.clr || !ch.isOpen then 0 else ch.depth) + j.count * j.depthK⟩) s
  | _ => s

end Sys2Proof.Machine
end

