-- ==== Sys2Proof/Machine/Release.lean ====
section
/-!
DEFINITION. What leaves the gated buffer: stores, stream pushes, engine commands with what they wait for, TRIG (R14,
R147, R196 to R201, R226, R239, R240).
-/

namespace Sys2Proof.Machine

/-! Stream addresses (R144). -/

/-- R144: T, the bytes of a stream. -/
def streamTotal (d : BitVec 512) : Nat := (u32At d 4).toNat * u16At d 8 * u16At d 10 * u16At d 12
/-- R144: the DEC flag of a descriptor. -/
def streamDec (d : BitVec 512) : Bool := (u8At d 14).testBit 0
/-- R144: the scratch address of byte n of a stream's sequence; one below 0 lies outside every range, as one above 32 bits
does. -/
def streamAddr (d : BitVec 512) (n : Nat) : Nat :=
  let l0 := (u32At d 4).toNat
  let i := n / l0
  let i1 := i % u16At d 8
  let i2 := i / u16At d 8 % u16At d 10
  let i3 := i / (u16At d 8 * u16At d 10)
  let a : Int := ((u32At d 0).toNat : Int) + i1 * (u32At d 0x10).toInt + i2 * (u32At d 0x14).toInt
    + i3 * (u32At d 0x18).toInt + (n % l0 : Nat)
  if 0 ≤ a then a.toNat else 2 ^ 32 + (a % 2 ^ 32).toNat
/-- R144: the addresses of unit k. -/
def streamUnit (d : BitVec 512) (k : Nat) : List Nat := (List.range 256).map fun i => streamAddr d (256 * k + i)
/-- R135: an address of the cluster's LTS. -/
def inLtsRange (a : Nat) : Bool := decide (0x10000000 ≤ a) && decide (a < 0x14000000)
/-- R137, R147: the lowest address among those of a stream that lies outside the context's window and is no LTS address. -/
def Ctx.outOfRange (c : Ctx) (addrs : List Nat) : Option Nat :=
  (addrs.filter fun a => !inLtsRange a && !c.inWindow a).min?
/-- R135, R138: the key of an address that a stream of context g reaches: its window of own near store, or LTS. -/
def State.streamKey (s : State) (g a : Nat) : Option Nat :=
  if inLtsRange a then some (ltsKey (clusterOf g) (a - 0x10000000))
  else if decide (a < 0x80000) && (s.ctx g).inWindow a then some (nearKey (coreOf g) a)
  else none

/-- R147, R153, R193: one pushed unit reaches memory: in-range bytes of near store, or LTS with the descriptor's class and
action, but for the addresses that a later push has written. -/
def State.writePush (s : State) (g unit : Nat) (desc : BitVec 512) (data : VWord) (gone : List Nat) : State :=
  let c := s.ctx g
  let cells := (streamUnit desc unit).zipIdx.filterMap fun p =>
    if gone.contains p.1 then none else (s.streamKey g p.1).map fun k => (k, data.extractLsb' (8 * p.2) 8)
  let lts := (u32At desc 0).toNat ≥ 0x10000000
  s.mergeStore cells (some (g % 8, c.kernel)) (if lts then some (u8At desc 0x1C % 8, u8At desc 0x1D % 4) else none)

/-! Paths and footprints of commands (R194, R196). -/

/-- R194: the path bit of a command. -/
def CmdOp.path : CmdOp → Nat
  | .mma _ | .mzero _ | .mret _ _ _ _ _ _ _ _ | .gang _ _ _ | .factor _ | .wstrm _ _ _ | .erht _ _ => 3
  | .cpy _ _ _ | .coll _ _ | .lref _ _ | .lqry _ _ | .phint _ _ _ _ | .pmig _ _ _ | .slide _ _ _ _ => 1
  | .dpath _ _ _ _ _ _ _ => 2
  | .strb _ | .stru _ => 4
  | .fence _ _ _ _ => 5
  | .trig => 6

/-- A range of bytes a command may touch: global (0) or scratch (1), from, to, and whether it writes there. -/
abbrev Foot := Nat × Nat × Nat × Bool

/-- R135: own near store under its cluster address. -/
def normScratch (g a : Nat) : Nat := if a < 0x80000 then 0x1000000 + coreOf g % 4 * 0x80000 + a else a

/-- R135: n bytes of scratch from an address. -/
def scratchFoot (g a n : Nat) (w : Bool) : Foot := (1, normScratch g a, normScratch g a + n, w)
/-- The 4 bytes of a completion word. -/
def wordFoot (g : Nat) (pair : Word) : Foot := scratchFoot g (fld pair 31 0) 4 true
/-- R168: the index entries and scales of a job card's stages, for an input of n bytes, which no stage meets as more than
16 n bytes. -/
def cardFoot (g n : Nat) (card : Option (BitVec 256)) : List Foot :=
  match card with
  | none => []
  | some w => ((List.range 6).map fun j => (u8At w j, (u32At w (8 + 4 * j)).toNat)).filterMap fun q =>
    match q.1 with
    | 1 => some (scratchFoot g q.2 (n / 128) false)
    | 2 => some (scratchFoot g q.2 (n / 8) true)
    | 7 => some (scratchFoot g (q.2 / 16 * 16) (n / 8) false)
    | 8 => some (scratchFoot g (q.2 / 16 * 16) (n / 8) true)
    | _ => none
/-- R168: the most that a job card's stages multiply the bytes of a row by: no stage gives more than 4 for 1, and no two of
them follow one another but EXPAND and one that widens FP8 to FP32. -/
def cardGrowth (card : Option (BitVec 256)) : Nat := if card.isSome then 16 else 1

/-- R196: hulls of the bytes that a command and its job card access, but for the ring slots of matrix products, which
are known only when they are read (State.pathWaits). -/
def CmdOp.foot (g : Nat) (card : Option (BitVec 256)) : CmdOp → List Foot
  | .cpy p _ off =>
    let rb := (u32At p 0x18).toNat
    let rows := u16At p 0x1C
    let planes := u16At p 0x1E
    if rb * rows * planes = 0 then [wordFoot g (u64At p 0x38)] else
    let sLen := (planes - 1) * (u32At p 0x24).toNat + (rows - 1) * (u32At p 0x20).toNat + rb
    let dLen := (planes - 1) * (u32At p 0x2C).toNat + (rows - 1) * (u32At p 0x28).toNat + cardGrowth card * rb
    let at_ (space : Nat) (a : Word) (n : Nat) (w : Bool) : Foot :=
      if space = 0 then (0, (a + off).toNat, (a + off).toNat + n, w) else scratchFoot g (fld a 31 0) n w
    (if u16At p 0 = 0 then [at_ (u8At p 2) (u64At p 8) sLen false] else [])
      ++ [at_ (u8At p 3) (u64At p 0x10) dLen true, wordFoot g (u64At p 0x38)] ++ cardFoot g (rb * rows * planes) card
  | .coll p _ =>
    let n := (u64At p 0x18).toNat * 4 * (u16At p 2 + 1)
    [(0, (u64At p 8).toNat, (u64At p 8).toNat + n, false), (0, (u64At p 0x10).toNat, (u64At p 0x10).toNat + n, true),
      wordFoot g (u64At p 0x38)]
  | .dpath fn _ _ z d a va =>
    [(0, va.toNat, va.toNat + (if z then 8 else 4), fn != 0), wordFoot g (u64At d 16)]
      ++ (if fn = 1 then [] else [scratchFoot g a.toNat 8 true])
  | .lqry _ d => [scratchFoot g d.toNat 8 true]
  | .pmig p _ pair =>
    let size := if u8At p 0xC = 0 then 0x1000 else if u8At p 0xC = 1 then 0x200000 else 0x40000000
    [(0, (u64At p 0).toNat, (u64At p 0).toNat + (u32At p 8).toNat * size, true), wordFoot g pair]
  | .slide inverse va lo hi =>
    [(0, va.toNat, va.toNat + 4096, !inverse), (1, normScratch g lo.toNat, normScratch g hi.toNat, true)]
  | .mret _ lsf layout m n dst pair _ =>
    [scratchFoot g dst.toNat (m * n * (if layout = .bf16 then 2 else 4) + (if lsf then (m * n + 7) / 8 else 0)) true,
      wordFoot g pair]
  | .gang mask _ pair => ((List.range 4).filter fun m => mask.getLsbD m).map fun m =>
      (1, 0x1000000 + m * 0x80000 + fld pair 31 0, 0x1000000 + m * 0x80000 + fld pair 31 0 + 4, true)
  | .factor j =>
    let n := fld j.fgeo 7 0
    let c := fld j.frhs 39 32 + 1
    let hull (a rows cols : Nat) (w : Bool) := scratchFoot g a ((rows - 1) * fld j.fgeo 31 8 + 4 * cols) w
    let rhs := fld j.frhs 31 0
    wordFoot g j.pair :: if j.op = 0x79 then
      [hull j.tile.toNat n n false, if j.opts.getLsbD 3 then hull rhs c n true else hull rhs n c true]
    else hull j.tile.toNat n n true :: if j.op = 0x78 then [scratchFoot g rhs (4 * n) true] else []
  | .wstrm p _ _ => [wordFoot g (u64At p 0x20)]
  | _ => []

/-- R196, R198: two footprints have a byte in common; two reads of one byte are performed in order as well. The spec does not say
whether two virtual addresses of one physical byte are one byte here: the model compares the virtual ones (log entry 7). -/
def footConflict (a b : List Foot) : Bool :=
  a.any fun x => b.any fun y => x.1 == y.1 && x.2.1 < y.2.2.1 && y.2.1 < x.2.2.1

/-- R201: the order of a D-path access holds later accesses or waits for earlier ones. -/
def orderAcquires : DOrder → Bool
  | .acq | .sc => true
  | _ => false
/-- R201: the order releases. -/
def orderReleases : DOrder → Bool
  | .rel | .sc => true
  | _ => false
/-- R194, R200: a command that reads bytes. -/
def CmdOp.reads : CmdOp → Bool
  | .mma _ | .gang _ _ _ | .factor _ | .coll _ _ | .wstrm _ _ _ | .lqry _ _ | .pmig _ _ _ => true
  | .cpy p _ _ => u16At p 0 == 0 || u32At p 0x30 != 0
  | .dpath fn _ _ _ _ _ _ => fn != 1
  | .slide inverse _ _ _ => inverse
  | _ => false
/-- R200: a FENCE with a before set and an order orders a command before what follows it: with ACQ, only reads. -/
def CmdOp.fencedBy (o : CmdOp) (before : BitVec 5) (order : FenceOrder) : Bool :=
  before.getLsbD o.path && (order != .acq || o.reads)
/-- R200: the same of an item of the gated buffer; near stores are on path N and pushes on path S. -/
def GatedItem.fencedBy (i : GatedItem) (before : BitVec 5) (order : FenceOrder) : Bool :=
  match i with
  | .store _ => before.getLsbD 0 && order != .acq
  | .push _ _ _ _ _ => before.getLsbD 4 && order != .acq
  | .cmd op _ => op.fencedBy before order
  | .trig _ => false

/-- R160, R196, R200, R201: a new command of a context must follow an earlier one of it. A FENCE holds every later command
on its after set until what it orders is complete. -/
def mustFollow (g : Nat) (new : CmdOp) (card : Option (BitVec 256)) (old : Cmd) : Bool :=
  match old.op, new with
  | .fence _ a1 _ _, .fence b2 a2 _ _ => (a1 &&& (b2 ||| a2)) != 0
  | .fence _ a1 _ _, n => a1.getLsbD n.path
  | o, .fence b2 _ _ ord => o.fencedBy b2 ord
  | .lref _ _, .cpy _ _ _ => true
  | o, n =>
    (match o, n with
      | .dpath _ o1 _ _ _ _ _, .dpath _ o2 _ _ _ _ _ => orderAcquires o1 || orderReleases o2
      | _, _ => false)
      || (o.path == n.path && footConflict (o.foot g old.card) (n.foot g card))

/-- R196, R200, R201, R226: what a newly released command waits for; a TRIG waits for every command of its task. -/
def State.waitsFor (s : State) (by_ : Issuer) (op : CmdOp) (card : Option (BitVec 256)) : NSet :=
  (s.cmds.filter fun c =>
    if op = .trig then c.by_.kernel == by_.kernel && c.by_.task == by_.task
    else c.by_.g == by_.g && mustFollow by_.g op card c).foldl (fun l c => NSet.add l c.id) []

/-- A command has nothing left to wait for. -/
def State.ready (s : State) (c : Cmd) : Bool := c.waits.all fun i => !(s.cmds.any fun d => d.id == i)

/-- R103: an EWR sets TAIL of a ring of a core. What has been appended in the same cycle comes after it. -/
def State.setTail (s : State) (core ring : Nat) (v : BitVec 32) : State :=
  s.modCore core fun c => { c with tail := AMap.put c.tail ring (v + BitVec.ofNat 32 (AMap.get 0 c.appended ring)) }
/-- R103, R104: a slot is appended to a ring of a core. -/
def State.appendRing (s : State) (core ring : Nat) : State :=
  s.modCore core fun c => { c with
    tail := AMap.put c.tail ring (AMap.get 0 c.tail ring + 1)
    appended := AMap.put c.appended ring (AMap.get 0 c.appended ring + 1) }

/-! The order of a bank (R102, R108, R131). -/

/-- R374: a weight-stream command. -/
def CmdOp.isWstrm : CmdOp → Bool
  | .wstrm _ _ _ => true
  | _ => false

/-- R102: the number of the next unclaimed slot. -/
def Core.nextSlot (k : Core) (ring : Nat) : Nat := ((AMap.get 0 k.head ring).toNat + AMap.get 0 k.held ring) % 2 ^ 32

/-- R115: units of work done by member m of a gang. -/
def Cmd.partDone (c : Cmd) (m : Nat) : Nat := c.prog / 65536 ^ m % 65536
/-- R102, R115: slots of a ring of a core that a product still has to read. -/
def Cmd.wants (c : Cmd) (core ring : Nat) : Nat :=
  let slots (j : MatJob) (done : Nat) : Nat := if j.aring = ring ∨ j.bring = ring then j.count - done else 0
  match c.op with
  | .mma j => if coreOf c.by_.g = core then slots j c.prog else 0
  | .gang _ _ _ => if clusterOf c.by_.g = core / 4 then
      ((c.parts.getD (core % 4) none).map fun j => slots j (c.partDone (core % 4))).getD 0 else 0
  | _ => 0
/-- R102: the bytes of the slots of one ring that the products up to command n still have to read. -/
def State.slotFoot (s : State) (n core ring : Nat) (d : Word) : List Foot :=
  let size := fld d 47 32 * 256
  if ring = 7 then [] else
  (List.range ((s.cmds.filter fun c => decide (c.id ≤ n)).foldl (fun t c => t + c.wants core ring) 0)).map fun i =>
    scratchFoot (2 * core) (fld d 31 0 + ((s.core core).nextSlot ring + i) % fld d 63 48 * size) size false
/-- R102, R115: the ring bytes that a product still has to read, by core and ring. -/
def State.ringFeet (s : State) (c : Cmd) : List ((Nat × Nat) × List Foot) :=
  let feet (core : Nat) (j : MatJob) : List ((Nat × Nat) × List Foot) :=
    [((core, j.aring), s.slotFoot c.id core j.aring j.aDesc), ((core, j.bring), s.slotFoot c.id core j.bring j.bDesc)]
  match c.op with
  | .mma j => feet (coreOf c.by_.g) j
  | .gang _ _ _ => c.parts.zipIdx.flatMap fun p => match p.1 with
    | some j => feet (clusterOf c.by_.g * 4 + p.2) j
    | none => []
  | _ => []
/-- R102, R115: the ring bytes that a product still has to read. -/
def State.productFoot (s : State) (c : Cmd) : List Foot := (s.ringFeet c).flatMap Prod.snd
/-- R196, R198: an earlier command of the same context on path A has yet to access bytes that this one accesses. The slots
of one ring follow the order of its HEAD (R102). -/
def State.pathHolds (s : State) (d c : Cmd) : Bool :=
  decide (d.id < c.id) && d.by_.g == c.by_.g && d.op.path == 3 &&
    (footConflict (s.productFoot d) (c.op.foot c.by_.g none) || footConflict (d.op.foot d.by_.g none) (s.productFoot c)
      || (s.ringFeet d).any fun x => (s.ringFeet c).any fun y => x.1 != y.1 && footConflict x.2 y.2)
/-- R196: some command on path A holds this one. -/
def State.pathWaits (s : State) (c : Cmd) : Bool := s.cmds.any fun d => s.pathHolds d c
/-- R108: two commands work on one bank. -/
def Cmd.sameBank (c d : Cmd) : Bool :=
  (List.range 8).any fun n => c.onBank (clusterOf c.by_.g * 4 + n / 2) (n % 2) && d.onBank (clusterOf c.by_.g * 4 + n / 2) (n % 2)
/-- R108, R131: a command waits for one that waits for the resume of its context: a later command of its run on the bank of
a factor command in the save slot, a later command of any context on the bank of another, and a later command that it
orders. -/
def State.stuckOn (s : State) (d c : Cmd) : Bool :=
  c.waits.contains d.id || s.pathHolds d c
    || (decide (d.id < c.id) && d.sameBank c && (!d.parked || (d.by_.g == c.by_.g && d.by_.gen == c.by_.gen)))
/-- R131: the commands that wait for the resume of a saved context: the factor commands in its slot, and what follows
them. -/
def State.stuck (s : State) : NSet :=
  if !s.cmds.any Cmd.parked then [] else
  s.cmds.foldl (fun l c =>
    if c.parked || s.cmds.any fun d => l.contains d.id && s.stuckOn d c then NSet.add l c.id else l) []
/-- R108: the first command of a bank in release order, beside those that wait for the resume of a saved context. -/
def State.bankHead (s : State) (core bank : Nat) : Option Cmd :=
  let held := s.stuck
  s.cmds.find? fun c => c.onBank core bank && !held.contains c.id

/-- R226: TRIG of a task; it counts in the last phase only (R215). -/
def State.trigger (s : State) (by_ : Issuer) : State :=
  match by_.kernel with
  | none => s
  | some k => s.modKernel k fun x =>
    if x.phase = u32At x.desc 0x24 - 1 then { x with triggered := x.triggered.add by_.task.toNat } else x

/-- Changes a command. -/
def State.modCmd (s : State) (id : Nat) (f : Cmd → Cmd) : State :=
  { s with cmds := s.cmds.map fun d => if d.id = id then f d else d }

/-- R200, R374: a released packet that no FENCE holds reaches its streamer. -/
def State.reaches (s : State) (c : Cmd) : Bool :=
  c.op.isWstrm && c.ord == 0 && !(s.cmds.any fun d => c.waits.contains d.id && match d.op with
    | .fence _ _ _ _ => true
    | _ => false)
/-- R200: the units that a run of a context has prefetched go, those in its save slot as well. -/
def State.forgetUnits (s : State) (i : Issuer) : State :=
  match (AMap.find s.ce.saved i.g).filter fun v => v.gen == i.gen with
  | some v => { s with ce := { s.ce with saved := AMap.put s.ce.saved i.g { v with stale := true } } }
  | none => if (s.ctx i.g).gen = i.gen then s.modCtx i.g Ctx.dropUnits else s
/-- R13: a context is frozen for a debugger. -/
def Ctx.debugFrozen (c : Ctx) : Bool := c.state == .frozen && c.freeze == some .debug
/-- R256, R257: a context of a core is stopped for its debugger, or in a debug step, with ATTACH set. -/
def State.tied (s : State) (core : Nat) : Bool :=
  [2 * core, 2 * core + 1].any fun g => (s.ctx g).attach && ((s.ctx g).debugFrozen || (s.ctx g).step)
/-- R257: an engine of a core (0 the array, 1 the copy unit, 2 the streams) may take a step: its core is not tied, or a debug
step has given it one (log entry 17). -/
def State.mayPace (s : State) (core engine : Nat) : Bool := !s.tied core || (s.core core).pace.contains engine
/-- R257: an engine of a tied core takes its step. -/
def State.spendPace (s : State) (core engine : Nat) : State :=
  if s.tied core then s.modCore core fun k => { k with pace := k.pace.del engine } else s
/-- R107, R184, R257: the engine whose step a command that takes effect at release takes: the array for MZERO, the copy unit for
PHINT and for an LREF of no row group. -/
def CmdOp.releaseEngine : CmdOp → Option Nat
  | .mzero _ => some 0
  | .phint _ _ _ _ | .lref _ 0 => some 1
  | _ => none
/-- R103, R107, R146, R184, R200, R226, R374: commands that take effect at release, once nothing holds them; MZERO in its
bank's order. Units fetched before a FENCE that orders later pops go. A weight-stream packet reaches its streamer. -/
def State.settleReady (s : State) (c : Cmd) : State :=
  match c.op with
  | .erht r v => { s.setTail (coreOf c.by_.g) r v with cmds := s.cmds.filter fun d => d.id != c.id }
  | .fence _ after _ _ =>
    let s1 : State := { s with cmds := s.cmds.filter fun d => d.id != c.id }
    if after.getLsbD 4 then s1.forgetUnits c.by_ else s1
  | .lref _ 0 | .strb _ | .stru _ => { s with cmds := s.cmds.filter fun d => d.id != c.id }
  | .mzero b =>
    let core := coreOf c.by_.g
    if (s.bankHead core b).map Cmd.id == some c.id then
      let s1 := (s.clearBank core b).giveGathered core b c.by_
      { s1 with cmds := s1.cmds.filter fun d => d.id != c.id }
    else s
  | .trig => ({ s with cmds := s.cmds.filter fun d => d.id != c.id }).trigger c.by_
  | .phint ac ti va len =>
    { s with
      cmds := s.cmds.filter fun d => d.id != c.id
      edge := { s.edge with hints := if len = 0 then s.edge.hints else s.edge.hints ++ [(ac, ti, va, len)] } }
  | _ => s

/-- R102, R257: a command that takes effect at release and that an engine of its core has still to perform: nothing holds it. -/
def State.releaseDue (s : State) (c : Cmd) : Bool :=
  s.ready c && match c.op with
    | .mzero b => (s.bankHead (coreOf c.by_.g) b).map Cmd.id == some c.id
    | o => o.releaseEngine.isSome
/-- R257, R374: a weight-stream packet reaches its streamer; any other command is settled, that of an engine of a tied core only
when a debug step lets the engine take a step. -/
def State.settleOne (s : State) (c : Cmd) : State :=
  if s.reaches c then s.modCmd c.id fun d => { d with ord := s.cycle + 1 } else
  if !s.ready c then s else
  match c.op.releaseEngine with
  | none => s.settleReady c
  | some e =>
    let core := coreOf c.by_.g
    if s.releaseDue c && s.mayPace core e then (s.spendPace core e).settleReady c else s
/-- Commands that take effect at release are settled in release order. -/
def State.settle (s : State) : State := s.cmds.foldl State.settleOne s

/-- A command is complete: it leaves, and what it held goes on. -/
def State.finish (s : State) (id : Nat) : State :=
  ({ s with cmds := s.cmds.filter fun d => d.id != id }).settle

/-- R119: a factor command. -/
def CmdOp.isFactor : CmdOp → Bool
  | .factor _ => true
  | _ => false

/-- A command as it is released. -/
def Cmd.new (id : Nat) (by_ : Issuer) (op : CmdOp) (waits : NSet) : Cmd :=
  ⟨id, by_, op, waits, 0, none, 0, 0, [], 0, none, none, none, 0, 0, none, [], [], none, 0, false⟩
/-- R233: the number of an agent: task, segment and spawn index. -/
def Issuer.agent (i : Issuer) : Nat := i.task.toNat * 4096 + i.segno.toNat * 16 + i.spawn
/-- R313: a D-path atomic. -/
def CmdOp.isAtomic : CmdOp → Bool
  | .dpath fn _ _ _ _ _ _ => decide (2 ≤ fn)
  | _ => false
/-- R233: the ordinal of a D-path atomic among those its agent has released in its segment. -/
def State.takeOrdinal (s : State) (by_ : Issuer) (op : CmdOp) : Nat × State :=
  if !op.isAtomic then (0, s) else
  match by_.kernel.bind s.kernel, by_.kernel with
  | some k, some kid =>
    let n := AMap.get 0 k.ordinals by_.agent
    (n, s.modKernel kid fun x => { x with ordinals := AMap.put x.ordinals by_.agent (n + 1) })
  | _, _ => (0, s)

/-- R138, R168: the job card of a copy, read when the copy is released. -/
def State.cardOf (s : State) (by_ : Issuer) (op : CmdOp) : Option (BitVec 256) :=
  match op with
  | .cpy p _ _ =>
    let a := (u32At p 0x30).toNat
    if a = 0 ∨ a < by_.lo.toNat ∨ by_.hi.toNat < a + 31 then none
    else some (BitVec.ofNat 256 (readNat s.mem (nearKey (coreOf by_.g) a) 32))
  | _ => none

/-- R299: a COLL of the same rank with the same tag is in flight. -/
def State.collTwice (s : State) (by_ : Issuer) (op : CmdOp) : Bool :=
  match op with
  | .coll p _ => s.cmds.any fun d => match d.op with
    | .coll q _ => u32At q 0x28 == u32At p 0x28 && u16At q 4 == u16At p 4 && d.by_.part == by_.part
    | _ => false
  | _ => false
/-- R59, R129, R196, R299: a command leaves the gated buffer for its path; the release of a factor command clears FSTAT. -/
def State.releaseCmd (s : State) (by_ : Issuer) (op : CmdOp) : State :=
  let s := if op.isFactor && (s.ctx by_.g).gen == by_.gen then
      s.modCtx by_.g fun x => { x with fstat := 0, fdone := false } else s
  let gang := match op with
    | .gang mask j _ => (s.gangParts by_ mask j, s.gangFailed by_ mask j)
    | _ => ([], 0)
  let n := s.takeOrdinal by_ op
  let card := s.cardOf by_ op
  let c : Cmd := { Cmd.new s.nextCmd by_ op (s.waitsFor by_ op card) with
    status := (s.collTwice by_ op).toNat
    parts := gang.1, failed := gang.2, due := gang.2, ord := n.1, card := card }
  (({ n.2 with cmds := s.cmds ++ [c], nextCmd := s.nextCmd + 1 }).releaseBank by_ op).settle

/-- R14, R193, R239, R248: one item of the gated buffer takes effect. A store reaches memory here, before any later command of
its segment: R196 lets that command read the old bytes too, and the model always gives it the new ones (log entry 7). -/
def State.releaseItem (s : State) (g : Nat) (i : GatedItem) : State :=
  match i with
  | .store bs =>
    s.mergeCells (bs.map fun p => (nearKey (coreOf g) p.1, p.2))
  | .push _ unit desc data gone => s.writePush g unit desc data gone
  | .cmd op by_ => s.releaseCmd by_ op
  | .trig by_ => s.releaseCmd by_ .trig
/-- R12, R206, R248: what the bundles of a core have written at issue in this cycle takes effect. -/
def State.landLate (s : State) : State :=
  s.late.foldl (fun t p => t.releaseItem p.1 p.2) { s with late := [] }

end Sys2Proof.Machine
end

