-- ==== Sys2Proof/Machine/Operands.lean ====
section
/-!
DEFINITION. Operand forms: the slots of R64, scalar, vector, predicate and stream sources, results, lanes and
predication, near-store addresses, and the gated buffer.
-/

namespace Sys2Proof.Machine

/-! Slots (R38, R64). -/

/-- R64: slots S and T. -/
def slotScalar (n : Nat) : Bool := n == 1 || n == 2
/-- R64: slots V and W. -/
def slotVector (n : Nat) : Bool := n == 4 || n == 5

/-- R64, R71: the instruction has its effect in a slot that may hold it and is ILLEGAL elsewhere. -/
def inSlot (ok : Nat → Bool) (s : State) (k : State → State) : Res :=
  .next (if ok s.slot then k s else s.illegal)

/-- A scalar instruction, slots S and T. -/
def inST (s : State) (k : State → State) : Res := inSlot slotScalar s k
/-- A near-store instruction, slot M. -/
def inM (s : State) (k : State → State) : Res := inSlot (· == 3) s k
/-- A vector instruction, slots V and W. -/
def inVW (s : State) (k : State → State) : Res := inSlot slotVector s k
/-- A slot-W instruction. -/
def inW (s : State) (k : State → State) : Res := inSlot (· == 5) s k
/-- A transform instruction, slot X. -/
def inX (s : State) (k : State → State) : Res := inSlot (· == 6) s k
/-- A control instruction, slot C. -/
def inC (s : State) (k : State → State) : Res := inSlot (· == 0) s k
/-- An engine instruction, slot E. -/
def inE (s : State) (k : State → State) : Res := inSlot (· == 7) s k

/-! Sources. -/

/-- R50: a scalar source, read at issue. -/
def State.rs (s : State) (r : BitVec 5) : Word := s.me.arch.s r.toNat
/-- R50: a predicate source. -/
def State.rp (s : State) (r : BitVec 3) : PWord := s.me.arch.p r.toNat

/-- R52: the binding of a vector register's name, if a stream is bound to it. -/
def Arch.bound (a : Arch) (r : Nat) : Option Stream := if r < 24 then none else AMap.find a.streams (r - 24)

/-- R52, R56, R146 to R148: a vector source of an instruction with landing latency l (1 for one that writes no register):
the register, or the unit that the bundle pops from a read stream. An empty stream stalls, a bad unit raises its cause, a
write stream is ILLEGAL. -/
def State.readV (s : State) (l : Nat) (r : BitVec 5) (k : VWord → State → State) : State :=
  match s.me.arch.bound r.toNat with
  | none => k (s.me.arch.v r.toNat) s
  | some st =>
    if st.write then s.illegal else
    match (AMap.get [] s.me.units (r.toNat - 24)).head? with
    | none => s.stall
    | some u =>
      match u.bad with
      | some c => s.raise { c with bndl := s.iss.parcel, slot := s.slot, rep := s.iss.rep, issued := s.me.arch.tick }
      | none =>
        let s1 := match s.iss.pops.contains (r.toNat - 24), u.spv with
          | false, some a => s.spvAt l a
          | _, _ => s
        k u.data (s1.modIss fun i => { i with pops := i.pops.add (r.toNat - 24) })

/-! FMT (R60). -/

/-- R60: FMT.RM; 6 and 7 never stand in FMT (R44, R220). -/
def fmtRm (f : BitVec 32) : RMode :=
  match fld f 12 10 with
  | 0 => .rne | 1 => .rtz | 2 => .rdn | 3 => .rup | 4 => .rna | _ => .sr
/-- R60: the window of AWIN in bits. -/
def awinBits (code : Nat) : Nat := [24, 32, 40, 48, 56, 64, 80, 96].getD code 96
/-- R60: FMT.SATF. -/
def fmtSatf (f : BitVec 32) : Bool := f.getLsbD 13
/-- R60: FMT.F8, true for E5M2. -/
def fmtF8 (f : BitVec 32) : Bool := f.getLsbD 9
/-- R60: FMT.H16, true for FP16. -/
def fmtH16 (f : BitVec 32) : Bool := f.getLsbD 8
/-- R44: a value that SETFMT accepts. -/
def fmtLegal (f : BitVec 32) : Bool := fld f 31 21 == 0 && fld f 12 10 < 6

/-! The gated buffer (R239). -/

/-- R239: items that take a store entry. -/
def GatedItem.isStore : GatedItem → Bool
  | .store _ | .push _ _ _ _ _ => true
  | _ => false
/-- R239: items that take a command entry; STRB and STRU among them. -/
def GatedItem.isCommand : GatedItem → Bool
  | .cmd _ _ => true
  | _ => false

/-- R194: the issuer of the bundle in execution. -/
def State.issuer (s : State) : Issuer :=
  let c := s.me
  let k := c.kernel.bind s.kernel
  ⟨s.cur, c.gen, c.kernel, (k.map Kernel.part).getD 0, c.task, c.phase, c.segno, c.spawn,
    (k.map fun x => (u8At x.desc 0x23).testBit 0).getD false, (k.map fun x => u8At x.desc 0x21 == 1).getD false,
    s.iss.parcel, s.iss.rep, c.arch.tick, c.splo, c.sphi⟩

/-- R239, R248: an entry of the gated buffer. A full buffer stalls the bundle while an older segment is unsealed, and
raises SEGOVF otherwise. In a handler the item takes effect at issue and takes no entry: a push when both contexts of the core
have had their turn of the cycle (R12), over what earlier pushes of the context still hold (R196). -/
def State.gate (s : State) (item : GatedItem) : State :=
  let c := s.me
  let used := (c.gated.filter fun e => e.item.isStore == item.isStore && e.item.isCommand == item.isCommand).length
  let full := (item.isStore && Config.gatedStores ≤ used) || (item.isCommand && Config.gatedCommands ≤ used)
  if c.intrap then match item with
    | .push _ unit desc _ _ =>
      ({ s with late := s.late ++ [(s.cur, item)] } : State).modCtx s.cur fun x => x.overwritePushes (streamUnit desc unit)
    | _ => s.releaseItem s.cur item
  else if full then
    if c.gated.any (fun e => e.seg < (if s.iss.opened then c.serial - 1 else c.serial)) then s.stall
    else s.raise (s.slotCause 0x02 (if item.isStore then 0 else 1) 0)
  else s.modCtx s.cur fun x => { x with gated := x.gated ++ [⟨x.serial, x.arch.tick, item⟩] }

/-- R137, R139, R248: a near-store store of bytes at addresses: gated, and in a handler written when the bundle has
issued. Bytes out of range are dropped and flagged. -/
def State.storeNear (s : State) (cells : List (Nat × Byte)) : State :=
  let c := s.me
  let inside := cells.filter fun p => c.inWindow p.1
  let s1 := s.rangeFlags 1 (cells.map Prod.fst)
  if c.intrap then s1.modIss fun i => { i with direct := i.direct ++ inside }
  else s1.gate (.store inside)

/-! Vector results. -/

/-- R137, R303: the push of a unit that leaves the ranges of a stream sets SPV at tick l from issue. -/
def State.pushSpv (s : State) (l : Nat) (st : Stream) : State :=
  (s.me.outOfRange (streamUnit st.desc st.pos)).elim s (s.spvAt l)

/-- R40, R51, R146: a vector result on some byte lanes: lands L ticks on, or is pushed into a bound write stream. The spec
does not say when the flags of an instruction whose destination is a bound write stream are set: the model sets them at
its landing tick, L ticks on (log entry 57). -/
def State.landV (s : State) (l : Nat) (d : BitVec 5) (mask : PWord) (v : VWord) : State :=
  match s.me.arch.bound d.toNat with
  | none => s.landAt l .vector d.toNat mask v none
  | some st =>
    if !st.write then s.illegal
    else if streamTotal st.desc ≤ 256 * st.pos then s.stall
    else
      let q := d.toNat - 24
      let data := merge (s.me.arch.v d.toNat) v (byteMask mask)
      let s1 := (s.pushSpv l st).gate (.push q st.pos st.desc data [])
      if s1.iss.verdict = .ok then
        s1.modArch s1.cur fun a => { a with streams := AMap.put a.streams q { st with pos := st.pos + 1 } }
      else s1

/-- R40, R146, R245: a loaded vector: it lands with the poison it met. Into a bound write stream its bytes are pushed, and
the poison is recognised at the landing tick all the same, though no register is written. -/
def State.landLoaded (s : State) (l : Nat) (d : BitVec 5) (mask : PWord) (v : VWord) (bad : Option Word) : State :=
  match s.me.arch.bound d.toNat with
  | none => s.landAt l .vector d.toNat mask v bad
  | some _ =>
  let s1 := s.landV l d mask v
  if bad.isSome && s1.iss.verdict == .ok then s1.landAt l .vector d.toNat 0 0 bad else s1

/-- R146: a destination that names a bound read stream is ILLEGAL, judged before anything else of the slot. -/
def State.checkDst (s : State) (d : BitVec 5) (k : State → State) : State :=
  match s.me.arch.bound d.toNat with
  | some st => if st.write then k s else s.illegal
  | none => k s

/-! Lanes (R50, R51). -/

/-- R50: element i of a vector. -/
def lane (w : EW) (v : VWord) (i : Nat) : Nat := (v.extractLsb' (w.bits * i) w.bits).toNat
/-- R50: the elements of a vector. -/
def lanes (w : EW) (v : VWord) : List Nat := (List.range w.count).map (lane w v)
/-- Packs values of so many bits, the first lowest. -/
def packNat (b : Nat) (l : List Nat) : Nat := l.foldr (fun x acc => acc * 2 ^ b + x % 2 ^ b) 0
/-- R50: a vector from its elements. -/
def pack (w : EW) (l : List Nat) : VWord := BitVec.ofNat 2048 (packNat w.bits l)
/-- R51: element i is active under a predicate value. -/
def activeLane (w : EW) (p : PWord) (i : Nat) : Bool := p.getLsbD (w.bytes * i)
/-- R51: the byte lanes of the elements for which a condition holds. -/
def laneMask (w : EW) (f : Nat → Bool) : PWord :=
  BitVec.ofNat 256 (packNat w.bytes ((List.range w.count).map fun i => if f i then 2 ^ w.bytes - 1 else 0))
/-- R51: the byte lanes of the active elements. -/
def activeMask (w : EW) (p : PWord) : PWord := laneMask w (activeLane w p)
/-- All byte lanes. -/
def allLanes : PWord := BitVec.allOnes 256
/-- The signed value of w bits. -/
def signed (b x : Nat) : Int := if 2 * x < 2 ^ b then x else (x : Int) - 2 ^ b
/-- The low w bits of an integer. -/
def wrap (b : Nat) (x : Int) : Nat := (x % 2 ^ b).toNat

/-- R51: a one-source vector operation by element. -/
def State.vmap1 (s : State) (l : Nat) (vd va : BitVec 5) (pg : BitVec 3) (w : EW) (f : Nat → Nat) : State :=
  s.checkDst vd fun s => s.readV l va fun x s =>
    s.landV l vd (activeMask w (s.rp pg)) (pack w ((lanes w x).map f))
/-- R51: a two-source vector operation by element. -/
def State.vmap2 (s : State) (l : Nat) (vd va vb : BitVec 5) (pg : BitVec 3) (w : EW) (f : Nat → Nat → Nat) : State :=
  s.checkDst vd fun s => s.readV l va fun x s => s.readV l vb fun y s =>
    s.landV l vd (activeMask w (s.rp pg)) (pack w (List.zipWith f (lanes w x) (lanes w y)))
/-- R366: a vector operation with a broadcast scalar. -/
def State.vmapX (s : State) (l : Nat) (vd va sb : BitVec 5) (pg : BitVec 3) (w : EW) (f : Nat → Nat → Nat) : State :=
  s.checkDst vd fun s => s.readV l va fun x s =>
    let y := (s.rs sb).toNat % 2 ^ w.bits
    s.landV l vd (activeMask w (s.rp pg)) (pack w ((lanes w x).map fun e => f e y))
/-- R51: a compare into every predicate bit of the active elements' byte lanes. -/
def State.vcmp (s : State) (l : Nat) (pd : BitVec 3) (va vb : BitVec 5) (pg : BitVec 3) (w : EW)
    (f : Nat → Nat → Bool) : State :=
  s.readV l va fun x s => s.readV l vb fun y s =>
    s.landP l pd.toNat (activeMask w (s.rp pg)) (laneMask w fun i => f (lane w x i) (lane w y i))

/-! Addresses (R66). -/

/-- R66: base plus signed offset in units of the size, in 32 bits. -/
def nearAddr (base : Word) (off : BitVec 12) (size : Nat) : Nat :=
  (base.truncate 32 + (off.signExtend 32) * BitVec.ofNat 32 size : BitVec 32).toNat
/-- R66: an address aligned down. -/
def alignDown (a n : Nat) : Nat := a / n * n
/-- The n addresses from one, in 32 bits. -/
def addrsFrom (a n : Nat) : List Nat := (List.range n).map fun i => (a + i) % 2 ^ 32

end Sys2Proof.Machine
end

