-- ==== Sys2Proof/Machine/Begin.lean ====
section
/-!
DEFINITION. What a context starts with, at the pickup of a record or at a SPAWN (R17, R23), and the fields of a kernel
descriptor (R219).
-/

namespace Sys2Proof.Machine

/-! R219: fields of the descriptor. -/

/-- The code base. -/
def Kernel.codeBase (k : Kernel) : Nat := (u32At k.desc 0x0C).toNat
/-- Code bytes. -/
def Kernel.codeBytes (k : Kernel) : Nat := (u32At k.desc 0x08).toNat
/-- Phased mode. -/
def Kernel.phased (k : Kernel) : Bool := u8At k.desc 0x21 == 1
/-- Supervisor. -/
def Kernel.supv (k : Kernel) : Bool := (u8At k.desc 0x23).testBit 0
/-- RECORD, in free mode only (R233). -/
def Kernel.records (k : Kernel) : Bool := !k.phased && (u8At k.desc 0x23).testBit 1
/-- REPLAY, in free mode only. -/
def Kernel.replays (k : Kernel) : Bool := !k.phased && (u8At k.desc 0x23).testBit 2
/-- The spawn reservation mask (R26). -/
def Kernel.spawnMask (k : Kernel) : Nat := u8At k.desc 0x22
/-- The number of the last phase. -/
def Kernel.lastPhase (k : Kernel) : BitVec 32 := u32At k.desc 0x24 - 1
/-- The LTS window as offsets in the cluster's LTS, and whether an address lies in it. -/
def Kernel.inLts (k : Kernel) (a : Nat) : Bool := (u32At k.desc 0x74).toNat ≤ a && a ≤ (u32At k.desc 0x78).toNat

/-- The kernel a context runs. -/
def State.myKernel (s : State) (g : Nat) : Option Kernel := (s.ctx g).kernel.bind s.kernel
/-- A context is supervisor (R54). -/
def State.isSupv (s : State) (g : Nat) : Bool := ((s.myKernel g).map Kernel.supv).getD false
/-- A context runs a phased kernel. -/
def State.isPhased (s : State) (g : Nat) : Bool := ((s.myKernel g).map Kernel.phased).getD false

/-- R17, R23: RNGCTR of a context that starts. -/
def startCounter (task : BitVec 10) (phase : BitVec 32) (segno : BitVec 8) (spawn : Nat) : Word :=
  ((task.zeroExtend 64 : Word) <<< 54) ||| (((phase.truncate 22 : BitVec 22).zeroExtend 64 : Word) <<< 32)
    ||| ((segno.zeroExtend 64 : Word) <<< 24) ||| (BitVec.ofNat 64 spawn <<< 20)

/-- R17: the visible state that a pickup or a SPAWN sets; the debug controls are not touched. Until its first proof has
sealed, the record itself is what a strike returns the context to (R242). -/
def Ctx.start (old : Ctx) (g : Nat) (desc : VWord) (kernel gen : Nat) (task : BitVec 10) (phase : BitVec 32)
    (segno : BitVec 8) (spawn : Nat) (pc fmt : BitVec 32) (args : List Word) : Ctx :=
  let x := g % 2
  let base := u32At desc (if x = 0 then 0x58 else 0x60)
  let regs : AMap Word := args.zipIdx.foldl (fun m p => AMap.put m (p.2 + 1) p.1) []
  let a : Arch := { Arch.reset with
    sreg := regs
    pc := pc
    fmt := fmt
    rngkey := u64At desc 0x38
    rngctr := startCounter task phase segno spawn
    tvec := u32At desc 0x40
    tstk := u32At desc (if x = 0 then 0x44 else 0xAC)
    stktop := base
    stkbase := base }
  { Ctx.reset with
    arch := a
    state := .running
    kernel := some kernel
    gen := gen
    task := task
    phase := phase
    segno := segno
    spawn := spawn
    splo := u32At desc (if x = 0 then 0x48 else 0x50)
    sphi := u32At desc (if x = 0 then 0x4C else 0x54)
    stklim := u32At desc (if x = 0 then 0x5C else 0x64)
    stkovf := (u64At desc 0x68 + BitVec.ofNat 64 ((u32At desc 0x70).toNat * g)) &&& 0x1FFFFFFFFFFFFFF
    bankZero := true
    captured := some ⟨a, 0, 0, .proof⟩
    proofpc := pc
    fresh := true
    halt := old.halt
    attach := old.attach
    present := old.present
    bps := old.bps }

/-- R20: contexts spawned by a run of a context that have not ended, wherever their state is. One that a debugger has
released never ends (R249). The spec does not say what holds the DONE of a spawned context, which is itself spawned under its
task: in the model the contexts that it has spawned itself hold it, neither it nor its fellows (log entry 92). -/
def State.hasChildren (s : State) (g gen : Nat) : Bool :=
  s.ctxs.any (fun p => p.2.parent == some (g, gen)) || s.ce.saved.any (fun p => p.2.parent == some (g, gen))
    || s.ce.lost.contains (g, gen)

/-! Plate and stencil images (R18, R33, R219). -/

/-- R219: the plates that a plate image names: a bitmap, then the plates in ascending order. -/
def plateImage (m : Memory) (addr : Nat) : AMap (BitVec 256) :=
  if addr = 0 then [] else
  let named := (List.range 512).filter fun n =>
    n != 0 && (m.read (physKey (addr + n / 8))).toNat.testBit (n % 8)
  named.zipIdx.map fun p => (p.1, BitVec.ofNat 256 (readNat m (physKey (addr + 64 + 32 * p.2)) 32))
/-- R219: the stencils that a stencil mask names, in ascending order. -/
def stencilImage (m : Memory) (addr mask : Nat) : AMap (BitVec 28672) :=
  ((List.range 8).filter fun n => mask.testBit n).zipIdx.map fun p =>
    (p.1, BitVec.ofNat 28672 (readNat m (physKey (addr + 3584 * p.2)) 3584))
/-- R18: the images of a kernel are loaded into a core. -/
def State.loadImages (s : State) (core kid : Nat) : State :=
  match s.kernel kid with
  | none => s
  | some k => s.modCore core fun c => { c with
      plates := plateImage s.mem (u64At k.desc 0x10).toNat
      stencils := stencilImage s.mem (u64At k.desc 0x18).toNat (u8At k.desc 0x20)
      bnWrites := []
      loaded := some kid }
/-- R18: while the images of a kernel are still to be loaded into a core, the sibling of the context that brings it is IDLE or
RESERVED for that kernel. A context that is saved is IDLE. -/
def State.imagesFree (s : State) (g kid : Nat) : Bool :=
  let o := s.ctx (sibling g)
  o.state == .idle || (o.state == .reserved && s.reservedBy (sibling g) == some kid)
/-- R18: where the images of a kernel are loaded, the sibling issues plates of no other kernel: it is at rest, runs the same
kernel, or a SPAWN has claimed it and it has not begun (log entry 80). -/
def State.imagesShared (s : State) (g kid : Nat) : Bool :=
  let o := s.ctx (sibling g)
  o.state == .idle || o.state == .reserved || o.kernel == some kid || o.startSeg.isSome
/-- R18: a context may pick up a record of a kernel, or resume a saved context of it. -/
def State.imagesFit (s : State) (g kid : Nat) : Bool :=
  if (s.core (coreOf g)).loaded = some kid then s.imagesShared g kid else s.imagesFree g kid
/-- R18, R23: a context that a SPAWN has claimed may begin with a kernel. Of two siblings that SPAWNs have claimed, either may
load its images and begin first; with another kernel the other waits until that one is at rest. Of a sibling that rests RESERVED
for another kernel the spec says nothing here: the model takes R18's rule for a pickup, and the claimed context waits until the
reservation ends (log entry 80). -/
def State.spawnFit (s : State) (g kid : Nat) : Bool :=
  s.imagesFit g kid || (s.ctx (sibling g)).startSeg.isSome

end Sys2Proof.Machine
end

