-- ==== Sys2Proof/Machine/Scalar.lean ====
section
/-!
DEFINITION. Scalar integer instructions (R289, R290, R293, R297, R298, R303, R318, R319, R325, R334), slots S and T.
-/

namespace Sys2Proof.Machine

/-- R289, R325, R303: a three-register scalar operation with its latency. -/
def State.scalar3 (s : State) (l : Nat) (d a b : BitVec 5) (f : Word → Word → Word) : State :=
  s.landS l d.toNat (f (s.rs a) (s.rs b))
/-- R290: an operation with a sign-extended immediate. -/
def State.scalarI (s : State) (d a : BitVec 5) (imm : BitVec 15) (f : Word → Word → Word) : State :=
  s.landS 1 d.toNat (f (s.rs a) (imm.signExtend 64))
/-- R297: an operation on one register. -/
def State.scalar2 (s : State) (l : Nat) (d a : BitVec 5) (f : Word → Word) : State := s.landS l d.toNat (f (s.rs a))

/-- A truth value as 1 or 0. -/
def bit01 (c : Bool) : Word := if c then 1 else 0

/-- R303: the quotient or remainder of a signed division, toward zero, with its corners. -/
def divSigned (wantQ : Bool) (x y : Word) : Word :=
  if y = 0 then (if wantQ then BitVec.allOnes 64 else x)
  else if wantQ then BitVec.ofInt 64 (Int.tdiv x.toInt y.toInt) else BitVec.ofInt 64 (Int.tmod x.toInt y.toInt)
/-- R303: the quotient or remainder of an unsigned division. -/
def divUnsigned (wantQ : Bool) (x y : Word) : Word :=
  if y = 0 then (if wantQ then BitVec.allOnes 64 else x)
  else if wantQ then BitVec.ofNat 64 (x.toNat / y.toNat) else BitVec.ofNat 64 (x.toNat % y.toNat)

/-- R297: leading zero bits of a value of w bits. -/
def leadingZeros : Nat → Nat → Nat
  | 0, _ => 0
  | w + 1, x => if x.testBit w then 0 else 1 + leadingZeros w x
/-- R297: trailing zero bits, at most so many. -/
def trailingZeros : Nat → Nat → Nat
  | 0, _ => 0
  | w + 1, x => if x % 2 = 1 then 0 else 1 + trailingZeros w (x / 2)
/-- R297: one bits among so many. -/
def popCount : Nat → Nat → Nat
  | 0, _ => 0
  | w + 1, x => x % 2 + popCount w (x / 2)

/-- R293: the field length of a BEXT or BINS. -/
def fieldLen (b : Word) : Nat := min (fld b 14 8) 64
/-- R293: BEXT. -/
def bitExtract (a b : Word) : Word := BitVec.ofNat 64 ((a.toNat >>> fld b 5 0) % 2 ^ fieldLen b)
/-- R293: BINS. -/
def bitInsert (d a b : Word) : Word :=
  merge d (a <<< fld b 5 0) (BitVec.ofNat 64 ((2 ^ fieldLen b - 1) <<< fld b 5 0))

/-- R289: ADD. -/
def execAdd (d a b : BitVec 5) (s : State) : Res := inST s fun s => s.scalar3 1 d a b fun x y => x + y
/-- R289: SUB. -/
def execSub (d a b : BitVec 5) (s : State) : Res := inST s fun s => s.scalar3 1 d a b fun x y => x - y
/-- R289: AND. -/
def execAnd (d a b : BitVec 5) (s : State) : Res := inST s fun s => s.scalar3 1 d a b fun x y => x &&& y
/-- R289: OR. -/
def execOr (d a b : BitVec 5) (s : State) : Res := inST s fun s => s.scalar3 1 d a b fun x y => x ||| y
/-- R289: XOR. -/
def execXor (d a b : BitVec 5) (s : State) : Res := inST s fun s => s.scalar3 1 d a b fun x y => x ^^^ y
/-- R289: SLL. -/
def execSll (d a b : BitVec 5) (s : State) : Res := inST s fun s => s.scalar3 1 d a b fun x y => x <<< fld y 5 0
/-- R289: SRL. -/
def execSrl (d a b : BitVec 5) (s : State) : Res := inST s fun s => s.scalar3 1 d a b fun x y => x >>> fld y 5 0
/-- R289: SRA. -/
def execSra (d a b : BitVec 5) (s : State) : Res := inST s fun s => s.scalar3 1 d a b fun x y => x.sshiftRight (fld y 5 0)
/-- R289: SLT. -/
def execSlt (d a b : BitVec 5) (s : State) : Res := inST s fun s => s.scalar3 1 d a b fun x y => bit01 (x.slt y)
/-- R289: SLTU. -/
def execSltu (d a b : BitVec 5) (s : State) : Res := inST s fun s => s.scalar3 1 d a b fun x y => bit01 (x.ult y)
/-- R289: MIN. -/
def execMin (d a b : BitVec 5) (s : State) : Res := inST s fun s => s.scalar3 1 d a b fun x y => if x.slt y then x else y
/-- R289: MAX. -/
def execMax (d a b : BitVec 5) (s : State) : Res := inST s fun s => s.scalar3 1 d a b fun x y => if x.slt y then y else x
/-- R289: MINU. -/
def execMinu (d a b : BitVec 5) (s : State) : Res := inST s fun s => s.scalar3 1 d a b fun x y => if x.ult y then x else y
/-- R289: MAXU. -/
def execMaxu (d a b : BitVec 5) (s : State) : Res := inST s fun s => s.scalar3 1 d a b fun x y => if x.ult y then y else x
/-- R290: ADDI. -/
def execAddi (d a : BitVec 5) (imm : BitVec 15) (s : State) : Res := inST s fun s => s.scalarI d a imm fun x k => x + k
/-- R290: ANDI. -/
def execAndi (d a : BitVec 5) (imm : BitVec 15) (s : State) : Res := inST s fun s => s.scalarI d a imm fun x k => x &&& k
/-- R290: ORI. -/
def execOri (d a : BitVec 5) (imm : BitVec 15) (s : State) : Res := inST s fun s => s.scalarI d a imm fun x k => x ||| k
/-- R290: XORI. -/
def execXori (d a : BitVec 5) (imm : BitVec 15) (s : State) : Res := inST s fun s => s.scalarI d a imm fun x k => x ^^^ k
/-- R290: SLTI. -/
def execSlti (d a : BitVec 5) (imm : BitVec 15) (s : State) : Res := inST s fun s => s.scalarI d a imm fun x k => bit01 (x.slt k)
/-- R334: SLLI. -/
def execSlli (d a : BitVec 5) (h : BitVec 6) (s : State) : Res := inST s fun s => s.scalar2 1 d a fun x => x <<< h.toNat
/-- R334: SRLI. -/
def execSrli (d a : BitVec 5) (h : BitVec 6) (s : State) : Res := inST s fun s => s.scalar2 1 d a fun x => x >>> h.toNat
/-- R334: SRAI. -/
def execSrai (d a : BitVec 5) (h : BitVec 6) (s : State) : Res := inST s fun s => s.scalar2 1 d a fun x => x.sshiftRight h.toNat
/-- R319: LI. -/
def execLi (d : BitVec 5) (imm : BitVec 20) (s : State) : Res := inST s fun s => s.landS 1 d.toNat (imm.signExtend 64)
/-- R319: LIH keeps bits [19:0]. -/
def execLih (d : BitVec 5) (imm : BitVec 20) (s : State) : Res := inST s fun s => s.landS 1 d.toNat (imm.signExtend 44 ++ (s.rs d).extractLsb' 0 20)
/-- R319: LIX keeps bits [39:0]. -/
def execLix (d : BitVec 5) (imm : BitVec 20) (s : State) : Res := inST s fun s => s.landS 1 d.toNat (imm.signExtend 24 ++ (s.rs d).extractLsb' 0 40)
/-- R325: MUL. -/
def execMul (d a b : BitVec 5) (s : State) : Res := inST s fun s => s.scalar3 3 d a b fun x y => x * y
/-- R325: MULH. -/
def execMulh (d a b : BitVec 5) (s : State) : Res := inST s fun s => s.scalar3 3 d a b fun x y => BitVec.ofInt 64 (x.toInt * y.toInt / 2 ^ 64)
/-- R325: MULHU. -/
def execMulhu (d a b : BitVec 5) (s : State) : Res := inST s fun s => s.scalar3 3 d a b fun x y => BitVec.ofNat 64 (x.toNat * y.toNat / 2 ^ 64)
/-- R303: DIV. -/
def execDiv (d a b : BitVec 5) (s : State) : Res := inST s fun s => s.scalar3 18 d a b (divSigned true)
/-- R303: DIVU. -/
def execDivu (d a b : BitVec 5) (s : State) : Res := inST s fun s => s.scalar3 18 d a b (divUnsigned true)
/-- R303: REM. -/
def execRem (d a b : BitVec 5) (s : State) : Res := inST s fun s => s.scalar3 18 d a b (divSigned false)
/-- R303: REMU. -/
def execRemu (d a b : BitVec 5) (s : State) : Res := inST s fun s => s.scalar3 18 d a b (divUnsigned false)
/-- R297: CLZ. -/
def execClz (d a : BitVec 5) (s : State) : Res := inST s fun s => s.scalar2 1 d a fun x => BitVec.ofNat 64 (leadingZeros 64 x.toNat)
/-- R297: CTZ. -/
def execCtz (d a : BitVec 5) (s : State) : Res := inST s fun s => s.scalar2 1 d a fun x => BitVec.ofNat 64 (trailingZeros 64 x.toNat)
/-- R297: POPC. -/
def execPopc (d a : BitVec 5) (s : State) : Res := inST s fun s => s.scalar2 1 d a fun x => BitVec.ofNat 64 (popCount 64 x.toNat)
/-- R297: BREV. -/
def execBrev (d a : BitVec 5) (s : State) : Res := inST s fun s => s.scalar2 1 d a fun x => x.reverse
/-- R293: BEXT. -/
def execBext (d a b : BitVec 5) (s : State) : Res := inST s fun s => s.scalar3 2 d a b bitExtract
/-- R293: BINS. -/
def execBins (d a b : BitVec 5) (s : State) : Res := inST s fun s => s.landS 2 d.toNat (bitInsert (s.rs d) (s.rs a) (s.rs b))
/-- R318: LEA. -/
def execLea (d a b : BitVec 5) (h : BitVec 3) (s : State) : Res := inST s fun s => s.scalar3 1 d a b fun x y => x + (y <<< h.toNat)
/-- R298: CMOV lands only when b is nonzero. -/
def execCmov (d a b : BitVec 5) (s : State) : Res := inST s fun s => if s.rs b = 0 then s else s.landS 1 d.toNat (s.rs a)

end Sys2Proof.Machine
end

