-- ==== Sys2Proof/Machine/Near.lean ====
section
/-!
DEFINITION. Near-store scalar accesses (R317), near atomics (R327), the stack (R311) and the predicate operations
(R329).
-/

namespace Sys2Proof.Machine

/-! Scalar loads and stores, slot M. -/

/-- R317: the effective address, aligned down. -/
def State.ea (s : State) (base : BitVec 5) (off : BitVec 12) (z : Nat) : Nat :=
  alignDown (nearAddr (s.rs base) off z) z
/-- R317: a load of z bytes, extended, landing at t + 3; a poisoned granule is recognised at the landing (R245). -/
def State.load (s : State) (t base : BitVec 5) (off : BitVec 12) (z : Nat) (sgn : Bool) : State :=
  let a := s.ea base off z
  let v := s.nearNat s.cur a z
  let x : Word := if sgn then BitVec.ofInt 64 (signed (8 * z) v) else BitVec.ofNat 64 v
  let bad := s.nearPoison s.cur (addrsFrom a z)
  (s.rangeFlags 3 (addrsFrom a z)).landAt 3 .scalar t.toNat fullScalar (x.zeroExtend 2048)
    (bad.map fun b => BitVec.ofNat 64 (b / 64 * 64))
/-- R317: a store of the low z bytes. -/
def State.storeZ (s : State) (t base : BitVec 5) (off : BitVec 12) (z : Nat) : State :=
  let a := s.ea base off z
  s.storeNear ((leBytes z (s.rs t).toNat).zipIdx.map fun p => (a + p.2, p.1))

/-- R317: LDB. -/
def execLdb (t base : BitVec 5) (off : BitVec 12) (s : State) : Res := inM s fun s => s.load t base off 1 true
/-- R317: LDBU. -/
def execLdbu (t base : BitVec 5) (off : BitVec 12) (s : State) : Res := inM s fun s => s.load t base off 1 false
/-- R317: LDH. -/
def execLdh (t base : BitVec 5) (off : BitVec 12) (s : State) : Res := inM s fun s => s.load t base off 2 true
/-- R317: LDHU. -/
def execLdhu (t base : BitVec 5) (off : BitVec 12) (s : State) : Res := inM s fun s => s.load t base off 2 false
/-- R317: LDW. -/
def execLdw (t base : BitVec 5) (off : BitVec 12) (s : State) : Res := inM s fun s => s.load t base off 4 true
/-- R317: LDWU. -/
def execLdwu (t base : BitVec 5) (off : BitVec 12) (s : State) : Res := inM s fun s => s.load t base off 4 false
/-- R317: LDD. -/
def execLdd (t base : BitVec 5) (off : BitVec 12) (s : State) : Res := inM s fun s => s.load t base off 8 false
/-- R317: STB. -/
def execStb (t base : BitVec 5) (off : BitVec 12) (s : State) : Res := inM s fun s => s.storeZ t base off 1
/-- R317: STH. -/
def execSth (t base : BitVec 5) (off : BitVec 12) (s : State) : Res := inM s fun s => s.storeZ t base off 2
/-- R317: STW. -/
def execStw (t base : BitVec 5) (off : BitVec 12) (s : State) : Res := inM s fun s => s.storeZ t base off 4
/-- R317: STD. -/
def execStd (t base : BitVec 5) (off : BitVec 12) (s : State) : Res := inM s fun s => s.storeZ t base off 8

/-! Near atomics. -/

/-- R141, R206: a bundle that needs its bracketing proof sealed: it issues when the proof has been captured for this
purpose and no proof is unsealed but that of a PROOF in the bundle itself (log entry 54), and stalls otherwise. -/
def State.bracketed (s : State) (b : Bracket) (k : State → State) : State :=
  if s.me.bracket = some b ∧ (s.me.unsealed = [] ∨ (s.iss.opened = true ∧ s.me.nUnsealed = 1)) then k s
  else (s.modIss fun i => { i with want := some b }).stall

/-- R327: a near atomic: the new value, if one is written, from the old one and the operands' low bytes. -/
def State.nearAtomic (s : State) (d a b : BitVec 5) (z8 : Bool) (f : Nat → Nat → Nat → Option Nat) : State :=
  let z := if z8 then 8 else 4
  let ea := (s.rs a).toNat % 2 ^ 32
  if ea % z ≠ 0 then s.illegal else
  let go (s : State) : State :=
    let addrs := addrsFrom ea z
    let inside := addrs.all s.me.inWindow
    let bad := s.nearPoison s.cur addrs
    let old := if inside then s.nearNat s.cur ea z else 0
    let new := f old ((s.rs d).toNat % 2 ^ (8 * z)) ((s.rs b).toNat % 2 ^ (8 * z))
    let s1 := s.rangeFlags 4 addrs
    let s2 := if inside && bad.isNone then s1.modIss fun i => { i with direct := i.direct ++ (match new with
        | some v => (leBytes z v).zipIdx.map fun p => (ea + p.2, p.1)
        | none => []) } else s1
    (s2.modIss fun i => { i with atomic := true }).landAt 4 .scalar d.toNat fullScalar
      ((BitVec.ofNat 64 old).zeroExtend 2048) (bad.map fun x => BitVec.ofNat 64 (x / 64 * 64))
  if s.me.intrap then go s else s.bracketed .atomic go

/-- R327: NAADD. -/
def execNaadd (d a b : BitVec 5) (z : Bool) (s : State) : Res := inM s fun s =>
  s.nearAtomic d a b z fun old _ y => some ((old + y) % 2 ^ (if z then 64 else 32))
/-- R327: NACAS. -/
def execNacas (d a b : BitVec 5) (z : Bool) (s : State) : Res := inM s fun s =>
  s.nearAtomic d a b z fun old c y => if old = c then some y else none
/-- R327: NAXCH. -/
def execNaxch (d a b : BitVec 5) (z : Bool) (s : State) : Res := inM s fun s =>
  s.nearAtomic d a b z fun _ _ y => some y

/-! The stack (R140 to R142, R311). -/

/-- R141: STKTOP lies in base … STKLIM. -/
def Ctx.stackLive (c : Ctx) : Bool :=
  c.arch.stkbase.toNat ≤ c.arch.stktop.toNat && c.arch.stktop.toNat ≤ c.stklim.toNat
/-- R311: the alignment of a stack access. -/
def stackAlign (z : Nat) : Nat := if z = 8 then 8 else 4
/-- R311: a push of z bytes. -/
def State.push (s : State) (z v : Nat) : State :=
  let c := s.me
  let top := c.arch.stktop.toNat
  if c.stackLive && c.stklim.toNat < top + z then (s.modIss fun i => { i with want := some .slide }).stall
  else
    let a := alignDown top (stackAlign z)
    let s1 := s.storeNear ((leBytes z v).zipIdx.map fun p => ((a + p.2) % 2 ^ 32, p.1))
    if s1.iss.verdict = .ok then
      s1.modArch s1.cur fun x => { x with stktop := x.stktop + BitVec.ofNat 32 z }
    else s1
/-- R311: a pop of z bytes: the bytes' number goes to a result that lands at t + 4. -/
def State.pop (s : State) (z : Nat) (k : Nat → Option Word → State → State) : State :=
  let c := s.me
  let top := c.arch.stktop.toNat
  let under := c.stackLive && top < c.arch.stkbase.toNat + z
  if under && c.arch.depth != 0 then (s.modIss fun i => { i with want := some .inverse }).stall
  else if under then
    k 0 none (s.spvAt 4 (alignDown ((top + 2 ^ 32 - z) % 2 ^ 32) (stackAlign z)))
  else
    let nt := (top + 2 ^ 32 - z) % 2 ^ 32
    let addrs := addrsFrom (alignDown nt (stackAlign z)) z
    let v := leNat (addrs.map (s.nearByte s.cur))
    let bad := s.nearPoison s.cur addrs
    k v (bad.map fun x => BitVec.ofNat 64 (x / 64 * 64))
      ((s.rangeFlags 4 addrs).modArch s.cur fun x => { x with stktop := BitVec.ofNat 32 nt })

/-- R311: SPILL. -/
def execSpill (d : BitVec 5) (s : State) : Res := inM s fun s => s.push 8 (s.rs d).toNat
/-- R311: VSPILL. -/
def execVspill (d : BitVec 5) (s : State) : Res := inM s fun s => s.readV 1 d fun v s => s.push 256 v.toNat
/-- R311: FILL. -/
def execFill (d : BitVec 5) (s : State) : Res := inM s fun s =>
  s.pop 8 fun v bad s => s.landAt 4 .scalar d.toNat fullScalar (BitVec.ofNat 2048 v) bad
/-- R311: VFILL. -/
def execVfill (d : BitVec 5) (s : State) : Res := inM s fun s => s.checkDst d fun s =>
  s.pop 256 fun v bad s => s.landLoaded 4 d allLanes (BitVec.ofNat 2048 v) bad

/-! Predicate operations, slots V and W (R329). -/

/-- R329: a logical operation over all 256 bits. -/
def State.predOp (s : State) (pd : BitVec 3) (r : PWord) : State := s.landP 1 pd.toNat allLanes r

/-- R329: PAND. -/
def execPand (pd pa pb : BitVec 3) (s : State) : Res := inVW s fun s => s.predOp pd (s.rp pa &&& s.rp pb)
/-- R329: POR. -/
def execPor (pd pa pb : BitVec 3) (s : State) : Res := inVW s fun s => s.predOp pd (s.rp pa ||| s.rp pb)
/-- R329: PXOR. -/
def execPxor (pd pa pb : BitVec 3) (s : State) : Res := inVW s fun s => s.predOp pd (s.rp pa ^^^ s.rp pb)
/-- R329: PANDN. -/
def execPandn (pd pa pb : BitVec 3) (s : State) : Res := inVW s fun s => s.predOp pd (s.rp pa &&& ~~~(s.rp pb))
/-- R329: PNOT. -/
def execPnot (pd pa : BitVec 3) (s : State) : Res := inVW s fun s => s.predOp pd (~~~(s.rp pa))
/-- R329: the active elements of a predicate. -/
def activeList (w : EW) (p : PWord) : List Nat := (List.range w.count).filter (activeLane w p)
/-- R329: PCNT. -/
def execPcnt (d : BitVec 5) (pa : BitVec 3) (w : EW) (s : State) : Res := inVW s fun s =>
  s.landS 1 d.toNat (BitVec.ofNat 64 (activeList w (s.rp pa)).length)
/-- R329: PFIRST. -/
def execPfirst (d : BitVec 5) (pa : BitVec 3) (w : EW) (s : State) : Res := inVW s fun s =>
  s.landS 1 d.toNat (BitVec.ofNat 64 ((activeList w (s.rp pa)).head?.getD w.count))
/-- R329: PLANES. -/
def execPlanes (pd : BitVec 3) (b : BitVec 5) (w : EW) (s : State) : Res := inVW s fun s =>
  s.predOp pd (laneMask w fun i => i < (s.rs b).toNat)

end Sys2Proof.Machine
end

