-- ==== Sys2Proof/Machine/Control.lean ====
section
/-!
DEFINITION. The control instructions of slot C: what a slot-C word decides about its bundle is left in the bundle's
record (target, loop, end of segment, return), and the bundle acts on it when it has issued (Machine/Issue.lean).
-/

namespace Sys2Proof.Machine

/-! Transfers (R45, R291, R316). -/

/-- R45: a transfer to an address. -/
def State.transfer (s : State) (dst : BitVec 32) : State := s.modIss fun i => { i with target := some dst }
/-- R291: a branch on a condition. -/
def State.branch (s : State) (off : BitVec 15) (c : Bool) : State :=
  if c then s.transfer (s.iss.parcel + off.signExtend 32) else s
/-- R316: the link. -/
def State.link (s : State) (d : BitVec 5) : State :=
  s.landS 1 d.toNat ((s.iss.parcel + BitVec.ofNat 32 s.iss.size).zeroExtend 64)

/-- R291: BEQ. -/
def execBeq (a b : BitVec 5) (off : BitVec 15) (s : State) : Res := inC s fun s => s.branch off (s.rs a == s.rs b)
/-- R291: BNE. -/
def execBne (a b : BitVec 5) (off : BitVec 15) (s : State) : Res := inC s fun s => s.branch off (s.rs a != s.rs b)
/-- R291: BLT. -/
def execBlt (a b : BitVec 5) (off : BitVec 15) (s : State) : Res := inC s fun s => s.branch off ((s.rs a).slt (s.rs b))
/-- R291: BGE. -/
def execBge (a b : BitVec 5) (off : BitVec 15) (s : State) : Res := inC s fun s => s.branch off ((s.rs b).sle (s.rs a))
/-- R291: BLTU. -/
def execBltu (a b : BitVec 5) (off : BitVec 15) (s : State) : Res := inC s fun s => s.branch off ((s.rs a).ult (s.rs b))
/-- R291: BGEU. -/
def execBgeu (a b : BitVec 5) (off : BitVec 15) (s : State) : Res := inC s fun s => s.branch off ((s.rs b).ule (s.rs a))
/-- R316: JMP. -/
def execJmp (d : BitVec 5) (imm : BitVec 20) (s : State) : Res := inC s fun s =>
  (s.link d).transfer (s.iss.parcel + imm.signExtend 32)
/-- R316: JMPR; the target is read at issue. -/
def execJmpr (d a : BitVec 5) (s : State) : Res := inC s fun s =>
  (s.link d).transfer ((s.rs a).truncate 32)

/-- R46, R320: LOOP; the innermost active loop stands first. -/
def execLoop (x : BitVec 5) (b : BitVec 15) (s : State) : Res := inC s fun s =>
  let start := s.iss.parcel + BitVec.ofNat 32 s.iss.size
  let stop := start + b.zeroExtend 32
  let inside := match s.me.arch.loops.head? with
    | none => true
    | some o => o.start.toNat ≤ start.toNat && stop.toNat ≤ o.stop.toNat && start.toNat ≤ stop.toNat
  if 1 < s.iss.reps || 2 ≤ s.me.arch.loops.length || !inside || b == 0 then s.illegal
  else if (s.rs x).truncate 32 = (0 : BitVec 32) then
    s.modIss fun i => { i with newLoop := some ⟨start, stop, 0⟩, skip := true }
  else s.modIss fun i => { i with newLoop := some ⟨start, stop, (s.rs x).truncate 32⟩ }

/-- R44, R333: SETFMT. -/
def execSetfmt (x : BitVec 5) (s : State) : Res := inC s fun s =>
  let v : BitVec 32 := (s.rs x).truncate 32
  if fmtLegal v then s.modArch s.cur fun a => { a with shadow := a.shadow ++ [(a.tick + 4, v)] } else s.illegal

/-! Proofs and waits. -/

/-- R240: a bundle that would capture a third unsealed proof stalls. -/
def State.proofRoom (s : State) : Bool := s.me.nUnsealed < 2

/-- R238, R332: PROOF captures the context as it stands before its bundle; the bundle belongs to the new segment. -/
def execProof (_code : BitVec 15) (s : State) : Res := inC s fun s =>
  if s.me.intrap || 1 < s.iss.reps then s.illegal
  else if !s.proofRoom then s.stall
  else (s.modCtx s.cur fun c => c.capture s.cycle .proof).modIss fun i => { i with opened := true }

/-- R359: VIGIL. The arrival is registered when every proof has sealed; the bundle issues when the vigil is complete. A kept
arrival counts for the vigil of its own id and mask alone; another VIGIL registers its own in its place (log entry 58). -/
def execVigil (x : BitVec 5) (vid : BitVec 10) (s : State) : Res := inC s fun s =>
  let m : BitVec 8 := (s.rs x).truncate 8
  if s.me.intrap || !m.getLsbD (s.cur % 8) then s.illegal else
  match s.me.arrival.filter fun a => a.vid == vid && a.mask == m with
  | some a =>
    if a.complete then s.modCtx s.cur fun c => { c with arrival := none } else s.stall
  | none =>
    if s.me.nUnsealed = 0 then
      (s.modCtx s.cur fun c => { c with arrival := some ⟨vid, m, s.cycle, false⟩ }).stall
    else s.stall

/-- R203: a WAITA condition. -/
def waitHolds (c : WaitCond) (m v : Nat) : Bool :=
  match c with
  | .eq => m == v
  | .ne => m != v
  | .geu => v ≤ m
  | .ltu => m < v
  | .andnz => m &&& v != 0
/-- R203, R372: WAITA. -/
def execWaita (x y : BitVec 5) (_scope : Scope) (wide : Bool) (cond : WaitCond) (s : State) : Res := inC s fun s =>
  let z := if wide then 8 else 4
  let a := (s.rs x).toNat % 2 ^ 32
  if a % z ≠ 0 || !s.me.inWindowRange a z then s.illegal
  else if waitHolds cond (s.nearNat s.cur a z) ((s.rs y).toNat % 2 ^ (8 * z)) then s else s.stall

/-- R200: in a handler a FENCE waits for what it orders of the interrupted program's segments that a proof has ended; what
a segment still open has gated cannot be released before the handler ends (log entry 67). -/
def State.fenceWaits (s : State) (before : BitVec 5) (order : FenceOrder) : Bool :=
  s.me.intrap && s.me.gated.any fun e => decide (e.seg < s.me.serial) && e.item.fencedBy before order
/-- R199, R200, R248: FENCE is held in order with the stores and commands of its segment; one whose after set names N or S
holds the next bundle. In a handler it takes effect at issue. The spec does not say whether what the other slots of its bundle
issue precedes it: in the model all of it follows (log entry 97). -/
def execFence (after before : BitVec 5) (scope : Scope) (order : FenceOrder) (s : State) : Res := inC s fun s =>
  if after = 0 || before = 0 then s.illegal else
  if s.fenceWaits before order then s.stall else
  let s1 := if (after.getLsbD 0 || after.getLsbD 4) && !s.me.intrap then s.modArch s.cur fun a => { a with fenced := true } else s
  s1.gate (.cmd (.fence before after scope order) s.issuer)

/-! Work (R19 to R26, R226). -/

/-- R23: SPAWN claims its target at once. -/
def execSpawn (x y : BitVec 5) (n : BitVec 4) (k : BitVec 3) (s : State) : Res := inC s fun s =>
  let c := s.me
  let t := s.cur / 8 * 8 + k.toNat
  let tc := s.ctx t
  if c.intrap || 8 < n.toNat || (n != 0 && 31 < y.toNat + n.toNat - 1) then s.illegal
  else match c.kernel, s.myKernel s.cur with
    | some kn, some kk =>
      if t = s.cur || !(tc.state = .idle || tc.state = .reserved) then
        s.raise (s.slotCause 0x05 (k.zeroExtend 32) 0)
      else
        let args := (List.range n.toNat).map fun i => c.arch.s (y.toNat + i)
        let tn := tc.start t kk.desc kn s.ce.nextGen c.task c.phase c.segno (k.toNat + 1) ((s.rs x).truncate 32) c.arch.fmt args
        let s1 := { s with ce := { s.ce with nextGen := s.ce.nextGen + 1 } }
        s1.setCtx t { tn with parent := some (s.cur, c.gen), startAt := s.cycle + Config.spawnDelay, startSeg := some (s.cur, c.gen, c.serial) }
    | _, _ => s.raise (s.slotCause 0x05 (k.zeroExtend 32) 0)

/-- R20: a SUSP or DONE waits for the contexts spawned and for room for its proof. -/
def State.endSegment (s : State) (kind : CapKind) : State :=
  if s.hasChildren s.cur s.me.gen || !s.proofRoom then s.stall
  else s.modIss fun i => { i with ends := some kind }
/-- R15, R20: SUSP; the record is posted when the segment seals. -/
def execSusp (x y : BitVec 5) (aff : Affinity) (s : State) : Res := inC s fun s =>
  let c := s.me
  if c.intrap || c.spawn ≠ 0 || 26 < y.toNat then s.illegal
  else s.endSegment (.susp ⟨c.kernel.getD 0, (s.rs x).truncate 32, c.phase, aff, c.task, false, c.segno + 1,
    clusterOf s.cur, coreOf s.cur % 4, (List.range 6).map fun i => c.arch.s (y.toNat + i), 0⟩)
/-- R20, R304: DONE. -/
def execDone (s : State) : Res := inC s fun s => if s.me.intrap then s.illegal else s.endSegment .done
/-- R226, R340: TRIG takes effect when its segment seals. -/
def execTrig (s : State) : Res := inC s fun s =>
  if s.me.intrap || s.me.spawn ≠ 0 then s.illegal else s.gate (.trig s.issuer)

/-! Traps (R250, R251, R294, R339). -/

/-- R251: a cause that is taken at the boundary after the bundle. -/
def State.afterBundle (s : State) (code : Nat) (detail : BitVec 15) : State :=
  s.modIss fun i => { i with after := some (s.slotCause code (detail.zeroExtend 32) 0) }
/-- R339: TRAP. -/
def execTrap (code : BitVec 15) (s : State) : Res := inC s fun s => s.afterBundle 0x11 code
/-- R294: BKPT. -/
def execBkpt (code : BitVec 15) (s : State) : Res := inC s fun s => s.afterBundle 0x10 code
/-- R250: ERET; its steps follow when the other slots of its bundle have issued. -/
def execEret (s : State) : Res := inC s fun s =>
  if s.me.intrap then s.modIss fun i => { i with eret := true } else s.illegal

/-! Control registers (R53 to R56, R301, R302). -/

/-- R54: STATUS. -/
def State.statusWord (s : State) (g : Nat) : Nat :=
  let c := s.ctx g
  128 * (s.isSupv g).toNat + 64 * (s.isPhased g).toNat + (if c.spawn ≠ 0 then 32 else 0) + 16 * c.intrap.toNat
    + 4 * c.nUnsealed + c.arch.loops.length
/-- R53, R301: the value of a control register; none for a number that is not assigned. -/
def State.controlRead (s : State) (g : Nat) (r : Nat) : Option Word :=
  let c := s.ctx g
  match r with
  | 0x000 => some (BitVec.ofNat 64 (s.statusWord g))
  | 0x001 => some c.trapCause
  | 0x002 => some (c.trappc.zeroExtend 64)
  | 0x003 => some (c.fbndl.zeroExtend 64)
  | 0x004 => some (c.fslot.zeroExtend 64)
  | 0x005 => some c.faddr
  | 0x006 => some (c.arch.tvec.zeroExtend 64)
  | 0x007 => some (c.arch.tstk.zeroExtend 64)
  | 0x008 => some c.dfcause
  | 0x010 => some (BitVec.ofNat 64 c.arch.tick)
  | 0x011 => some (c.arch.fmt.zeroExtend 64)
  | 0x012 => some c.arch.rngkey
  | 0x013 => some c.arch.rngctr
  | 0x014 => some (c.arch.spvio.zeroExtend 64)
  | 0x015 => some (c.splo.zeroExtend 64)
  | 0x016 => some (c.sphi.zeroExtend 64)
  | 0x017 => some (c.arch.stktop.zeroExtend 64)
  | 0x018 => some (c.stklim.zeroExtend 64)
  | 0x019 => some c.stkovf
  | 0x01A => some (c.proofpc.zeroExtend 64)
  | 0x01B => some (s.ctxid g)
  | 0x01C => some (c.task.zeroExtend 64)
  | 0x01D => some (c.phase.zeroExtend 64)
  | 0x01E => some (c.arch.flags.zeroExtend 64)
  | 0x020 => some (c.arch.vgtmo.zeroExtend 64)
  | 0x021 => some (BitVec.ofNat 64 c.preq.toNat)
  | 0x022 => some c.aevt
  | _ => none
/-- R301: CRD. -/
def execCrd (x : BitVec 5) (r : BitVec 12) (s : State) : Res := inC s fun s =>
  match s.controlRead s.cur r.toNat with
  | some v => s.landS 2 x.toNat v
  | none => s.illegal
/-- R302: CWR lands at t + 1; read-only registers and fields are left then. -/
def execCwr (x : BitVec 5) (r : BitVec 12) (s : State) : Res := inC s fun s =>
  match s.controlRead s.cur r.toNat with
  | some _ => s.landAt 1 .control r.toNat fullScalar ((s.rs x).zeroExtend 2048) none
  | none => s.illegal

/-! Stores of the core (R35, R295). -/

/-- R8, R35, R36, R137: ENGRAVE. Source addresses are exact, so one beyond 32 bits is out of range. Its plates appear all at
once, at the turn of its bundle: a PRINT of the sibling in the same cycle issues the old plate before that turn and the new
one after it; R36 permits both (log entry 59). -/
def execEngrave (x y : BitVec 5) (c : BitVec 9) (s : State) : Res := inC s fun s =>
  let a := (s.rs x).toNat % 2 ^ 32
  let f := (s.rs y).toNat % 2 ^ 32
  let n := c.toNat
  if n = 0 then s
  else if a % 32 ≠ 0 || f = 0 || 511 < f + n - 1 then s.illegal
  else
    let s1 := s.rangeFlags 1 ((List.range (32 * n)).map (a + ·))
    let image := fun j => BitVec.ofNat 256 (s.nearNat s.cur (a + 32 * j) 32)
    s1.modCore (coreOf s.cur) fun k =>
      { k with plates := (List.range n).foldl (fun m j => AMap.put m (f + j) (image j)) k.plates }
/-- R295: BNSET; the write is complete within 64 cycles, in a cycle of a free choice. -/
def execBnset (x : BitVec 5) (k : BitVec 3) (s : State) : Res := inC s fun s =>
  let a := (s.rs x).toNat % 2 ^ 32
  if a % 64 ≠ 0 || 0x80000 < a + 3584 then s.illegal
  else
    let image := BitVec.ofNat 28672 (s.nearNat s.cur a 3584)
    let t := s.me.arch.tick
    let ch := (s.rangeFlags 1 (addrsFrom a 3584)).choose
    let earlier := (s.core (coreOf s.cur)).bnWrites.filter fun w => w.2.1 == k.toNat
    let done := earlier.foldl (fun n w => max n w.2.2.2.1) (s.cycle + ch.1 % 64 + 1)
    let write := (s.cur, k.toNat, t + 16, done, image)
    ch.2.modCore (coreOf s.cur) fun q => { q with bnWrites := q.bnWrites ++ [write] }

/-! The words without an effect. -/

/-- R328: NOP, in every slot. -/
def execNop (s : State) : Res := .next s
/-- R71: a slot word that matches no row is ILLEGAL in every slot. -/
def execIllegalWord (w : BitVec 32) (s : State) : Res :=
  .next (s.raise (s.slotCause 0x01 w 0))

end Sys2Proof.Machine
end

