-- ==== Sys2Proof/Machine/EngineIssue.lean ====
section
/-!
DEFINITION. The engine instructions of slot E at their issue: engine registers (R57 to R59, R305), what a command
captures and the checks made before it is gated (R70, R105 to R120, R143 to R164, R299, R313, R373).
-/

namespace Sys2Proof.Machine

/-! Engine registers. -/

/-- R58: the listed bits of an engine register. -/
def engineMask (r : Nat) (v : Word) : Word :=
  match r with
  | 0x010 => v &&& 0xFFFFFF
  | 0x011 => v &&& 0xFFFFFFFF
  | 0x013 => v &&& 0x3F
  | 0x014 => v &&& 0xFFFF03
  | 0x020 => v &&& 0xFFFFFFFF
  | 0x021 => v &&& 0xFF
  | 0x024 => v &&& 0xFFFFFFFFFF
  | _ => v

/-- R305: EWR; a write to a read-only register is discarded. ERNG changes at the end of the cycle (R306). -/
def State.engineWrite (s : State) (g r : Nat) (v : Word) : State :=
  let v := engineMask r v
  match r with
  | 0x010 => s.modArch g fun a => { a with mgeo := v }
  | 0x011 => s.modArch g fun a => { a with mlim := v }
  | 0x013 => s.modArch g fun a => { a with mgcfg := v }
  | 0x014 => s.modArch g fun a => { a with wbcfg := v }
  | 0x020 => s.modArch g fun a => { a with fgeo := v }
  | 0x021 => s.modCtx g fun c => { c with fprog := v.truncate 8 }
  | 0x024 => s.modArch g fun a => { a with frhs := v }
  | n => if n < 8 then s.modCore (coreOf g) fun k => { k with erngNext := k.erngNext ++ [(n, v)] } else s

/-- R117, R118: MSTAT of a core. The spec does not say whether BUSY counts an interrupted factor command of a saved context: in the
model it does not, since the command is not in the bank until the resume (log entry 29). -/
def State.mstat (s : State) (core : Nat) : Nat :=
  let busy := fun b => (s.cmds.any fun c => c.onBank core b && !c.parked).toNat
  let gang := (s.cmds.any fun c => match c.op with
    | .gang mask _ _ => decide (clusterOf c.by_.g = core / 4) && mask.getLsbD (core % 4)
    | _ => false).toNat
  let opened := fun b => ((s.core core).openRel.contains b).toNat
  gang * 16 + opened 1 * 8 + opened 0 * 4 + busy 1 * 2 + busy 0
/-- R129: FSTAT of a context. -/
def State.fstatWord (s : State) (g : Nat) : Nat :=
  let c := s.ctx g
  c.fstat.toNat * 4 + c.fdone.toNat * 2
    + (s.cmds.any fun d => d.op.isFactor && d.by_.g == g && d.by_.gen == c.gen).toNat
/-- R58, R146: SQST of a stream (log entry 21 for a write stream, and for an unbound one, which reads as zero). -/
def State.sqst (s : State) (g q : Nat) : Word :=
  let c := s.ctx g
  match AMap.find c.arch.streams q with
  | none => 0
  | some st =>
    let level := if st.write then (c.gated.filter fun e => match e.item with
        | .push i _ _ _ _ => i == q
        | _ => false).length
      else (AMap.get [] c.units q).length
    let full := if st.write then decide (streamTotal st.desc ≤ 256 * st.pos) else decide (16 ≤ level)
    BitVec.ofNat 64 ((AMap.get 0 c.sqblock q).toNat * 2 ^ 32 + level % 256 * 256 + 8 * full.toNat
      + (if level = 0 then 4 else 0) + 2 * st.write.toNat + 1)
/-- R57, R305: the value of an engine register; none for a number that is not assigned. -/
def State.engineRead (s : State) (g r : Nat) : Option Word :=
  let c := s.ctx g
  let k := s.core (coreOf g)
  match r with
  | 0x010 => some c.arch.mgeo
  | 0x011 => some c.arch.mlim
  | 0x012 => some (BitVec.ofNat 64 (s.mstat (coreOf g)))
  | 0x013 => some c.arch.mgcfg
  | 0x014 => some c.arch.wbcfg
  | 0x020 => some c.arch.fgeo
  | 0x021 => some (c.fprog.zeroExtend 64)
  | 0x022 => some (c.fgrow.zeroExtend 64)
  | 0x023 => some (BitVec.ofNat 64 (s.fstatWord g))
  | 0x024 => some c.arch.frhs
  | n =>
    if n < 8 then some (AMap.get 0 k.erng n)
    else if n < 16 then some (AMap.get 0 k.tail (n - 8) ++ AMap.get 0 k.head (n - 8))
    else if 0x030 ≤ n ∧ n < 0x040 then some (c.fperm.extractLsb' (64 * (n - 0x030)) 64)
    else if 0x040 ≤ n ∧ n < 0x048 then some (s.sqst g (n - 0x040))
    else none

/-- R305: EWR. -/
def execEwr (r : BitVec 10) (a : BitVec 5) (s : State) : Res := inE s fun s =>
  match s.engineRead s.cur r.toNat with
  | some _ => s.engineWrite s.cur r.toNat (s.rs a)
  | none => s.illegal
/-- R59: the bits of an engine register that are asynchronous status, whose value an ERD may take at any time until it
lands: MSTAT, FSTAT, SQST, and HEAD of ERHT. -/
def asyncBits (r : Nat) : Word :=
  if r = 0x012 ∨ r = 0x023 ∨ (0x040 ≤ r ∧ r < 0x048) then BitVec.allOnes 64
  else if 8 ≤ r ∧ r < 16 then 0xFFFFFFFF else 0
/-- R131: a register that the factor engine writes at a stop. -/
def factorReg (r : Nat) : Bool := r == 0x021 || r == 0x022 || (decide (0x030 ≤ r) && decide (r < 0x040))
/-- R59, R131: an engine register whose value an ERD may take after its issue. -/
def asyncStatus (r : Nat) : Bool := asyncBits r != 0 || factorReg r
/-- R59, R131, R305: ERD. Asynchronous status may be taken again at the end of each cycle until it lands (Schedule; log
entry 8), and a register of the factor engine at a stop (State.retakeErds). -/
def execErd (a : BitVec 5) (r : BitVec 10) (s : State) : Res := inE s fun s =>
  match s.engineRead s.cur r.toNat with
  | some v =>
    if asyncStatus r.toNat && a.toNat != 0 then s.modArch s.cur fun x => { x with
      pend := x.pend ++ [⟨.scalar, a.toNat, x.tick + 6, s.slot, fullScalar, v.zeroExtend 2048, s.iss.parcel, s.iss.rep, none,
        x.tick, none, some r.toNat⟩] }
    else s.landS 6 a.toNat v
  | none => s.illegal
/-- R103: EWR of ERHT is a gated command that sets TAIL. -/
def execEwrErhtTail (i : BitVec 3) (a : BitVec 5) (s : State) : Res := inE s fun s =>
  s.gate (.cmd (.erht i.toNat ((s.rs a).extractLsb' 32 32)) s.issuer)

/-! Checks shared by commands. -/

/-- R164: a completion address: 4-byte aligned in own near store or the cluster near-store range. -/
def pairOk (pair : Word) : Bool :=
  let a := pair.toNat % 2 ^ 32
  a % 4 == 0 && (a < 0x80000 || (0x1000000 ≤ a && a < 0x1200000))
/-- R162: n bytes at an aligned address of the context's window. -/
def Ctx.blockOk (c : Ctx) (a align n : Nat) : Bool := a % align == 0 && c.inWindowRange a n
/-- A 64-byte packet through the issuer's view. -/
def State.packet (s : State) (a : Nat) : BitVec 512 := BitVec.ofNat 512 (s.nearNat s.cur a 64)
/-- Bytes lo to hi - 1 of a packet are zero. -/
def zeroBytes {n : Nat} (p : BitVec n) (lo hi : Nat) : Bool := p.extractLsb' (8 * lo) (8 * (hi - lo)) == 0

/-! Matrix commands. -/

/-- R99: the format pair is permitted. -/
def fmtPairOk (fmt : BitVec 32) : Bool :=
  let a := fld fmt 3 0
  let b := fld fmt 7 4
  a < 7 && b < 7 && (a == b || (a == 3 && b == 4) || (a == 4 && b == 3) || (a == 1 && b == 2) || (a == 2 && b == 1))
/-- R109: a context has borrowed a bank and the loan has not ended. -/
def State.loan (s : State) (g bank : Nat) : Bool :=
  let c := s.ctx g
  ((AMap.get ⟨false, 0⟩ c.arch.chains bank).isOpen)
    || (c.gated.any fun e => match e.item with
      | .cmd op _ => op.bankOf g == some bank
      | _ => false)
    || s.cmds.any fun d => d.by_.g == g && d.op.bankOf g == some bank
/-- R109: a context may name a bank: its own, or its sibling's while that is IDLE or lent. -/
def State.bankOk (s : State) (g bank : Nat) : Bool :=
  bank == ownBank g || (s.ctx (sibling g)).state == .idle || s.loan g bank
/-- R106: a context's chain of a bank. -/
def Ctx.chain (c : Ctx) (bank : Nat) : Chain := AMap.get ⟨false, 0⟩ c.arch.chains bank
/-- R117: a chain of the context is open. -/
def Ctx.anyChain (c : Ctx) : Bool := c.arch.chains.any fun p => p.2.isOpen
/-- Sets a context's chain of a bank. -/
def State.setChain (s : State) (g bank : Nat) (ch : Chain) : State :=
  s.modArch g fun a => { a with chains := AMap.put a.chains bank ch }

/-- R248, R324: a kind that the bundle being issued gives; one of a handler belongs to no segment. -/
def State.kindMark (s : State) (isInt : Bool) : KindMark :=
  ⟨if s.me.intrap then none else some (s.cur, s.me.gen, s.me.serial), isInt⟩
/-- R106, R112, R117: opens or continues a chain with a product, then gates its command. -/
def State.chainCmd (s : State) (j : MatJob) (op : CmdOp) : State :=
  let c := s.me
  let ch := c.chain j.bank
  let isInt := fld j.fmt 3 0 == 5
  let opens := j.clr || !ch.isOpen
  let depth := (if opens then 0 else ch.depth) + j.count * j.depthK
  if !opens && s.bankKind (coreOf s.cur) j.bank != isInt then s.illegal
  else if fld c.arch.mlim 31 0 < depth then s.raise (s.slotCause 0x08 (BitVec.ofNat 32 j.bank) 0)
  else if c.preq && !c.intrap && !c.anyChain then s.stall
  else ((s.setKind (coreOf s.cur) j.bank (s.kindMark isInt)).setChain s.cur j.bank ⟨true, depth⟩).gate (.cmd op s.issuer)

/-- R105: what a product captures. -/
def State.matJob (s : State) (bank : Nat) (clr : Bool) (count ar br : Nat) : MatJob :=
  let a := s.me.arch
  let k := s.core (coreOf s.cur)
  ⟨bank, clr, count, a.mgeo, a.fmt, ar, br, AMap.get 0 k.erng ar, AMap.get 0 k.erng br, a.wbcfg, s.me.splo, s.me.sphi⟩

/-- R105, R323: MMA. -/
def execMma (ar br : BitVec 3) (bank clr : Bool) (a : BitVec 5) (s : State) : Res := inE s fun s =>
  let n := (s.rs a).toNat
  let j := s.matJob bank.toNat clr n ar.toNat br.toNat
  let lo := j.lo.toNat
  let hi := j.hi.toNat
  if n = 0 || 65535 < n || ar = 7 || ar = br || !fmtPairOk j.fmt || oddMx j.mgeo j.fmt || !s.bankOk s.cur bank.toNat
    || !ringOk lo hi j.aDesc (tileA j.mgeo j.fmt)
    || !(if br = 7 then wbOk j.wbcfg (tileB j.mgeo j.fmt) else ringOk lo hi j.bDesc (tileB j.mgeo j.fmt)) then s.illegal
  else s.chainCmd j (.mma j)
/-- R107, R326: MZERO closes the chain at issue. -/
def execMzero (bank : Bool) (s : State) : Res := inE s fun s =>
  if !s.bankOk s.cur bank.toNat then s.illegal
  else ((s.setKind (coreOf s.cur) bank.toNat (s.kindMark false)).setChain s.cur bank.toNat ⟨false, 0⟩).gate
    (.cmd (.mzero bank.toNat) s.issuer)
/-- R110, R324: MRET closes the chain at issue. -/
def execMret (bank lsf : Bool) (layout : MLayout) (a b : BitVec 5) (s : State) : Res := inE s fun s =>
  let ch := s.me.chain bank.toNat
  let isInt := s.bankKind (coreOf s.cur) bank.toNat
  let geo := s.me.arch.mgeo
  let dst : BitVec 32 := (s.rs a).truncate 32
  if !s.bankOk s.cur bank.toNat || dst.toNat % 64 ≠ 0 || !pairOk (s.rs b) || (layout = .bf16 && isInt) then s.illegal
  else (s.setChain s.cur bank.toNat { ch with isOpen := false }).gate
    (.cmd (.mret bank.toNat lsf layout (geoM geo) (geoN geo) dst (s.rs b) isInt) s.issuer)
/-- R100: a tile exceeds its slot in the rings of a job, or N is odd with MXFP4. -/
def MatJob.overSlot (j : MatJob) : Bool :=
  oddMx j.mgeo j.fmt || decide (fld j.aDesc 47 32 * 256 < tileA j.mgeo j.fmt)
    || decide ((if j.bring = 7 then fld j.wbcfg 23 8 else fld j.bDesc 47 32) * 256 < tileB j.mgeo j.fmt)
/-- R100, R112, R114: MGANG. The leader's own tiles are checked at issue, its members' at release (R115); the kind of every
member's open chain is checked at issue, as it stands then (log entry 28). -/
def execMgang (mask : BitVec 4) (bank clr : Bool) (a b : BitVec 5) (s : State) : Res := inE s fun s =>
  let n := (s.rs a).toNat
  let j := s.matJob bank.toNat clr n 0 0
  let member := fun i =>
    let c := s.ctx (clusterOf s.cur * 8 + 2 * i + bank.toNat)
    c.state == .running && c.kernel == s.me.kernel
  if n = 0 || 65535 < n || ownBank s.cur ≠ bank.toNat || !mask.getLsbD (coreOf s.cur % 4) || !fmtPairOk j.fmt
    || (s.memberJob (coreOf s.cur) j).overSlot || 0x80000 ≤ (s.rs b).toNat % 2 ^ 32 then s.illegal
  else if (List.range 4).any fun i => mask.getLsbD i && !member i then
    s.raise (s.slotCause 0x12 (mask.zeroExtend 32) 0)
  else if (List.range 4).any fun i => mask.getLsbD i && s.kindClash (clusterOf s.cur * 4 + i) j then s.illegal
  else s.chainCmd j (.gang mask j (s.rs b))

/-! Factor commands. -/

/-- R120: what a factor command captures, and its checks. -/
def State.factorCmd (s : State) (op : Nat) (opts : BitVec 4) (a b : BitVec 5) : State :=
  let c := s.me
  let n := fld c.arch.fgeo 7 0
  let stride := fld c.arch.fgeo 31 8
  let cols := fld c.arch.frhs 39 32 + 1
  let row := if opts.getLsbD 3 then n else cols
  let tile := (s.rs a).toNat % 2 ^ 32
  let j : FacJob := ⟨op, opts, (s.rs a).truncate 32, c.arch.fgeo, c.arch.frhs, c.arch.fmt, s.rs b, c.splo, c.sphi, c.fprog.toNat, c.fperm, none⟩
  if n = 0 || 128 < n || n ≤ c.fprog.toNat || stride < 4 * n || (op = 0x79 && stride < 4 * row) || tile % 4 ≠ 0
    || ((op = 0x79 || op = 0x78) && fld c.arch.frhs 31 0 % 4 ≠ 0) || (s.rs b).toNat % 4 ≠ 0
    || (c.chain (ownBank s.cur)).isOpen then s.illegal
  else s.gate (.cmd (.factor j) s.issuer)
/-- R119: FLU. -/
def execFlu (variant : Bool) (a b : BitVec 5) (s : State) : Res := inE s fun s =>
  s.factorCmd 0x76 (if variant then 4 else 0) a b
/-- R119: FCHOL. -/
def execFchol (variant : Bool) (a b : BitVec 5) (s : State) : Res := inE s fun s =>
  s.factorCmd 0x77 (if variant then 4 else 0) a b
/-- R119: FQR. -/
def execFqr (a b : BitVec 5) (s : State) : Res := inE s fun s => s.factorCmd 0x78 0 a b
/-- R119: FTRSM. -/
def execFtrsm (right upper tr unit : Bool) (a b : BitVec 5) (s : State) : Res := inE s fun s =>
  s.factorCmd 0x79 (BitVec.ofBool right ++ BitVec.ofBool upper ++ BitVec.ofBool tr ++ BitVec.ofBool unit) a b

/-! Copies and global accesses. -/

/-- R164: a CPY packet that may be issued. -/
def cpyOk (p : BitVec 512) : Bool :=
  u16At p 0 ≤ 1 && u8At p 2 ≤ 3 && u8At p 3 ≤ 3 && u8At p 7 ≤ 5
    && (if u8At p 3 = 3 then u8At p 4 ≤ 7 && u8At p 5 ≤ 3 else u8At p 4 == 0 && u8At p 5 == 0)
    && fld p 54 51 == 0 && u32At p 0x34 == 0
    && (u32At p 0x30 == 0 || ((u32At p 0x30).toNat % 32 == 0 && (u32At p 0x30).toNat + 32 ≤ 0x80000))
    && pairOk (u64At p 0x38)
/-- R162, R300: CPY. -/
def execCpy (a b : BitVec 5) (s : State) : Res := inE s fun s =>
  let at_ := (s.rs a).toNat % 2 ^ 32
  let p := s.packet at_
  if !s.me.blockOk at_ 64 64 || !cpyOk p then s.illegal
  else s.gate (.cmd (.cpy p (BitVec.ofNat 32 at_) (s.rs b)) s.issuer)
/-- R263, R299: a COLL packet that may be issued. -/
def collOk (p : BitVec 512) : Bool :=
  u8At p 0 ≤ 2 && u8At p 1 ≤ 7 && 1 ≤ u16At p 2 && u16At p 2 ≤ 384 && u16At p 4 < u16At p 2 && u16At p 6 == 0
    && zeroBytes p 0x2C 0x38 && pairOk (u64At p 0x38)
    && (u8At p 0 == 2 || ((u64At p 8).toNat % 4 == 0 && (u64At p 0x10).toNat % 4 == 0))
/-- R263, R299: COLL; FADDR of its ISOLATION is not stated (log entry 22). -/
def execColl (a : BitVec 5) (s : State) : Res := inE s fun s =>
  let at_ := (s.rs a).toNat % 2 ^ 32
  let p := s.packet at_
  if !s.me.blockOk at_ 64 64 || !collOk p then s.illegal
  else if s.isPhased s.cur then
    let ch := s.choose
    ch.2.raise (s.slotCause 0x0C 0 (BitVec.ofNat 64 ch.1))
  else s.gate (.cmd (.coll p (BitVec.ofNat 32 at_)) s.issuer)

/-- R313: a direct global access; operations 2 to 6 are atomics. -/
def State.direct (s : State) (fn : Nat) (order : DOrder) (scope : Scope) (z : Bool) (a b : BitVec 5) : State :=
  let at_ := (s.rs a).toNat % 2 ^ 32
  let d := BitVec.ofNat 256 (s.nearNat s.cur at_ 24)
  if !s.me.blockOk at_ 8 24 || !pairOk (u64At d 16) || (fn = 0 && order = .rel) || (fn = 1 && order = .acq) then s.illegal
  else if 2 ≤ fn && s.isPhased s.cur then s.raise (s.slotCause 0x0C 0 (s.rs b))
  else s.gate (.cmd (.dpath fn order scope z d (BitVec.ofNat 32 at_) (s.rs b)) s.issuer)
/-- R314: GLD. -/
def execGld (order : DOrder) (scope : Scope) (z : Bool) (a b : BitVec 5) (s : State) : Res := inE s fun s => s.direct 0 order scope z a b
/-- R314: GST. -/
def execGst (order : DOrder) (scope : Scope) (z : Bool) (a b : BitVec 5) (s : State) : Res := inE s fun s => s.direct 1 order scope z a b
/-- R314: GAADD. -/
def execGaadd (order : DOrder) (scope : Scope) (z : Bool) (a b : BitVec 5) (s : State) : Res := inE s fun s => s.direct 2 order scope z a b
/-- R314: GACAS. -/
def execGacas (order : DOrder) (scope : Scope) (z : Bool) (a b : BitVec 5) (s : State) : Res := inE s fun s => s.direct 3 order scope z a b
/-- R314: GAXCH. -/
def execGaxch (order : DOrder) (scope : Scope) (z : Bool) (a b : BitVec 5) (s : State) : Res := inE s fun s => s.direct 4 order scope z a b
/-- R314: GAMAX. -/
def execGamax (order : DOrder) (scope : Scope) (z : Bool) (a b : BitVec 5) (s : State) : Res := inE s fun s => s.direct 5 order scope z a b
/-- R314: GAMIN. -/
def execGamin (order : DOrder) (scope : Scope) (z : Bool) (a b : BitVec 5) (s : State) : Res := inE s fun s => s.direct 6 order scope z a b

/-- R373: a weight-stream packet that may be issued under a WBCFG. -/
def wstrmOk (p : BitVec 512) (cfg : Word) : Bool :=
  let dec := (u8At p 1).testBit 0
  let z := (u32At p 0x18).toNat
  1 ≤ u8At p 0 && u8At p 0 < 16 && u8At p 1 < 2 && u16At p 2 == 0 && u32At p 0x1C == 0 && zeroBytes p 0x28 0x40
    && (if dec then (u64At p 0x10).toNat % 2 == 0 else u64At p 0x10 == 0)
    && z % 256 == 0 && 256 ≤ z && z ≤ 131072 && wbOk cfg z && pairOk (u64At p 0x20)
/-- R373: WSTRM. -/
def execWstrm (a : BitVec 5) (s : State) : Res := inE s fun s =>
  let at_ := (s.rs a).toNat % 2 ^ 32
  let p := s.packet at_
  if !s.me.blockOk at_ 64 64 || !wstrmOk p s.me.arch.wbcfg then s.illegal
  else s.gate (.cmd (.wstrm p (BitVec.ofNat 32 at_) s.me.arch.wbcfg) s.issuer)

/-! Streams. -/

/-- R144: the least and the greatest address of a stream's sequence. -/
def streamHull (d : BitVec 512) : Int × Int :=
  let part := fun (e : Nat) (st : Int) => ((min 0 ((e - 1 : Nat) * st), max 0 ((e - 1 : Nat) * st)) : Int × Int)
  let p1 := part (u16At d 8) (u32At d 0x10).toInt
  let p2 := part (u16At d 10) (u32At d 0x14).toInt
  let p3 := part (u16At d 12) (u32At d 0x18).toInt
  let base : Int := (u32At d 0).toNat
  (base + p1.1 + p2.1 + p3.1, base + p1.2 + p2.2 + p3.2 + (u32At d 4).toNat - 1)
/-- R144, R145: a descriptor that may be bound. The spec does not say what the base range spans: the model takes the L0 bytes
from the base, in one space, of a DEC stream too (log entry 88). -/
def streamOk (d : BitVec 512) (write : Bool) : Bool :=
  let base := (u32At d 0).toNat
  let l0 := (u32At d 4).toNat
  let lts := decide (0x10000000 ≤ base)
  base % 4 == 0 && l0 % 4 == 0 && 4 ≤ l0 && l0 ≤ 16777216 && 1 ≤ u16At d 8 && 1 ≤ u16At d 10 && 1 ≤ u16At d 12
    && streamTotal d % 256 == 0 && u8At d 14 < 8 && u8At d 15 == 0 && u16At d 0x1E == 0 && zeroBytes d 0x28 0x40
    && (base + l0 ≤ 0x80000 || (lts && base + l0 ≤ 0x14000000))
    && (if write && lts then u8At d 0x1C < 8 && u8At d 0x1D < 4 else u8At d 0x1C == 0 && u8At d 0x1D == 0)
    && (!streamDec d || (!write && u16At d 8 == 1 && u16At d 10 == 1 && u16At d 12 == 1 && (u32At d 0x20).toNat % 2 == 0))
/-- R145: another stream of the core is bound with DEC. -/
def State.coreDec (s : State) (g : Nat) : Bool :=
  [g, sibling g].any fun h => (s.ctx h).arch.streams.any fun p => streamDec p.2.desc
/-- R144: the addresses at which the runs of a stream start. -/
def streamRuns (d : BitVec 512) : List Int :=
  (List.range (u16At d 12)).flatMap fun i3 => (List.range (u16At d 10)).flatMap fun i2 => (List.range (u16At d 8)).map fun i1 =>
    ((u32At d 0).toNat : Int) + i1 * (u32At d 0x10).toInt + i2 * (u32At d 0x14).toInt + i3 * (u32At d 0x18).toInt
/-- R213: the lowest LTS address outside a window of n bytes from a. -/
def runLeaves (lo hi : Int) (n : Nat) (a : Int) : Option Nat :=
  let first := max a 0x10000000
  let last := min (a + n - 1) 0x13FFFFFF
  if last < first then none
  else if first < lo then some first.toNat
  else if hi < last then some (max first (hi + 1)).toNat
  else none
/-- R213: a write stream of a phased task whose range leaves the task's LTS window: of a base in near store by the bytes that
its strides put into LTS. -/
def State.streamLeaves (s : State) (d : BitVec 512) : Option Nat :=
  match s.myKernel s.cur with
  | none => none
  | some k =>
    let h := streamHull d
    let lo : Int := (u32At k.desc 0x74).toNat
    let hi : Int := (u32At k.desc 0x78).toNat
    if (u32At d 0).toNat < 0x10000000 then
      if h.2 < 0x10000000 then none else ((streamRuns d).filterMap (runLeaves lo hi (u32At d 4).toNat)).min?
    else if h.1 < lo then some h.1.toNat
    else if hi < h.2 then some (max hi h.1 + 1).toNat
    else none
/-- R143, R145, R213: STRB; the name is a stream from the next tick on, since slot E is the last of its bundle. -/
def execStrb (dir : Bool) (q : BitVec 3) (a : BitVec 5) (s : State) : Res := inE s fun s =>
  let at_ := (s.rs a).toNat % 2 ^ 32
  let d := s.packet at_
  let c := s.me
  if !c.blockOk at_ 64 64 || !streamOk d dir || (AMap.find c.arch.streams q.toNat).isSome || (streamDec d && s.coreDec s.cur)
  then s.illegal
  else match (if dir && s.isPhased s.cur then s.streamLeaves d else none) with
    | some x => s.raise (s.slotCause 0x0C 0 (BitVec.ofNat 64 x))
    | none =>
      let st : Stream := ⟨d, dir, 0, if c.intrap then 0 else c.serial, 0⟩
      (s.modCtx s.cur fun x => { x with
        arch := { x.arch with streams := AMap.put x.arch.streams q.toNat st }
        units := AMap.del x.units q.toNat
        fetched := AMap.put x.fetched q.toNat 0
        fetchOff := AMap.put x.fetchOff q.toNat 0
        sqblock := AMap.del x.sqblock q.toNat }).gate (.cmd (.strb q.toNat) s.issuer)
/-- R143, R145: STRU; of an unbound stream it has no effect. -/
def execStru (q : BitVec 3) (s : State) : Res := inE s fun s =>
  if (AMap.find s.me.arch.streams q.toNat).isNone then s
  else (s.modCtx s.cur fun x => { x with
    arch := { x.arch with streams := AMap.del x.arch.streams q.toNat }
    units := AMap.del x.units q.toNat }).gate (.cmd (.stru q.toNat) s.issuer)

/-! Lifetime store, hints, migration. -/

/-- R160: LREF. -/
def execLref (a b : BitVec 5) (s : State) : Res := inE s fun s =>
  let at_ := (s.rs a).toNat % 2 ^ 32
  let n := (s.rs b).toNat % 2 ^ 32
  let row := (at_ - 0x10000000) / 1024
  if n ≠ 0 && !(0x10000000 ≤ at_ && at_ < 0x14000000 && row + n ≤ 65536) then s.illegal
  else s.gate (.cmd (.lref row n) s.issuer)
/-- R161: LQRY. -/
def execLqry (a b : BitVec 5) (s : State) : Res := inE s fun s =>
  let at_ := (s.rs a).toNat % 2 ^ 32
  let dst := (s.rs b).toNat % 2 ^ 32
  if !(0x10000000 ≤ at_ && at_ < 0x14000000) || !s.me.blockOk dst 8 8 then s.illegal
  else s.gate (.cmd (.lqry ((at_ - 0x10000000) / 1024) (BitVec.ofNat 32 dst)) s.issuer)
/-- R184: PHINT. -/
def execPhint (access : HintAccess) (tier : HintTier) (a b : BitVec 5) (s : State) : Res := inE s fun s =>
  s.gate (.cmd (.phint access tier (s.rs a) (s.rs b)) s.issuer)
/-- R185: bytes of a page size code. -/
def pageBytes (size : Nat) : Nat := if size = 0 then 0x1000 else if size = 1 then 0x200000 else 0x40000000
/-- R185: a PMIG packet that is legal on a device. -/
def pmigOk (p : BitVec 512) (dev : Nat) : Bool :=
  let size := u8At p 0xC
  let tier := u8At p 0xD
  let target := u16At p 0xE
  size ≤ 2 && tier ≤ 2 && target < 512 && 1 ≤ (u32At p 8).toNat && (u32At p 8).toNat ≤ 65535
    && (u64At p 0).toNat % pageBytes size == 0 && zeroBytes p 0x18 0x40
    && (if tier = 2 then target != dev else target == dev)
/-- R185, R330: PMIG. -/
def execPmig (a b : BitVec 5) (s : State) : Res := inE s fun s =>
  let at_ := (s.rs a).toNat % 2 ^ 32
  let p := s.packet at_
  if !s.isSupv s.cur || !s.me.blockOk at_ 64 64 || !pmigOk p s.edge.dev || !pairOk (s.rs b) then s.illegal
  else s.gate (.cmd (.pmig p (BitVec.ofNat 32 at_) (s.rs b)) s.issuer)

end Sys2Proof.Machine
end

