-- ==== Sys2Proof/Machine/Float.lean ====
section
/-!
DEFINITION. Number formats, rounding, stochastic rounding and the windowed sum (R76 to R97): exact values as signed
dyadic numbers, rounded once.
-/

namespace Sys2Proof.Machine

/-- An exact value: NaN, an infinity, or ±m × 2^e (zero keeps its sign). -/
inductive FV where
  | nan
  | inf (neg : Bool)
  | fin (neg : Bool) (m : Nat) (e : Int)
  deriving DecidableEq, Repr

/-- R77: which special encodings a format has. -/
inductive Specials where
  | ieee | nanOnly | none
  deriving DecidableEq, Repr

/-- R76: a float format: exponent bits, fraction bits, bias, special encodings. -/
structure FFmt where
  eb : Nat
  mb : Nat
  bias : Nat
  sp : Specials
  deriving DecidableEq, Repr

/-- R76: FP32. -/
def fp32 : FFmt := ⟨8, 23, 127, .ieee⟩
/-- R76: BF16. -/
def bf16 : FFmt := ⟨8, 7, 127, .ieee⟩
/-- R76: FP16. -/
def fp16 : FFmt := ⟨5, 10, 15, .ieee⟩
/-- R76: E4M3. -/
def e4m3 : FFmt := ⟨4, 3, 7, .nanOnly⟩
/-- R76: E5M2. -/
def e5m2 : FFmt := ⟨5, 2, 15, .ieee⟩
/-- R76: FP6 E3M2. -/
def e3m2 : FFmt := ⟨3, 2, 3, .none⟩
/-- R76: FP6 E2M3. -/
def e2m3 : FFmt := ⟨2, 3, 1, .none⟩
/-- R76: E2M1. -/
def e2m1 : FFmt := ⟨2, 1, 1, .none⟩

/-- The sign bit's place. -/
def FFmt.signPos (f : FFmt) : Nat := f.eb + f.mb
/-- The largest exponent field. -/
def FFmt.emaxField (f : FFmt) : Nat := 2 ^ f.eb - 1

/-- R76, R77: the value of a code. -/
def decodeF (f : FFmt) (x : Nat) : FV :=
  let neg := x.testBit f.signPos
  let e := x / 2 ^ f.mb % 2 ^ f.eb
  let fr := x % 2 ^ f.mb
  if f.sp = .ieee ∧ e = f.emaxField then (if fr = 0 then .inf neg else .nan)
  else if f.sp = .nanOnly ∧ e = f.emaxField ∧ fr = 2 ^ f.mb - 1 then .nan
  else if e = 0 then .fin neg fr (1 - (f.bias : Int) - f.mb)
  else .fin neg (2 ^ f.mb + fr) ((e : Int) - f.bias - f.mb)

/-- R77: the canonical NaN. -/
def FFmt.nan (f : FFmt) : Nat :=
  if f.sp = .ieee then f.emaxField * 2 ^ f.mb + 2 ^ (f.mb - 1) else f.emaxField * 2 ^ f.mb + (2 ^ f.mb - 1)
/-- A code with a sign. -/
def FFmt.signed (f : FFmt) (neg : Bool) (x : Nat) : Nat := (if neg then 2 ^ f.signPos else 0) + x
/-- R77: an infinity. -/
def FFmt.inf (f : FFmt) (neg : Bool) : Nat := f.signed neg (f.emaxField * 2 ^ f.mb)
/-- R76: the code of the largest finite magnitude. -/
def FFmt.maxCode (f : FFmt) : Nat := match f.sp with
  | .ieee => f.emaxField * 2 ^ f.mb - 1
  | .nanOnly => f.emaxField * 2 ^ f.mb + (2 ^ f.mb - 2)
  | .none => f.emaxField * 2 ^ f.mb + (2 ^ f.mb - 1)

/-- A rounding in effect: the mode, saturation, and for SR the random field with its width. -/
structure Rnd where
  mode : RMode
  sat : Bool
  field : Nat
  width : Nat
  deriving DecidableEq, Repr

/-- Rounding to nearest even without saturation. -/
def rneRnd : Rnd := ⟨.rne, false, 0, 32⟩
/-- A mode without a draw; SR acts as RNE (R65, R81). -/
def plainRnd (m : RMode) (sat : Bool) : Rnd := ⟨if m = .sr then .rne else m, sat, 0, 32⟩

/-- R81, R85: whether a magnitude with remainder r of 2^sh (and something more below, if sticky) rounds up. -/
def roundsUp (rd : Rnd) (neg : Bool) (q r sh : Nat) (sticky : Bool) : Bool :=
  match rd.mode with
  | .rne => 2 ^ sh < 2 * r || (2 * r == 2 ^ sh && (sticky || q % 2 == 1))
  | .rna => 2 ^ sh ≤ 2 * r
  | .rtz => false
  | .rdn => neg && (r != 0 || sticky)
  | .rup => !neg && (r != 0 || sticky)
  | .sr => r != 0 && 2 ^ rd.width ≤ r * 2 ^ rd.width / 2 ^ sh + rd.field

/-- A magnitude m × 2^e rounded to a multiple of 2^k: the multiple, and whether it was moved up and was exact. -/
def roundMag (rd : Rnd) (neg : Bool) (m : Nat) (e k : Int) (sticky : Bool) : Nat × Bool × Bool :=
  if k ≤ e then
    let q := m * 2 ^ (e - k).toNat
    let up := roundsUp rd neg q 0 1 sticky
    (if up then q + 1 else q, up, !sticky)
  else
    let sh := (k - e).toNat
    let q := m / 2 ^ sh
    let r := m % 2 ^ sh
    let up := roundsUp rd neg q r sh sticky
    (if up then q + 1 else q, up, r == 0 && !sticky)

/-- A rounded result: its code, whether it was clamped by saturation, whether it is a nonzero subnormal. -/
structure Rounded where
  bits : Nat
  sat : Bool
  sub : Bool
  deriving DecidableEq, Repr

/-- R82: whether an overflow gives an infinity. -/
def overflowToInf (rd : Rnd) (neg up exact : Bool) : Bool :=
  match rd.mode with
  | .rne | .rna => true
  | .rtz => false
  | .rdn => neg
  | .rup => !neg
  | .sr => up || exact

/-- R81, R82: a nonzero magnitude rounded once to a format. -/
def roundNonzero (f : FFmt) (rd : Rnd) (neg : Bool) (m : Nat) (e : Int) (sticky : Bool) : Rounded :=
  let lead : Int := (Nat.log2 m : Int) + e
  let emin : Int := 1 - (f.bias : Int)
  let k : Int := max lead emin - f.mb
  let (q, up, exact) := roundMag rd neg m e k sticky
  if q = 0 then ⟨f.signed neg 0, false, false⟩ else
  let lq := Nat.log2 q
  let ex : Int := (lq : Int) + k
  let code : Nat :=
    if ex < emin then q
    else ((ex + f.bias).toNat) * 2 ^ f.mb + (q * 2 ^ f.mb / 2 ^ lq - 2 ^ f.mb)
  if f.maxCode < code then
    if rd.sat then ⟨f.signed neg f.maxCode, true, false⟩
    else if overflowToInf rd neg up exact then
      ⟨if f.sp = .ieee then f.inf neg else f.nan, false, false⟩
    else ⟨f.signed neg f.maxCode, false, false⟩
  else ⟨f.signed neg code, false, code < 2 ^ f.mb⟩

/-- R81 to R83, R90: a value rounded to a format; an infinity where the format has none saturates or becomes NaN. -/
def roundF (f : FFmt) (rd : Rnd) : FV → Rounded
  | .nan => ⟨f.nan, false, false⟩
  | .inf neg =>
    if f.sp = .ieee then ⟨f.inf neg, false, false⟩
    else if rd.sat then ⟨f.signed neg f.maxCode, true, false⟩ else ⟨f.nan, false, false⟩
  | .fin neg m e => if m = 0 then ⟨f.signed neg 0, false, false⟩ else roundNonzero f rd neg m e false

/-- The integer m with its sign. -/
def signedMag (neg : Bool) (m : Nat) : Int := if neg then -(m : Int) else m

/-- R83: an exact sum; the sign of an exact zero is plus except under RDN. -/
def addFV (mode : RMode) : FV → FV → FV
  | .nan, _ | _, .nan => .nan
  | .inf a, .inf b => if a = b then .inf a else .nan
  | .inf a, .fin _ _ _ => .inf a
  | .fin _ _ _, .inf b => .inf b
  | .fin a m e, .fin b n k =>
    if m = 0 ∧ n = 0 then .fin (if a = b then a else mode = .rdn) 0 0
    else
      let lo := min e k
      let v := signedMag a (m * 2 ^ (e - lo).toNat) + signedMag b (n * 2 ^ (k - lo).toNat)
      if v = 0 then .fin (mode = .rdn) 0 0 else .fin (v < 0) v.natAbs lo
/-- R83: an exact product. -/
def mulFV : FV → FV → FV
  | .nan, _ | _, .nan => .nan
  | .inf a, .inf b => .inf (a != b)
  | .inf a, .fin b m _ => if m = 0 then .nan else .inf (a != b)
  | .fin a m _, .inf b => if m = 0 then .nan else .inf (a != b)
  | .fin a m e, .fin b n k => .fin (a != b) (m * n) (e + k)
/-- The opposite value. -/
def negFV : FV → FV
  | .nan => .nan
  | .inf a => .inf (!a)
  | .fin a m e => .fin (!a) m e

/-- A finite value is zero. -/
def FV.isZero : FV → Bool
  | .fin _ m _ => m == 0
  | _ => false
/-- A value is NaN. -/
def FV.isNan : FV → Bool
  | .nan => true
  | _ => false

/-- R67, R83: x < y among ordered values; +0 = −0. -/
def ltFV : FV → FV → Bool
  | .nan, _ | _, .nan => false
  | .inf a, .inf b => a && !b
  | .inf a, .fin _ _ _ => a
  | .fin _ _ _, .inf b => !b
  | .fin a m e, .fin b n k =>
    let lo := min e k
    signedMag a (m * 2 ^ (e - lo).toNat) < signedMag b (n * 2 ^ (k - lo).toNat)
/-- R67: x = y among ordered values. -/
def eqFV (x y : FV) : Bool := !x.isNan && !y.isNan && !ltFV x y && !ltFV y x
/-- R67: x ≤ y among ordered values. -/
def leFV (x y : FV) : Bool := !x.isNan && !y.isNan && !ltFV y x
/-- The sign of a code. -/
def FFmt.neg (f : FFmt) (x : Nat) : Bool := x.testBit f.signPos
/-- R83: the minimum of two codes; a NaN gives the other operand, two the canonical NaN; −0 is below +0. -/
def minF (f : FFmt) (x y : Nat) : Nat :=
  let a := decodeF f x
  let b := decodeF f y
  if a.isNan then (if b.isNan then f.nan else y) else if b.isNan then x
  else if ltFV a b then x else if ltFV b a then y else if f.neg x then x else y
/-- R83: the maximum of two codes. -/
def maxF (f : FFmt) (x y : Nat) : Nat :=
  let a := decodeF f x
  let b := decodeF f y
  if a.isNan then (if b.isNan then f.nan else y) else if b.isNan then x
  else if ltFV a b then y else if ltFV b a then x else if f.neg x then y else x

/-- R84: a subnormal code becomes zero of its sign. -/
def flushSub (f : FFmt) (x : Nat) : Nat :=
  if x / 2 ^ f.mb % 2 ^ f.eb = 0 then f.signed (f.neg x) 0 else x

/-- R81, R90: a value rounded to an integer and clamped; NaN gives 0. The flag says clamped or NaN. -/
def roundInt (rd : Rnd) (lo hi : Int) : FV → Int × Bool
  | .nan => (0, true)
  | .inf neg => (if neg then lo else hi, true)
  | .fin neg m e =>
    let v := signedMag neg (if m = 0 then 0 else (roundMag rd neg m e 0 false).1)
    if v < lo then (lo, true) else if hi < v then (hi, true) else (v, false)

/-- An integer as an exact value. -/
def intFV (x : Int) : FV := .fin (x < 0) x.natAbs 0

/-! The counter-based generator (R86, R87). -/

/-- R86: the round constants K, M and S. -/
def rngConsts : List (Word × Word × Nat) :=
  [(0x6A1D4C83F27590B1, 0xA3B55C19E6D74F29, 29), (0xB3E017A95D2C64F3, 0x8F3D62C1B47A05E5, 32),
   (0x2F94C85B0E71DA27, 0xE7A159304CDB92F7, 27), (0xD1783E06A9B452CD, 0x5B8CD04F3A26E1C9, 31),
   (0x48C5F1D27B039E61, 0xC94E17B36F05A87D, 30), (0x9E2B6A74C1F80D35, 0x71D28AE605B93C43, 33)]
/-- R86: lane word j of the block of key k and counter c. -/
def laneWord (k c : Word) (j : Nat) : Word :=
  let y := k ^^^ (BitVec.ofNat 64 j * 0x3C6EF372FE94F82B)
  let x := rngConsts.foldl (fun x p =>
    let x1 := (x ^^^ y) + p.1
    (x1 ^^^ (x1 >>> p.2.2)) * p.2.1) c
  x ^^^ (x >>> 31)
/-- R85: B for a result width in bits. -/
def drawWidth (bits : Nat) : Nat := if bits ≤ 8 then 16 else 32
/-- R87: the random field of result element i of a width in bits. -/
def drawField (k c : Word) (bits i : Nat) : Nat :=
  if bits = 32 then (laneWord k c i).toNat % 2 ^ 32
  else if bits = 16 then (laneWord k c (i / 2)).toNat / 2 ^ (32 * (i % 2)) % 2 ^ 32
  else (laneWord k c (i / 4)).toNat / 2 ^ (16 * (i % 4)) % 2 ^ 16

/-! The windowed sum (R94, R95). -/

/-- The weight of the leading bit of a nonzero finite value. -/
def FV.lead : FV → Option Int
  | .fin _ m e => if m = 0 then none else some ((Nat.log2 m : Int) + e)
  | _ => none
/-- The greatest of optional integers. -/
def maxLead (l : List FV) : Option Int :=
  l.foldl (fun r x => match r, x.lead with
    | none, y => y
    | some a, none => some a
    | some a, some b => some (max a b)) none
/-- R94: a term truncated toward zero to a multiple of 2^q, in units of 2^q, and whether bits were lost. -/
def truncTerm (q : Int) : FV → Int × Bool
  | .fin neg m e =>
    if q ≤ e then (signedMag neg (m * 2 ^ (e - q).toNat), false)
    else (signedMag neg (m / 2 ^ (q - e).toNat), m % 2 ^ (q - e).toNat != 0)
  | _ => (0, false)

/-- What a windowed sum gives: the FP32 code, the lost-significance flag, and whether it was flushed to zero. -/
structure WSum where
  bits : Nat
  lsf : Bool
  ufl : Bool
  deriving DecidableEq, Repr

/-- R94: the final rounding of an exact sum s × 2^q. -/
def wsumRound (s : Int) (q : Int) (lsf : Bool) : WSum :=
  let neg := s < 0
  let m := s.natAbs
  let lead : Int := (Nat.log2 m : Int) + q
  let (r, _, _) := roundMag rneRnd neg m q (lead - 23) false
  let lr : Int := (Nat.log2 r : Int) + (lead - 23)
  if 128 ≤ lr then ⟨fp32.inf neg, lsf, false⟩
  else if lr < -126 then ⟨fp32.signed neg 0, lsf, true⟩
  else ⟨(roundNonzero fp32 rneRnd neg r (lead - 23) false).bits, lsf, false⟩

/-- R94: window_sum. -/
def windowSum (terms : List FV) (w : Nat) : WSum :=
  let pinf := terms.any (· == .inf false)
  let ninf := terms.any (· == .inf true)
  if terms.any FV.isNan || (pinf && ninf) then ⟨fp32.nan, false, false⟩
  else if pinf then ⟨fp32.inf false, false, false⟩
  else if ninf then ⟨fp32.inf true, false, false⟩
  else match maxLead terms with
    | none => ⟨0, false, false⟩
    | some e =>
      let q : Int := e - w + 1
      let ts := terms.map (truncTerm q)
      let s : Int := ts.foldl (fun a t => a + t.1) 0
      let lsf := ts.any Prod.snd
      if s = 0 then ⟨0, lsf, false⟩ else wsumRound s q lsf

/-- R60, R67: the float format of a vector width under FMT. -/
def vecFmt (w : EW) (f : BitVec 32) : FFmt :=
  match w with
  | .w32 => fp32
  | .w16 => if fmtH16 f then fp16 else bf16
  | .w8 => if fmtF8 f then e5m2 else e4m3

end Sys2Proof.Machine
end

