-- ==== Sys2Proof/Machine/ScalarFloat.lean ====
section
/-!
DEFINITION. Scalar floating point (R307, R309, R310), slots S and T. Subnormals are kept and no flush flag is set
(R65); SR rounds as RNE and draws nothing.
-/

namespace Sys2Proof.Machine

/-- R307: the rounding of a scalar float instruction. -/
def State.scalarRnd (s : State) : Rnd := plainRnd (fmtRm s.me.arch.fmt) false
/-- R307: the FP32 value in bits [31:0] of a scalar. -/
def fpLow (x : Word) : FV := decodeF fp32 (x.toNat % 2 ^ 32)
/-- R307: an FP32 result in bits [31:0]. -/
def State.landF (s : State) (l : Nat) (d : BitVec 5) (v : FV) : State :=
  s.landS l d.toNat (BitVec.ofNat 64 (roundF fp32 s.scalarRnd v).bits)
/-- R307: a two-operand arithmetic instruction. -/
def State.float3 (s : State) (d a b : BitVec 5) (f : RMode → FV → FV → FV) : State :=
  s.landF 4 d (f s.scalarRnd.mode (fpLow (s.rs a)) (fpLow (s.rs b)))
/-- R307: a compare. -/
def State.floatC (s : State) (d a b : BitVec 5) (f : FV → FV → Bool) : State :=
  s.landS 4 d.toNat (bit01 (f (fpLow (s.rs a)) (fpLow (s.rs b))))
/-- R307: FMIN or FMAX. -/
def State.floatM (s : State) (d a b : BitVec 5) (f : Nat → Nat → Nat) : State :=
  s.landS 4 d.toNat (BitVec.ofNat 64 (f ((s.rs a).toNat % 2 ^ 32) ((s.rs b).toNat % 2 ^ 32)))

/-- R307: FADD. -/
def execFadd (d a b : BitVec 5) (s : State) : Res := inST s fun s => s.float3 d a b addFV
/-- R307: FSUB. -/
def execFsub (d a b : BitVec 5) (s : State) : Res := inST s fun s => s.float3 d a b fun m x y => addFV m x (negFV y)
/-- R307: FMUL. -/
def execFmul (d a b : BitVec 5) (s : State) : Res := inST s fun s => s.float3 d a b fun _ x y => mulFV x y
/-- R307: FMIN. -/
def execFmin (d a b : BitVec 5) (s : State) : Res := inST s fun s => s.floatM d a b (minF fp32)
/-- R307: FMAX. -/
def execFmax (d a b : BitVec 5) (s : State) : Res := inST s fun s => s.floatM d a b (maxF fp32)
/-- R307: FEQ. -/
def execFeq (d a b : BitVec 5) (s : State) : Res := inST s fun s => s.floatC d a b eqFV
/-- R307: FLT. -/
def execFlt (d a b : BitVec 5) (s : State) : Res := inST s fun s => s.floatC d a b ltFV
/-- R307: FLE. -/
def execFle (d a b : BitVec 5) (s : State) : Res := inST s fun s => s.floatC d a b leFV
/-- R310: FFMA, one rounding; d is read at issue. -/
def execFfma (d a b : BitVec 5) (s : State) : Res := inST s fun s =>
  s.landF 4 d (addFV s.scalarRnd.mode (fpLow (s.rs d)) (mulFV (fpLow (s.rs a)) (fpLow (s.rs b))))
/-- R309: FCVTI clamps to 64 signed bits; a clamp or a NaN sets SATF. -/
def execFcvti (d a : BitVec 5) (s : State) : Res := inST s fun s =>
  let r := roundInt s.scalarRnd (-2 ^ 63) (2 ^ 63 - 1) (fpLow (s.rs a))
  (s.landS 3 d.toNat (BitVec.ofInt 64 r.1)).raiseFlags 3 (if r.2 then flagSat else 0)
/-- R309: FCVTF. -/
def execFcvtf (d a : BitVec 5) (s : State) : Res := inST s fun s => s.landF 3 d (intFV (s.rs a).toInt)

end Sys2Proof.Machine
end

