-- ==== Sys2Proof/Machine/VectorInt.lean ====
section
/-!
DEFINITION. Vector integer instructions (R341 to R347, R352, R358, R362 to R371) and the slot-M vector accesses.
-/

namespace Sys2Proof.Machine

/-- R341: the product's signed high half. -/
def mulHigh (b x y : Nat) : Nat := wrap b (signed b x * signed b y / 2 ^ b)
/-- R341: signed minimum. -/
def minSigned (b x y : Nat) : Nat := if signed b x < signed b y then x else y
/-- R341: signed maximum. -/
def maxSigned (b x y : Nat) : Nat := if signed b x < signed b y then y else x
/-- R341: the clamped signed sum. -/
def addClamp (b x y : Nat) : Int := max (-2 ^ (b - 1)) (min (2 ^ (b - 1) - 1) (signed b x + signed b y))
/-- R366, R370: a shift count: the low log2 w bits. -/
def shiftCount (b y : Nat) : Nat := y % b
/-- R370: arithmetic shift right. -/
def sraLane (b x h : Nat) : Nat := wrap b (signed b x / 2 ^ h)

/-- R341: VADD. -/
def execVadd (vd va vb : BitVec 5) (pg : BitVec 3) (w : EW) (s : State) : Res := inVW s fun s => s.vmap2 2 vd va vb pg w fun x y => x + y
/-- R341: VSUB. -/
def execVsub (vd va vb : BitVec 5) (pg : BitVec 3) (w : EW) (s : State) : Res := inVW s fun s => s.vmap2 2 vd va vb pg w fun x y => x + 2 ^ w.bits - y
/-- R341: VMUL. -/
def execVmul (vd va vb : BitVec 5) (pg : BitVec 3) (w : EW) (s : State) : Res := inVW s fun s => s.vmap2 3 vd va vb pg w fun x y => x * y
/-- R341: VMULH. -/
def execVmulh (vd va vb : BitVec 5) (pg : BitVec 3) (w : EW) (s : State) : Res := inVW s fun s => s.vmap2 3 vd va vb pg w fun x y => mulHigh w.bits x y
/-- R341: VMIN. -/
def execVmin (vd va vb : BitVec 5) (pg : BitVec 3) (w : EW) (s : State) : Res := inVW s fun s => s.vmap2 2 vd va vb pg w fun x y => minSigned w.bits x y
/-- R341: VMAX. -/
def execVmax (vd va vb : BitVec 5) (pg : BitVec 3) (w : EW) (s : State) : Res := inVW s fun s => s.vmap2 2 vd va vb pg w fun x y => maxSigned w.bits x y
/-- R341: VABS. -/
def execVabs (vd va : BitVec 5) (pg : BitVec 3) (w : EW) (s : State) : Res := inVW s fun s => s.vmap1 2 vd va pg w fun x => (signed w.bits x).natAbs
/-- R341: VADDS clamps; a clamp in an active element sets SATF. -/
def execVadds (vd va vb : BitVec 5) (pg : BitVec 3) (w : EW) (s : State) : Res := inVW s fun s =>
  s.checkDst vd fun s => s.readV 2 va fun x s => s.readV 2 vb fun y s =>
    let p := s.rp pg
    let r := List.zipWith (fun a c => wrap w.bits (addClamp w.bits a c)) (lanes w x) (lanes w y)
    let clamped := (List.range w.count).any fun i => activeLane w p i
      && addClamp w.bits (lane w x i) (lane w y i) != signed w.bits (lane w x i) + signed w.bits (lane w y i)
    (s.raiseFlags 2 (if clamped then flagSat else 0)).landV 2 vd (activeMask w p) (pack w r)
/-- R342: VAND. -/
def execVand (vd va vb : BitVec 5) (pg : BitVec 3) (w : EW) (s : State) : Res := inVW s fun s => s.vmap2 2 vd va vb pg w fun x y => x &&& y
/-- R342: VOR. -/
def execVor (vd va vb : BitVec 5) (pg : BitVec 3) (w : EW) (s : State) : Res := inVW s fun s => s.vmap2 2 vd va vb pg w fun x y => x ||| y
/-- R342: VXOR. -/
def execVxor (vd va vb : BitVec 5) (pg : BitVec 3) (w : EW) (s : State) : Res := inVW s fun s => s.vmap2 2 vd va vb pg w fun x y => x ^^^ y
/-- R342: VANDN. -/
def execVandn (vd va vb : BitVec 5) (pg : BitVec 3) (w : EW) (s : State) : Res := inVW s fun s => s.vmap2 2 vd va vb pg w fun x y => x &&& (2 ^ w.bits - 1 - y)
/-- R370: VSHL. -/
def execVshl (vd va vb : BitVec 5) (pg : BitVec 3) (w : EW) (s : State) : Res := inVW s fun s => s.vmap2 2 vd va vb pg w fun x y => x * 2 ^ shiftCount w.bits y
/-- R370: VSHR. -/
def execVshr (vd va vb : BitVec 5) (pg : BitVec 3) (w : EW) (s : State) : Res := inVW s fun s => s.vmap2 2 vd va vb pg w fun x y => x / 2 ^ shiftCount w.bits y
/-- R370: VSRA. -/
def execVsra (vd va vb : BitVec 5) (pg : BitVec 3) (w : EW) (s : State) : Res := inVW s fun s => s.vmap2 2 vd va vb pg w fun x y => sraLane w.bits x (shiftCount w.bits y)
/-- R370: VROTL. -/
def execVrotl (vd va vb : BitVec 5) (pg : BitVec 3) (w : EW) (s : State) : Res := inVW s fun s => s.vmap2 2 vd va vb pg w fun x y => x * 2 ^ shiftCount w.bits y + x / 2 ^ (w.bits - shiftCount w.bits y)
/-- R346: VCEQ. -/
def execVceq (pd : BitVec 3) (va vb : BitVec 5) (pg : BitVec 3) (w : EW) (s : State) : Res := inVW s fun s => s.vcmp 2 pd va vb pg w fun x y => x == y
/-- R346: VCNE. -/
def execVcne (pd : BitVec 3) (va vb : BitVec 5) (pg : BitVec 3) (w : EW) (s : State) : Res := inVW s fun s => s.vcmp 2 pd va vb pg w fun x y => x != y
/-- R346: VCLT. -/
def execVclt (pd : BitVec 3) (va vb : BitVec 5) (pg : BitVec 3) (w : EW) (s : State) : Res := inVW s fun s => s.vcmp 2 pd va vb pg w fun x y => signed w.bits x < signed w.bits y
/-- R346: VCLE. -/
def execVcle (pd : BitVec 3) (va vb : BitVec 5) (pg : BitVec 3) (w : EW) (s : State) : Res := inVW s fun s => s.vcmp 2 pd va vb pg w fun x y => signed w.bits x ≤ signed w.bits y
/-- R346: VCLTU. -/
def execVcltu (pd : BitVec 3) (va vb : BitVec 5) (pg : BitVec 3) (w : EW) (s : State) : Res := inVW s fun s => s.vcmp 2 pd va vb pg w fun x y => x < y
/-- R346: VCLEU. -/
def execVcleu (pd : BitVec 3) (va vb : BitVec 5) (pg : BitVec 3) (w : EW) (s : State) : Res := inVW s fun s => s.vcmp 2 pd va vb pg w fun x y => x ≤ y
/-- R366: VADDX. -/
def execVaddx (vd va vb : BitVec 5) (pg : BitVec 3) (w : EW) (s : State) : Res := inVW s fun s => s.vmapX 2 vd va vb pg w fun x y => x + y
/-- R366: VSUBX. -/
def execVsubx (vd va vb : BitVec 5) (pg : BitVec 3) (w : EW) (s : State) : Res := inVW s fun s => s.vmapX 2 vd va vb pg w fun x y => x + 2 ^ w.bits - y
/-- R366: VMULX. -/
def execVmulx (vd va vb : BitVec 5) (pg : BitVec 3) (w : EW) (s : State) : Res := inVW s fun s => s.vmapX 3 vd va vb pg w fun x y => x * y
/-- R366: VSHLX. -/
def execVshlx (vd va vb : BitVec 5) (pg : BitVec 3) (w : EW) (s : State) : Res := inVW s fun s => s.vmapX 2 vd va vb pg w fun x y => x * 2 ^ shiftCount w.bits y
/-- R366: VSHRX. -/
def execVshrx (vd va vb : BitVec 5) (pg : BitVec 3) (w : EW) (s : State) : Res := inVW s fun s => s.vmapX 2 vd va vb pg w fun x y => x / 2 ^ shiftCount w.bits y
/-- R366: VSRAX. -/
def execVsrax (vd va vb : BitVec 5) (pg : BitVec 3) (w : EW) (s : State) : Res := inVW s fun s => s.vmapX 2 vd va vb pg w fun x y => sraLane w.bits x (shiftCount w.bits y)
/-- R366: VMINX. -/
def execVminx (vd va vb : BitVec 5) (pg : BitVec 3) (w : EW) (s : State) : Res := inVW s fun s => s.vmapX 2 vd va vb pg w fun x y => minSigned w.bits x y
/-- R366: VMAXX. -/
def execVmaxx (vd va vb : BitVec 5) (pg : BitVec 3) (w : EW) (s : State) : Res := inVW s fun s => s.vmapX 2 vd va vb pg w fun x y => maxSigned w.bits x y
/-- R367: VMOV. -/
def execVmov (vd va : BitVec 5) (pg : BitVec 3) (w : EW) (s : State) : Res := inVW s fun s => s.vmap1 2 vd va pg w id
/-- R343: VBCAST. -/
def execVbcast (vd va : BitVec 5) (pg : BitVec 3) (w : EW) (s : State) : Res := inVW s fun s => s.checkDst vd fun s =>
  s.landV 2 vd (activeMask w (s.rp pg)) (pack w (List.replicate w.count (s.rs va).toNat))
/-- R363: VPOPC. -/
def execVpopc (vd va : BitVec 5) (pg : BitVec 3) (w : EW) (s : State) : Res := inVW s fun s => s.vmap1 2 vd va pg w (popCount w.bits)
/-- R347: VCLZ. -/
def execVclz (vd va : BitVec 5) (pg : BitVec 3) (w : EW) (s : State) : Res := inVW s fun s => s.vmap1 2 vd va pg w (leadingZeros w.bits)
/-- R363: VIOTA. -/
def execViota (vd : BitVec 5) (pg : BitVec 3) (w : EW) (s : State) : Res := inVW s fun s => s.checkDst vd fun s =>
  s.landV 2 vd (activeMask w (s.rp pg)) (pack w (List.range w.count))
/-- R371: VSEL writes all bits. -/
def execVsel (vd va vb : BitVec 5) (pg : BitVec 3) (w : EW) (s : State) : Res := inVW s fun s => s.checkDst vd fun s => s.readV 2 va fun x s => s.readV 2 vb fun y s =>
  s.landV 2 vd allLanes (pack w ((List.range w.count).map fun i => if activeLane w (s.rp pg) i then lane w x i else lane w y i))
/-- R352: VEXTR. -/
def execVextr (vd va vb : BitVec 5) (w : EW) (s : State) : Res := inVW s fun s => s.readV 3 va fun x s =>
  s.landS 3 vd.toNat (BitVec.ofNat 64 (lane w x ((s.rs vb).toNat % w.count)))
/-- R362: VINS. -/
def execVins (vd va vb : BitVec 5) (w : EW) (s : State) : Res := inVW s fun s => s.checkDst vd fun s =>
  let i := (s.rs vb).toNat % w.count
  s.landV 2 vd (laneMask w (· == i)) (pack w (List.replicate w.count (s.rs va).toNat))
/-- R368: VPERM. -/
def execVperm (vd va vb : BitVec 5) (pg : BitVec 3) (w : EW) (s : State) : Res := inVW s fun s => s.checkDst vd fun s => s.readV 3 va fun x s => s.readV 3 vb fun y s =>
  s.landV 3 vd (activeMask w (s.rp pg)) (pack w ((lanes w y).map fun j => lane w x (j % w.count)))
/-- R368: VROT. -/
def execVrot (vd va vb : BitVec 5) (pg : BitVec 3) (w : EW) (s : State) : Res := inVW s fun s => s.checkDst vd fun s => s.readV 3 va fun x s =>
  s.landV 3 vd (activeMask w (s.rp pg)) (pack w ((List.range w.count).map fun i => lane w x ((i + (s.rs vb).toNat) % w.count)))
/-- R368: VREV. -/
def execVrev (vd va : BitVec 5) (pg : BitVec 3) (w : EW) (s : State) : Res := inVW s fun s => s.checkDst vd fun s => s.readV 3 va fun x s =>
  s.landV 3 vd (activeMask w (s.rp pg)) (pack w (lanes w x).reverse)
/-- R369: an integer reduction of the active elements into element 0, the rest of the register zero. -/
def State.vreduce (s : State) (vd va : BitVec 5) (pg : BitVec 3) (w : EW) (f : List Nat → Nat) : State :=
  s.checkDst vd fun s => s.readV 6 va fun x s =>
    let act := ((List.range w.count).filter (activeLane w (s.rp pg))).map (lane w x)
    s.landV 6 vd allLanes (BitVec.ofNat 2048 (f act % 2 ^ w.bits))
/-- R369: VRSUM. -/
def execVrsum (vd va : BitVec 5) (pg : BitVec 3) (w : EW) (s : State) : Res := inVW s fun s => s.vreduce vd va pg w fun l => l.foldl (· + ·) 0
/-- R369: VRMAX. -/
def execVrmax (vd va : BitVec 5) (pg : BitVec 3) (w : EW) (s : State) : Res := inVW s fun s => s.vreduce vd va pg w fun l => l.foldl (maxSigned w.bits) (2 ^ (w.bits - 1))
/-- R369: VRMIN. -/
def execVrmin (vd va : BitVec 5) (pg : BitVec 3) (w : EW) (s : State) : Res := inVW s fun s => s.vreduce vd va pg w fun l => l.foldl (minSigned w.bits) (2 ^ (w.bits - 1) - 1)

/-! The bit network (R344 to R345). -/

/-- R344: entry j of a stencil. -/
def stencilEntry (st : BitVec 28672) (j : Nat) : BitVec 14 := st.extractLsb' (14 * j) 14
/-- R345: the output bits of a stencil over the pair va:vb. -/
def routeBits (st : BitVec 28672) (x y : VWord) : VWord :=
  BitVec.ofNat 2048 (packNat 1 ((List.range 2048).map fun j =>
    let e := stencilEntry st j
    let src := fld e 11 0
    let b := if src < 2048 then x.getLsbD src else y.getLsbD (src - 2048)
    match fld e 13 12 with
    | 0 => b.toNat
    | 1 => (!b).toNat
    | 2 => 0
    | _ => 1))
/-- R296: the stencil that a VBNET uses: a BNSET of its own context at t + 16 or later; before that, and for the
sibling before the write completes, the old or the new one by a free choice. A BNSET of the same bundle comes after it. -/
def State.stencil (s : State) (k : Nat) : BitVec 28672 × State :=
  let c := s.core (coreOf s.cur)
  (c.bnWrites.filter fun e => e.2.1 == k && !(e.1 == s.cur && e.2.2.1 == s.me.arch.tick + 16)).foldl (fun r e =>
    if e.1 = s.cur ∧ e.2.2.1 ≤ s.me.arch.tick then (e.2.2.2.2, r.2)
    else
      let ch := r.2.choose
      (if ch.1 % 2 = 0 then r.1 else e.2.2.2.2, ch.2)) (AMap.get 0 c.stencils k, s)
/-- R345: VBNET. -/
def execVbnet (vd va vb : BitVec 5) (k : BitVec 3) (s : State) : Res := inW s fun s =>
  s.checkDst vd fun s => s.readV 3 va fun x s => s.readV 3 vb fun y s =>
    let st := s.stencil k.toNat
    st.2.landV 3 vd allLanes (routeBits st.1 x y)

/-! Slot-M vector accesses (R357). -/

/-- R357: a vector load of the bytes at addresses, one for each byte lane of the mask. -/
def State.vload (s : State) (l : Nat) (d : BitVec 5) (mask : PWord) (addrs : List (Nat × Nat)) : State :=
  let v := BitVec.ofNat 2048 (addrs.foldl (fun acc p => acc + (s.nearByte s.cur p.2).toNat * 2 ^ (8 * p.1)) 0)
  let bad := (s.nearPoison s.cur (addrs.map Prod.snd)).map fun x => BitVec.ofNat 64 (x / 64 * 64)
  (s.rangeFlags l (addrs.map Prod.snd)).landLoaded l d mask v bad
/-- R365, R358: the byte lanes and addresses of elements at element addresses. -/
def elementBytes (z : Nat) (eas : List Nat) : List (Nat × Nat) :=
  eas.zipIdx.flatMap fun p => (List.range z).map fun j => (p.2 * z + j, (p.1 + j) % 2 ^ 32)
/-- R358, R365: the bytes of a scatter; the highest element that covers a byte gives it. -/
def scatterBytes (v : VWord) (bs : List (Nat × Nat)) : List (Nat × Byte) :=
  (bs.foldl (fun m p => AMap.put m p.2 (v.extractLsb' (8 * p.1) 8)) ([] : AMap Byte))
/-- R365: the element addresses of a strided access. -/
def State.strided (s : State) (a b : BitVec 5) (w : EW) : List Nat :=
  (List.range w.count).map fun i =>
    alignDown (((s.rs a).toNat + i * (s.rs b).toNat) % 2 ^ 32) w.bytes
/-- R358: the element addresses of an indexed access. -/
def State.indexed (s : State) (a : BitVec 5) (idx : VWord) (w : EW) : List Nat :=
  (lanes w idx).map fun x => alignDown (((s.rs a).toNat + x * w.bytes) % 2 ^ 32) w.bytes

/-- R364: VLD, byte lane by byte lane. -/
def execVld (t base : BitVec 5) (pg : BitVec 3) (off : BitVec 12) (s : State) : Res := inM s fun s =>
  s.checkDst t fun s =>
    let ea := alignDown (nearAddr (s.rs base) off 256) 4
    let p := s.rp pg
    s.vload 4 t p (((List.range 256).filter fun j => p.getLsbD j).map fun j => (j, (ea + j) % 2 ^ 32))
/-- R364: VST. -/
def execVst (t base : BitVec 5) (pg : BitVec 3) (off : BitVec 12) (s : State) : Res := inM s fun s =>
  s.readV 1 t fun v s =>
    let ea := alignDown (nearAddr (s.rs base) off 256) 4
    let p := s.rp pg
    s.storeNear (((List.range 256).filter fun j => p.getLsbD j).map fun j => ((ea + j) % 2 ^ 32, v.extractLsb' (8 * j) 8))
/-- R365: VLDS. -/
def execVlds (d a b : BitVec 5) (w : EW) (s : State) : Res := inM s fun s =>
  s.checkDst d fun s => s.vload 6 d allLanes (elementBytes w.bytes (s.strided a b w))
/-- R365: VSTS. -/
def execVsts (d a b : BitVec 5) (w : EW) (s : State) : Res := inM s fun s =>
  s.readV 1 d fun v s => s.storeNear (scatterBytes v (elementBytes w.bytes (s.strided a b w)))
/-- R358: VGATH. -/
def execVgath (d a b : BitVec 5) (w : EW) (s : State) : Res := inM s fun s =>
  s.checkDst d fun s => s.readV 8 b fun idx s => s.vload 8 d allLanes (elementBytes w.bytes (s.indexed a idx w))
/-- R358: VSCAT. -/
def execVscat (d a b : BitVec 5) (w : EW) (s : State) : Res := inM s fun s =>
  s.readV 1 d fun v s => s.readV 1 b fun idx s =>
    s.storeNear (scatterBytes v (elementBytes w.bytes (s.indexed a idx w)))

end Sys2Proof.Machine
end

