-- ==== Sys2Proof/Machine/VectorFloat.lean ====
section
/-!
DEFINITION. Vector floating point (R348, R349, R353 to R356): arithmetic with one rounding, compares, reductions and
the segmented dot products.
-/

namespace Sys2Proof.Machine

/-! Rounding in a vector instruction (R81, R84, R88). -/

/-- R84: a source code after zi. -/
def zinF (f : FFmt) (zi : Bool) (x : Nat) : Nat := if zi then flushSub f x else x
/-- A code that is a nonzero subnormal. -/
def FFmt.isSub (f : FFmt) (x : Nat) : Bool := x / 2 ^ f.mb % 2 ^ f.eb == 0 && x % 2 ^ f.mb != 0
/-- An exact result given by its code. -/
def exactCode (f : FFmt) (x : Nat) : Rounded := ⟨x, false, f.isSub x⟩

/-- R60, R82: the rounding of a vector float instruction that draws nothing. -/
def vecRnd (fmt : BitVec 32) (w : EW) : Rnd := plainRnd (fmtRm fmt) (decide (w = .w8) && fmtSatf fmt)
/-- R85, R87: the rounding of result element i under a mode, with the block of a key and counter. -/
def drawnRnd (m : RMode) (sat : Bool) (key ctr : Word) (bits i : Nat) : Rnd :=
  ⟨m, sat, if m = .sr then drawField key ctr bits i else 0, drawWidth bits⟩
/-- R88: RNGCTR advances by one when an instruction draws. -/
def State.drawn (s : State) (m : RMode) : State :=
  if m = .sr then s.modArch s.cur fun a => { a with rngctr := a.rngctr + 1 } else s

/-- R51, R56, R84: the elements of a float result, with zo, the flags of the active elements, and the landing. -/
def State.landFloat (s : State) (l : Nat) (vd : BitVec 5) (pg : BitVec 3) (w : EW) (zo : Bool)
    (rs : List Rounded) : State :=
  let f := vecFmt w s.me.arch.fmt
  let p := s.rp pg
  let act (q : Rounded → Bool) : Bool := rs.zipIdx.any fun r => activeLane w p r.2 && q r.1
  let out (r : Rounded) : Nat := if zo && r.sub then f.signed (f.neg r.bits) 0 else r.bits
  (s.raiseFlags l (flagsOf false (act Rounded.sat) false (act fun r => zo && r.sub))).landV l vd (activeMask w p)
    (pack w (rs.map out))

/-- R353: a two-source instruction that rounds and draws under SR. -/
def State.vfloat2 (s : State) (vd va vb : BitVec 5) (pg : BitVec 3) (w : EW) (zi zo : Bool)
    (op : RMode → FV → FV → FV) : State :=
  s.checkDst vd fun s => s.readV 4 va fun x s => s.readV 4 vb fun y s =>
    let a := s.me.arch
    let f := vecFmt w a.fmt
    let r := fun i => roundF f (drawnRnd (fmtRm a.fmt) (decide (w = .w8) && fmtSatf a.fmt) a.rngkey a.rngctr w.bits i)
      (op (fmtRm a.fmt) (decodeF f (zinF f zi (lane w x i))) (decodeF f (zinF f zi (lane w y i))))
    (s.drawn (fmtRm a.fmt)).landFloat 4 vd pg w zo ((List.range w.count).map r)
/-- R353: an instruction whose result is exact, on codes. -/
def State.vcode2 (s : State) (vd va vb : BitVec 5) (pg : BitVec 3) (w : EW) (zi zo : Bool)
    (op : FFmt → Nat → Nat → Nat) : State :=
  s.checkDst vd fun s => s.readV 4 va fun x s => s.readV 4 vb fun y s =>
    let f := vecFmt w s.me.arch.fmt
    s.landFloat 4 vd pg w zo (List.zipWith (fun p q => exactCode f (op f (zinF f zi p) (zinF f zi q))) (lanes w x) (lanes w y))
/-- R353: a one-source sign instruction. -/
def State.vcode1 (s : State) (vd va : BitVec 5) (pg : BitVec 3) (w : EW) (zi zo : Bool)
    (op : FFmt → Nat → Nat) : State :=
  s.checkDst vd fun s => s.readV 4 va fun x s =>
    let f := vecFmt w s.me.arch.fmt
    s.landFloat 4 vd pg w zo ((lanes w x).map fun p => exactCode f (op f (zinF f zi p)))

/-- R353: the magnitude of a code. -/
def FFmt.abs (f : FFmt) (x : Nat) : Nat := x % 2 ^ f.signPos
/-- R353: a code with its sign inverted. -/
def FFmt.flip (f : FFmt) (x : Nat) : Nat := f.signed (!f.neg x) (f.abs x)

/-- R353: VFADD. -/
def execVfadd (vd va vb : BitVec 5) (pg : BitVec 3) (w : EW) (zi zo : Bool) (s : State) : Res := inVW s fun s =>
  s.vfloat2 vd va vb pg w zi zo addFV
/-- R353: VFSUB. -/
def execVfsub (vd va vb : BitVec 5) (pg : BitVec 3) (w : EW) (zi zo : Bool) (s : State) : Res := inVW s fun s =>
  s.vfloat2 vd va vb pg w zi zo fun m x y => addFV m x (negFV y)
/-- R353: VFMUL. -/
def execVfmul (vd va vb : BitVec 5) (pg : BitVec 3) (w : EW) (zi zo : Bool) (s : State) : Res := inVW s fun s =>
  s.vfloat2 vd va vb pg w zi zo fun _ x y => mulFV x y
/-- R353: VFMIN. -/
def execVfmin (vd va vb : BitVec 5) (pg : BitVec 3) (w : EW) (zi zo : Bool) (s : State) : Res := inVW s fun s =>
  s.vcode2 vd va vb pg w zi zo minF
/-- R353: VFMAX. -/
def execVfmax (vd va vb : BitVec 5) (pg : BitVec 3) (w : EW) (zi zo : Bool) (s : State) : Res := inVW s fun s =>
  s.vcode2 vd va vb pg w zi zo maxF
/-- R353: VFABS. -/
def execVfabs (vd va : BitVec 5) (pg : BitVec 3) (w : EW) (zi zo : Bool) (s : State) : Res := inVW s fun s =>
  s.vcode1 vd va pg w zi zo FFmt.abs
/-- R353: VFNEG. -/
def execVfneg (vd va : BitVec 5) (pg : BitVec 3) (w : EW) (zi zo : Bool) (s : State) : Res := inVW s fun s =>
  s.vcode1 vd va pg w zi zo FFmt.flip
/-- R353: VFCPS. -/
def execVfcps (vd va vb : BitVec 5) (pg : BitVec 3) (w : EW) (zi zo : Bool) (s : State) : Res := inVW s fun s =>
  s.vcode2 vd va vb pg w zi zo fun f x y => f.signed (f.neg y) (f.abs x)

/-- R355: the fused multiply-add of three elements; zi flushes d as well. -/
def State.vfused (s : State) (vd va vb : BitVec 5) (pg : BitVec 3) (w : EW) (zi zo : Bool)
    (sub : Bool) : State :=
  s.checkDst vd fun s => s.readV 4 vd fun d s => s.readV 4 va fun x s => s.readV 4 vb fun y s =>
    let a := s.me.arch
    let f := vecFmt w a.fmt
    let val := fun (v : VWord) (i : Nat) => decodeF f (zinF f zi (lane w v i))
    let r := fun i =>
      let p := mulFV (val x i) (val y i)
      roundF f (drawnRnd (fmtRm a.fmt) (decide (w = .w8) && fmtSatf a.fmt) a.rngkey a.rngctr w.bits i)
        (addFV (fmtRm a.fmt) (val d i) (if sub then negFV p else p))
    (s.drawn (fmtRm a.fmt)).landFloat 4 vd pg w zo ((List.range w.count).map r)
/-- R355: VFMA. -/
def execVfma (vd va vb : BitVec 5) (pg : BitVec 3) (w : EW) (zi zo : Bool) (s : State) : Res := inVW s fun s =>
  s.vfused vd va vb pg w zi zo false
/-- R355: VFMS. -/
def execVfms (vd va vb : BitVec 5) (pg : BitVec 3) (w : EW) (zi zo : Bool) (s : State) : Res := inVW s fun s =>
  s.vfused vd va vb pg w zi zo true

/-- R354: a float compare. -/
def State.vfcmp (s : State) (pd : BitVec 3) (va vb : BitVec 5) (pg : BitVec 3) (w : EW) (zi : Bool)
    (op : FV → FV → Bool) : State :=
  let f := vecFmt w s.me.arch.fmt
  s.vcmp 2 pd va vb pg w fun x y => op (decodeF f (zinF f zi x)) (decodeF f (zinF f zi y))
/-- R354: VFEQ. -/
def execVfeq (pd : BitVec 3) (va vb : BitVec 5) (pg : BitVec 3) (w : EW) (zi : Bool) (s : State) : Res := inVW s fun s =>
  s.vfcmp pd va vb pg w zi eqFV
/-- R354: VFNE is true on a NaN. -/
def execVfne (pd : BitVec 3) (va vb : BitVec 5) (pg : BitVec 3) (w : EW) (zi : Bool) (s : State) : Res := inVW s fun s =>
  s.vfcmp pd va vb pg w zi fun x y => !eqFV x y
/-- R354: VFLT. -/
def execVflt (pd : BitVec 3) (va vb : BitVec 5) (pg : BitVec 3) (w : EW) (zi : Bool) (s : State) : Res := inVW s fun s =>
  s.vfcmp pd va vb pg w zi ltFV
/-- R354: VFLE. -/
def execVfle (pd : BitVec 3) (va vb : BitVec 5) (pg : BitVec 3) (w : EW) (zi : Bool) (s : State) : Res := inVW s fun s =>
  s.vfcmp pd va vb pg w zi leFV
/-- R354: VFUN. -/
def execVfun (pd : BitVec 3) (va vb : BitVec 5) (pg : BitVec 3) (w : EW) (zi : Bool) (s : State) : Res := inVW s fun s =>
  s.vfcmp pd va vb pg w zi fun x y => x.isNan || y.isNan

/-- R356: VFRSUM. -/
def execVfrsum (vd va : BitVec 5) (pg : BitVec 3) (w : EW) (zi _zo : Bool) (s : State) : Res := inVW s fun s =>
  s.checkDst vd fun s => s.readV 6 va fun x s =>
    let fmt := s.me.arch.fmt
    let f := vecFmt w fmt
    let act := ((List.range w.count).filter (activeLane w (s.rp pg))).map fun i => decodeF f (zinF f zi (lane w x i))
    let r := windowSum act (awinBits (fld fmt 16 14))
    (s.raiseFlags 6 (flagsOf false false r.lsf r.ufl)).landV 6 vd allLanes (BitVec.ofNat 2048 r.bits)
/-- R356: VFRMAX and VFRMIN; a NaN gives way to any number. -/
def State.vfbest (s : State) (vd va : BitVec 5) (pg : BitVec 3) (w : EW) (zi zo : Bool)
    (op : FFmt → Nat → Nat → Nat) : State :=
  s.checkDst vd fun s => s.readV 6 va fun x s =>
    let f := vecFmt w s.me.arch.fmt
    let act := ((List.range w.count).filter (activeLane w (s.rp pg))).map fun i => zinF f zi (lane w x i)
    let r := act.foldl (op f) f.nan
    let fl := zo && f.isSub r
    (s.raiseFlags 6 (flagsOf false false false fl)).landV 6 vd allLanes
      (BitVec.ofNat 2048 (if fl then f.signed (f.neg r) 0 else r))
/-- R356: VFRMAX. -/
def execVfrmax (vd va : BitVec 5) (pg : BitVec 3) (w : EW) (zi zo : Bool) (s : State) : Res := inVW s fun s =>
  s.vfbest vd va pg w zi zo maxF
/-- R356: VFRMIN. -/
def execVfrmin (vd va : BitVec 5) (pg : BitVec 3) (w : EW) (zi zo : Bool) (s : State) : Res := inVW s fun s =>
  s.vfbest vd va pg w zi zo minF

/-- R348: VDOT and VDOTA: zi acts on every input, the addend of VDOTA among them (R84; log entry 19). -/
def State.vdot (s : State) (vd va vb : BitVec 5) (pf : BitVec 3) (w : EW) (zi acc : Bool) : State :=
  let fmt := s.me.arch.fmt
  let seg := fld fmt 20 18
  if 6 ≤ seg then s.illegal else
  let addend (k : VWord → State → State) (s : State) : State := if acc then s.readV 6 vd k else k 0 s
  s.checkDst vd <| addend fun d s => s.readV 6 va fun x s => s.readV 6 vb fun y s =>
    let f := vecFmt w fmt
    let len := Nat.min (8 * 2 ^ seg) w.count
    let val := fun (v : VWord) (i : Nat) => decodeF f (zinF f zi (lane w v i))
    let sums := (List.range (w.count / len)).map fun k =>
      let ps := (List.range len).map fun j => mulFV (val x (k * len + j)) (val y (k * len + j))
      windowSum (if acc then ps ++ [decodeF fp32 (zinF fp32 zi (lane .w32 d k))] else ps) (awinBits (fld fmt 16 14))
    let q := BitVec.ofNat 256 (packNat 4 (sums.map fun r => if r.lsf then 15 else 0))
    ((s.raiseFlags 6 (flagsOf false false (sums.any WSum.lsf) (sums.any WSum.ufl))).landP 6 pf.toNat allLanes q).landV
      6 vd allLanes (BitVec.ofNat 2048 (packNat 32 (sums.map WSum.bits)))
/-- R348: VDOT. -/
def execVdot (vd va vb : BitVec 5) (pg : BitVec 3) (w : EW) (zi _zo : Bool) (s : State) : Res := inVW s fun s =>
  s.vdot vd va vb pg w zi false
/-- R348: VDOTA. -/
def execVdota (vd va vb : BitVec 5) (pg : BitVec 3) (w : EW) (zi _zo : Bool) (s : State) : Res := inVW s fun s =>
  s.vdot vd va vb pg w zi true

end Sys2Proof.Machine
end

