-- ==== Sys2Proof/Machine/Special.lean ====
section
/-!
DEFINITION. The special functions of slot W (R350, R351): the exact mathematical value rounded once. A value is
approximated in fixed point with 512 fraction bits and rounded with a sticky bit (log entry 20).
-/

namespace Sys2Proof.Machine

/-- Fraction bits of the fixed-point approximations. -/
def fxBits : Nat := 512
/-- One in fixed point. -/
def fxOne : Nat := 2 ^ fxBits
/-- The integer square root, by so many result bits. -/
def isqrtBits (bits n : Nat) : Nat :=
  ((List.range bits).reverse).foldl (fun r b => if (r + 2 ^ b) * (r + 2 ^ b) ≤ n then r + 2 ^ b else r) 0

/-- atanh (1/n) or atan (1/n) in fixed point, as a sum of so many terms. -/
def atanSeries (alternate : Bool) (n terms : Nat) : Nat :=
  let step (acc : Int × Nat) (k : Nat) : Int × Nat :=
    let t : Int := (acc.2 / (2 * k + 1) : Nat)
    (if alternate && k % 2 == 1 then acc.1 - t else acc.1 + t, acc.2 / (n * n))
  (((List.range terms).foldl step (0, fxOne / n)).1).toNat
/-- ln 2 = 2 atanh (1/3). -/
def fxLn2 : Nat := 2 * atanSeries false 3 170
/-- π = 16 atan (1/5) − 4 atan (1/239). -/
def fxPi : Nat := 16 * atanSeries true 5 120 - 4 * atanSeries true 239 40
/-- √π. -/
def fxSqrtPi : Nat := isqrtBits 514 (fxPi * fxOne)

/-- exp y for y in [0, 1). -/
def fxExp (y : Nat) : Nat :=
  ((List.range 110).foldl (fun (acc : Nat × Nat) k => (acc.1 + acc.2, acc.2 * y / fxOne / (k + 1))) (0, fxOne)).1
/-- exp y as 2^k times a fixed-point number, for any y ≥ 0. -/
def fxExpSplit (y : Nat) : Nat × Nat := (y / fxLn2, fxExp (y % fxLn2))
/-- sin y for y in [0, 2). -/
def fxSin (y : Nat) : Nat :=
  let step (acc : Int × Nat) (k : Nat) : Int × Nat :=
    (if k % 2 == 1 then acc.1 - (acc.2 : Int) else acc.1 + (acc.2 : Int),
      acc.2 * y / fxOne * y / fxOne / ((2 * k + 2) * (2 * k + 3)))
  (((List.range 60).foldl step (0, y)).1).toNat
/-- ln m for m in [1, 2). -/
def fxLn (m : Nat) : Nat :=
  let z := (m - fxOne) * fxOne / (m + fxOne)
  let zz := z * z / fxOne
  2 * ((List.range 170).foldl (fun (acc : Nat × Nat) k => (acc.1 + acc.2 / (2 * k + 1), acc.2 * zz / fxOne)) (0, z)).1
/-- Σ 2^n x^(2n+1) / (2n+1)!!, which is e^(x²) · √π/2 · erf x. -/
def fxErfSeries (x : Nat) : Nat :=
  ((List.range 320).foldl (fun (acc : Nat × Nat) n =>
    (acc.1 + acc.2, acc.2 * x / fxOne * x / fxOne * 2 / (2 * n + 3))) (0, x)).1

/-- m × 2^e in fixed point; exact for the inputs it is used on. -/
def toFx (m : Nat) (e : Int) : Nat :=
  let k : Int := e + fxBits
  if 0 ≤ k then m * 2 ^ k.toNat else m / 2 ^ (-k).toNat
/-- A fixed-point magnitude, inexact. -/
def fxVal (neg : Bool) (v : Nat) : FV × Bool := (.fin neg v (-(fxBits : Int)), true)
/-- Just below one in magnitude. -/
def belowOne (neg : Bool) : FV × Bool := fxVal neg (fxOne - 1)
/-- ±1. -/
def oneFV (neg : Bool) : FV := .fin neg 1 0

/-- 1 ÷ (m × 2^e). -/
def rcpFin (neg : Bool) (m : Nat) (e : Int) : FV × Bool :=
  (.fin neg (2 ^ 80 / m) (-e - 80), 2 ^ 80 % m != 0)
/-- 1 ÷ √(m × 2^e). -/
def rsqFin (m : Nat) (e : Int) : FV × Bool :=
  let (m, e) := if e % 2 = 0 then (m, e) else (2 * m, e - 1)
  let q := isqrtBits 81 (2 ^ 160 / m)
  (.fin false q (-(e / 2) - 80), q * q * m != 2 ^ 160)
/-- √(m × 2^e). -/
def sqrtFin (m : Nat) (e : Int) : FV × Bool :=
  let (m, e) := if e % 2 = 0 then (m, e) else (2 * m, e - 1)
  let q := isqrtBits 60 (m * 2 ^ 80)
  (.fin false q (e / 2 - 40), q * q != m * 2 ^ 80)
/-- 2^(±m × 2^e). -/
def exp2Fin (neg : Bool) (m : Nat) (e : Int) : FV × Bool :=
  if 10 ≤ (Nat.log2 m : Int) + e then (.fin false 1 (if neg then -4096 else 4096), true) else
  let x : Int := signedMag neg (toFx m e)
  let k : Int := x / (fxOne : Int)
  let fr := (x % (fxOne : Int)).toNat
  if fr = 0 then (.fin false 1 k, false) else (.fin false (fxExp (fr * fxLn2 / fxOne)) (k - fxBits), true)
/-- log2 (m × 2^e). -/
def log2Fin (m : Nat) (e : Int) : FV × Bool :=
  let lg := Nat.log2 m
  let k : Int := (lg : Int) + e
  if m = 2 ^ lg then (.fin (k < 0) k.natAbs 0, false) else
  let v : Int := k * (fxOne : Int) + ((fxLn (m * 2 ^ (fxBits - lg)) * fxOne / fxLn2 : Nat) : Int)
  fxVal (v < 0) v.natAbs
/-- tanh (±m × 2^e). -/
def tanhFin (neg : Bool) (m : Nat) (e : Int) : FV × Bool :=
  if 4 ≤ (Nat.log2 m : Int) + e then belowOne neg else
  let (k, ey) := fxExpSplit (2 * toFx m e)
  let n := ey * 2 ^ k
  fxVal neg ((n - fxOne) * fxOne / (n + fxOne))
/-- sin (π × ±m × 2^e). -/
def sinpiFin (neg : Bool) (m : Nat) (e : Int) : FV × Bool :=
  if 0 ≤ e then (.fin neg 0 0, false) else
  let x := toFx m e % (2 * fxOne)
  let neg' := neg != decide (fxOne ≤ x)
  let y := x % fxOne
  if y = 0 then (.fin neg 0 0, false)
  else if 2 * y = fxOne then (oneFV neg', false)
  else fxVal neg' (fxSin (fxPi * (if fxOne < 2 * y then fxOne - y else y) / fxOne))
/-- erf (±m × 2^e). -/
def erfFin (neg : Bool) (m : Nat) (e : Int) : FV × Bool :=
  if 2 ≤ (Nat.log2 m : Int) + e then belowOne neg else
  let x := toFx m e
  let (k, ey) := fxExpSplit (x * x / fxOne)
  fxVal neg (2 * fxErfSeries x * fxOne / (fxSqrtPi * 2 ^ k) * fxOne / ey)

/-- The functions of R350. -/
inductive SpecFn where
  | rcp | rsq | sqrt | exp2 | log2 | tanh | sinpi | erf
  deriving DecidableEq, Repr

/-- R351: a function's value; the second part says that the value lies strictly beyond the first toward infinity. -/
def special (fn : SpecFn) (x : FV) : FV × Bool :=
  match x with
  | .nan => (.nan, false)
  | .inf neg => (match fn, neg with
    | .rcp, _ => .fin neg 0 0
    | .rsq, true | .sqrt, true | .log2, true | .sinpi, _ => .nan
    | .rsq, false => .fin false 0 0
    | .sqrt, false | .log2, false | .exp2, false => .inf false
    | .exp2, true => .fin false 0 0
    | .tanh, _ | .erf, _ => oneFV neg, false)
  | .fin neg 0 _ => (match fn with
    | .rcp | .rsq => .inf neg
    | .exp2 => oneFV false
    | .log2 => .inf true
    | .sqrt | .tanh | .sinpi | .erf => .fin neg 0 0, false)
  | .fin neg (m + 1) e => match fn, neg with
    | .rcp, _ => rcpFin neg (m + 1) e
    | .rsq, true | .sqrt, true | .log2, true => (.nan, false)
    | .rsq, false => rsqFin (m + 1) e
    | .sqrt, false => sqrtFin (m + 1) e
    | .log2, false => log2Fin (m + 1) e
    | .exp2, _ => exp2Fin neg (m + 1) e
    | .tanh, _ => tanhFin neg (m + 1) e
    | .sinpi, _ => sinpiFin neg (m + 1) e
    | .erf, _ => erfFin neg (m + 1) e

/-- A value with a sticky bit rounded once. -/
def roundSticky (f : FFmt) (rd : Rnd) (v : FV × Bool) : Rounded :=
  match v.1 with
  | .fin neg (m + 1) e => roundNonzero f rd neg (m + 1) e v.2
  | x => roundF f rd x

/-- R350: a special function, slot W. -/
def State.vspecial (s : State) (vd va : BitVec 5) (pg : BitVec 3) (w : EW) (zi zo : Bool) (fn : SpecFn) : State :=
  s.checkDst vd fun s => s.readV 8 va fun x s =>
    let fmt := s.me.arch.fmt
    let f := vecFmt w fmt
    s.landFloat 8 vd pg w zo ((lanes w x).map fun e => roundSticky f (vecRnd fmt w) (special fn (decodeF f (zinF f zi e))))

/-- R350: VRCP. -/
def execVrcp (vd va : BitVec 5) (pg : BitVec 3) (w : EW) (zi zo : Bool) (s : State) : Res := inW s fun s => s.vspecial vd va pg w zi zo .rcp
/-- R350: VRSQ. -/
def execVrsq (vd va : BitVec 5) (pg : BitVec 3) (w : EW) (zi zo : Bool) (s : State) : Res := inW s fun s => s.vspecial vd va pg w zi zo .rsq
/-- R350: VSQRT. -/
def execVsqrt (vd va : BitVec 5) (pg : BitVec 3) (w : EW) (zi zo : Bool) (s : State) : Res := inW s fun s => s.vspecial vd va pg w zi zo .sqrt
/-- R350: VEXP2. -/
def execVexp2 (vd va : BitVec 5) (pg : BitVec 3) (w : EW) (zi zo : Bool) (s : State) : Res := inW s fun s => s.vspecial vd va pg w zi zo .exp2
/-- R350: VLOG2. -/
def execVlog2 (vd va : BitVec 5) (pg : BitVec 3) (w : EW) (zi zo : Bool) (s : State) : Res := inW s fun s => s.vspecial vd va pg w zi zo .log2
/-- R350: VTANH. -/
def execVtanh (vd va : BitVec 5) (pg : BitVec 3) (w : EW) (zi zo : Bool) (s : State) : Res := inW s fun s => s.vspecial vd va pg w zi zo .tanh
/-- R350: VSINPI. -/
def execVsinpi (vd va : BitVec 5) (pg : BitVec 3) (w : EW) (zi zo : Bool) (s : State) : Res := inW s fun s => s.vspecial vd va pg w zi zo .sinpi
/-- R350: VERF. -/
def execVerf (vd va : BitVec 5) (pg : BitVec 3) (w : EW) (zi zo : Bool) (s : State) : Res := inW s fun s => s.vspecial vd va pg w zi zo .erf

end Sys2Proof.Machine
end

