-- ==== Sys2Proof/Machine/Transform.lean ====
section
/-!
DEFINITION. The transform instructions of slot X (R90 to R93, R375 to R379).
-/

namespace Sys2Proof.Machine

/-- Field i of width b of a vector. -/
def fieldN (b : Nat) (v : VWord) (i : Nat) : Nat := (v.extractLsb' (b * i) b).toNat
/-- A vector of fields of width b that begin at bit `off`. -/
def placeAt (off b : Nat) (l : List Nat) : VWord := BitVec.ofNat 2048 (packNat b l * 2 ^ off)
/-- The byte lanes lo to hi - 1. -/
def byteLanes (lo hi : Nat) : PWord := BitVec.ofNat 256 (2 ^ hi - 2 ^ lo)

/-! XCVT. -/

/-- R68, R76: the float format of an XCVT code. -/
def xfmtFloat : XFmt → Option FFmt
  | .f32 => some fp32 | .bf16 => some bf16 | .fp16 => some fp16 | .e4m3 => some e4m3 | .e5m2 => some e5m2
  | .int8 | .int32 | .int16 | .uint8 => none
/-- R78: the range of an integer code. -/
def xfmtRange : XFmt → Int × Int
  | .uint8 => (0, 255)
  | x => (-2 ^ (x.bits - 1), 2 ^ (x.bits - 1) - 1)
/-- R78: the integer that a field holds. -/
def xfmtInt (f : XFmt) (x : Nat) : Int := if f = .uint8 then x else signed f.bits x

/-- R90: one element: the code and whether SATF is raised. -/
def xcvtElem (df sf : XFmt) (rd : Rnd) (x : Nat) : Nat × Bool :=
  match xfmtFloat df, xfmtFloat sf with
  | some d, some f =>
    let r := roundF d rd (decodeF f x)
    (r.bits, r.sat)
  | some d, none =>
    let r := roundF d rd (intFV (xfmtInt sf x))
    (r.bits, r.sat)
  | none, some f =>
    let r := roundInt rd (xfmtRange df).1 (xfmtRange df).2 (decodeF f x)
    (wrap df.bits r.1, r.2)
  | none, none =>
    let v := xfmtInt sf x
    let c := max (xfmtRange df).1 (min (xfmtRange df).2 v)
    if rd.sat then (wrap df.bits c, c != v) else (wrap df.bits v, false)

/-- R88: an XCVT to FP32 from FP8, FP16 or BF16 is exact and draws nothing. -/
def xcvtExact (df sf : XFmt) : Bool := df == .f32 && (sf == .e4m3 || sf == .e5m2 || sf == .fp16 || sf == .bf16)

/-- R375: XCVT, with the element mapping of R91. -/
def execXcvt (vd va : BitVec 5) (df sf : XFmt) (rm : XRm) (sat : Bool) (part : BitVec 3) (s : State) : Res :=
  inX s fun s => s.checkDst vd fun s => s.readV 4 va fun x s =>
    let a := s.me.arch
    let mode := match rm with
      | .own m => m
      | .useFmt => fmtRm a.fmt
    let mode := if mode = .sr ∧ xcvtExact df sf then .rne else mode
    let nd := 2048 / df.bits
    let ns := 2048 / sf.bits
    let p := part.toNat
    let first := if ns < nd then p * ns else 0
    let rs := (List.range (min nd ns)).map fun i =>
      xcvtElem df sf (drawnRnd mode sat a.rngkey a.rngctr df.bits (first + i)) (fieldN sf.bits x (if nd < ns then p * nd + i else i))
    let bytes := df.bits / 8
    (((s.drawn mode).raiseFlags 4 (if rs.any Prod.snd then flagSat else 0))).landV 4 vd
      (byteLanes (first * bytes) (first * bytes + min nd ns * bytes)) (placeAt (first * df.bits) df.bits (rs.map Prod.fst))

/-! XEXP and XPACK. -/

/-- R80: bits of a value of a sub-byte kind. -/
def kindBits : XKind → Nat
  | .int4 | .uint4 | .e2m1 => 4
  | .e3m2 | .e2m3 => 6
  | .int2 => 2
/-- R376: bytes of a part of a kind. -/
def kindBytes (k : XKind) : Nat := 32 * kindBits k
/-- R76: the float format of a kind. -/
def kindFloat : XKind → Option FFmt
  | .e2m1 => some e2m1 | .e3m2 => some e3m2 | .e2m3 => some e2m3
  | .int4 | .uint4 | .int2 => none
/-- R377: the range of an integer kind. -/
def kindRange : XKind → Int × Int
  | .uint4 => (0, 15)
  | .int2 => (-2, 1)
  | _ => (-8, 7)
/-- R92: the value of a code of a kind. -/
def kindValue (k : XKind) (x : Nat) : FV :=
  match kindFloat k with
  | some f => decodeF f x
  | none => intFV (if k = .uint4 then x else signed (kindBits k) x)
/-- A number below zero. -/
def negativeFV (v : FV) : Bool :=
  match v with
  | .fin n m _ => n && m != 0
  | .inf n => n
  | .nan => false
/-- R92, R377: an FP8 value converted to a kind: the code and whether SATF is raised; any negative input of UINT4 sets
it. -/
def kindPack (k : XKind) (rd : Rnd) (v : FV) : Nat × Bool :=
  match kindFloat k with
  | some f => if v.isNan then (0, true) else
    let r := roundF f rd v
    (r.bits, r.sat)
  | none =>
    let r := roundInt rd (kindRange k).1 (kindRange k).2 v
    (wrap (kindBits k) r.1, r.2 || (k == .uint4 && negativeFV v))
/-- R60: the FP8 format of FMT.F8. -/
def fp8Of (fmt : BitVec 32) : FFmt := if fmtF8 fmt then e5m2 else e4m3

/-- R376: XEXP. -/
def execXexp (vd va : BitVec 5) (kind : XKind) (part : BitVec 3) (s : State) : Res :=
  inX s fun s => s.checkDst vd fun s => s.readV 5 va fun x s =>
    s.landV 5 vd allLanes (placeAt 0 8 ((List.range 256).map fun i =>
      (roundF e4m3 rneRnd (kindValue kind (fieldN (kindBits kind) x (256 * part.toNat + i)))).bits))
/-- R377: XPACK. -/
def execXpack (vd va : BitVec 5) (kind : XKind) (part : BitVec 3) (s : State) : Res :=
  inX s fun s => s.checkDst vd fun s => s.readV 5 va fun x s =>
    let a := s.me.arch
    let mode := fmtRm a.fmt
    let rs := (List.range 256).map fun i =>
      kindPack kind (drawnRnd mode true a.rngkey a.rngctr 8 i) (decodeF (fp8Of a.fmt) (fieldN 8 x i))
    let n := kindBytes kind
    ((s.drawn mode).raiseFlags 5 (if rs.any Prod.snd then flagSat else 0)).landV 5 vd
      (byteLanes (n * part.toNat) (n * part.toNat + n)) (placeAt (8 * n * part.toNat) (kindBits kind) (rs.map Prod.fst))

/-! XTRN. -/

/-- R379: the source element of a destination element. -/
def trnSource (shape : XShape) (j : Nat) : Nat :=
  match shape with
  | .s32 => 8 * (j % 8) + j / 8
  | .s16 => j / 64 * 64 + 8 * (j % 8) + j % 64 / 8
  | .s8 => 16 * (j % 16) + j / 16
/-- R379: element width of a shape. -/
def trnBits : XShape → Nat
  | .s32 => 32 | .s16 => 16 | .s8 => 8
/-- R379: XTRN. -/
def execXtrn (vd va : BitVec 5) (shape : XShape) (s : State) : Res :=
  inX s fun s => s.checkDst vd fun s => s.readV 5 va fun x s =>
    let b := trnBits shape
    s.landV 5 vd allLanes (placeAt 0 b ((List.range (2048 / b)).map fun j => fieldN b x (trnSource shape j)))

/-! XSCL and XQNT. -/

/-- A value times 2^k. -/
def scaleFV (v : FV) (k : Int) : FV :=
  match v with
  | .fin neg m e => .fin neg m (e + k)
  | x => x
/-- R93: XSCL. -/
def execXscl (vd va b : BitVec 5) (s : State) : Res :=
  inX s fun s => s.checkDst vd fun s => s.readV 6 va fun x s =>
    let f := fp8Of s.me.arch.fmt
    let y := s.rs b
    let r := (List.range 64).map fun i =>
      let e := u8At y (i / 32)
      if e = 255 then fp32.nan else (roundF fp32 rneRnd (scaleFV (decodeF f (fieldN 8 x i)) ((e : Int) - 127))).bits
    s.landV 6 vd allLanes (placeAt 0 32 r)
/-- R93: the scale exponent of a block, with emax; none for a block that holds a NaN or an infinity. -/
def blockScale (emax : Nat) (l : List FV) : Option Nat :=
  if l.any fun v => v.isNan || v == .inf true || v == .inf false then none
  else match maxLead l with
    | none => some 127
    | some e => some (min 254 (e - emax + 127).toNat)
/-- R93, R378: XQNT; element i of a block, its code and whether it clamps. -/
def execXqnt (vd va b : BitVec 5) (s : State) : Res :=
  inX s fun s => s.checkDst vd fun s => s.readV 6 va fun x s =>
    let a := s.me.arch
    let f := fp8Of a.fmt
    let mode := fmtRm a.fmt
    let val := fun i => decodeF fp32 (fieldN 32 x i)
    let scale := fun k => blockScale (if fmtF8 a.fmt then 15 else 8) ((List.range 32).map fun i => val (32 * k + i))
    let rs := (List.range 64).map fun i => match scale (i / 32) with
      | none => (f.nan, false)
      | some e =>
        let r := roundF f (drawnRnd mode true a.rngkey a.rngctr 8 i) (scaleFV (val i) (127 - (e : Int)))
        (r.bits, r.sat)
    let word := (scale 0).getD 255 + 256 * (scale 1).getD 255
    (((s.drawn mode).raiseFlags 6 (if rs.any Prod.snd then flagSat else 0)).landS 6 b.toNat (BitVec.ofNat 64 word)).landV
      6 vd allLanes (placeAt 0 8 (rs.map Prod.fst))

end Sys2Proof.Machine
end

