-- ==== Sys2Proof/Machine/Issue.lean ====
section
/-!
DEFINITION. The meaning of a slot word inside its bundle: the same meanings as the arms of Machine/Dispatch.lean.
-/

namespace Sys2Proof.Machine

/-- R38: the effect of the instruction of the slot in execution. No slot word decodes to a parcel or to a step of the
device. -/
def execSlot (i : Instr) (s : State) : Res :=
  match i with
  | .nop => execNop s
  | .illegalWord w => execIllegalWord w s
  | .add d a b => execAdd d a b s
  | .sub d a b => execSub d a b s
  | .and d a b => execAnd d a b s
  | .or d a b => execOr d a b s
  | .xor d a b => execXor d a b s
  | .sll d a b => execSll d a b s
  | .srl d a b => execSrl d a b s
  | .sra d a b => execSra d a b s
  | .slt d a b => execSlt d a b s
  | .sltu d a b => execSltu d a b s
  | .min d a b => execMin d a b s
  | .max d a b => execMax d a b s
  | .minu d a b => execMinu d a b s
  | .maxu d a b => execMaxu d a b s
  | .addi d a imm => execAddi d a imm s
  | .andi d a imm => execAndi d a imm s
  | .ori d a imm => execOri d a imm s
  | .xori d a imm => execXori d a imm s
  | .slti d a imm => execSlti d a imm s
  | .slli d a h => execSlli d a h s
  | .srli d a h => execSrli d a h s
  | .srai d a h => execSrai d a h s
  | .li d imm => execLi d imm s
  | .lih d imm => execLih d imm s
  | .lix d imm => execLix d imm s
  | .mul d a b => execMul d a b s
  | .mulh d a b => execMulh d a b s
  | .mulhu d a b => execMulhu d a b s
  | .div d a b => execDiv d a b s
  | .divu d a b => execDivu d a b s
  | .rem d a b => execRem d a b s
  | .remu d a b => execRemu d a b s
  | .clz d a => execClz d a s
  | .ctz d a => execCtz d a s
  | .popc d a => execPopc d a s
  | .brev d a => execBrev d a s
  | .bext d a b => execBext d a b s
  | .bins d a b => execBins d a b s
  | .lea d a b h => execLea d a b h s
  | .cmov d a b => execCmov d a b s
  | .fadd d a b => execFadd d a b s
  | .fsub d a b => execFsub d a b s
  | .fmul d a b => execFmul d a b s
  | .fmin d a b => execFmin d a b s
  | .fmax d a b => execFmax d a b s
  | .feq d a b => execFeq d a b s
  | .flt d a b => execFlt d a b s
  | .fle d a b => execFle d a b s
  | .fcvti d a => execFcvti d a s
  | .fcvtf d a => execFcvtf d a s
  | .ffma d a b => execFfma d a b s
  | .ldb t base off => execLdb t base off s
  | .ldbu t base off => execLdbu t base off s
  | .ldh t base off => execLdh t base off s
  | .ldhu t base off => execLdhu t base off s
  | .ldw t base off => execLdw t base off s
  | .ldwu t base off => execLdwu t base off s
  | .ldd t base off => execLdd t base off s
  | .stb t base off => execStb t base off s
  | .sth t base off => execSth t base off s
  | .stw t base off => execStw t base off s
  | .std t base off => execStd t base off s
  | .vld t base pg off => execVld t base pg off s
  | .vst t base pg off => execVst t base pg off s
  | .vlds d a b w => execVlds d a b w s
  | .vsts d a b w => execVsts d a b w s
  | .vgath d a b w => execVgath d a b w s
  | .vscat d a b w => execVscat d a b w s
  | .naadd d a b z => execNaadd d a b z s
  | .nacas d a b z => execNacas d a b z s
  | .naxch d a b z => execNaxch d a b z s
  | .spill d => execSpill d s
  | .fill d => execFill d s
  | .vspill d => execVspill d s
  | .vfill d => execVfill d s
  | .vadd vd va vb pg w => execVadd vd va vb pg w s
  | .vsub vd va vb pg w => execVsub vd va vb pg w s
  | .vmul vd va vb pg w => execVmul vd va vb pg w s
  | .vmulh vd va vb pg w => execVmulh vd va vb pg w s
  | .vmin vd va vb pg w => execVmin vd va vb pg w s
  | .vmax vd va vb pg w => execVmax vd va vb pg w s
  | .vabs vd va pg w => execVabs vd va pg w s
  | .vadds vd va vb pg w => execVadds vd va vb pg w s
  | .vand vd va vb pg w => execVand vd va vb pg w s
  | .vor vd va vb pg w => execVor vd va vb pg w s
  | .vxor vd va vb pg w => execVxor vd va vb pg w s
  | .vandn vd va vb pg w => execVandn vd va vb pg w s
  | .vshl vd va vb pg w => execVshl vd va vb pg w s
  | .vshr vd va vb pg w => execVshr vd va vb pg w s
  | .vsra vd va vb pg w => execVsra vd va vb pg w s
  | .vrotl vd va vb pg w => execVrotl vd va vb pg w s
  | .vceq pd va vb pg w => execVceq pd va vb pg w s
  | .vcne pd va vb pg w => execVcne pd va vb pg w s
  | .vclt pd va vb pg w => execVclt pd va vb pg w s
  | .vcle pd va vb pg w => execVcle pd va vb pg w s
  | .vcltu pd va vb pg w => execVcltu pd va vb pg w s
  | .vcleu pd va vb pg w => execVcleu pd va vb pg w s
  | .vaddx vd va vb pg w => execVaddx vd va vb pg w s
  | .vsubx vd va vb pg w => execVsubx vd va vb pg w s
  | .vmulx vd va vb pg w => execVmulx vd va vb pg w s
  | .vshlx vd va vb pg w => execVshlx vd va vb pg w s
  | .vshrx vd va vb pg w => execVshrx vd va vb pg w s
  | .vsrax vd va vb pg w => execVsrax vd va vb pg w s
  | .vminx vd va vb pg w => execVminx vd va vb pg w s
  | .vmaxx vd va vb pg w => execVmaxx vd va vb pg w s
  | .vmov vd va pg w => execVmov vd va pg w s
  | .vbcast vd va pg w => execVbcast vd va pg w s
  | .vsel vd va vb pg w => execVsel vd va vb pg w s
  | .vextr vd va vb w => execVextr vd va vb w s
  | .vins vd va vb w => execVins vd va vb w s
  | .viota vd pg w => execViota vd pg w s
  | .vpopc vd va pg w => execVpopc vd va pg w s
  | .vclz vd va pg w => execVclz vd va pg w s
  | .vperm vd va vb pg w => execVperm vd va vb pg w s
  | .vrot vd va vb pg w => execVrot vd va vb pg w s
  | .vrev vd va pg w => execVrev vd va pg w s
  | .vfadd vd va vb pg w zi zo => execVfadd vd va vb pg w zi zo s
  | .vfsub vd va vb pg w zi zo => execVfsub vd va vb pg w zi zo s
  | .vfmul vd va vb pg w zi zo => execVfmul vd va vb pg w zi zo s
  | .vfmin vd va vb pg w zi zo => execVfmin vd va vb pg w zi zo s
  | .vfmax vd va vb pg w zi zo => execVfmax vd va vb pg w zi zo s
  | .vfabs vd va pg w zi zo => execVfabs vd va pg w zi zo s
  | .vfneg vd va pg w zi zo => execVfneg vd va pg w zi zo s
  | .vfcps vd va vb pg w zi zo => execVfcps vd va vb pg w zi zo s
  | .vfma vd va vb pg w zi zo => execVfma vd va vb pg w zi zo s
  | .vfms vd va vb pg w zi zo => execVfms vd va vb pg w zi zo s
  | .vfeq pd va vb pg w zi => execVfeq pd va vb pg w zi s
  | .vfne pd va vb pg w zi => execVfne pd va vb pg w zi s
  | .vflt pd va vb pg w zi => execVflt pd va vb pg w zi s
  | .vfle pd va vb pg w zi => execVfle pd va vb pg w zi s
  | .vfun pd va vb pg w zi => execVfun pd va vb pg w zi s
  | .vrsum vd va pg w => execVrsum vd va pg w s
  | .vrmax vd va pg w => execVrmax vd va pg w s
  | .vrmin vd va pg w => execVrmin vd va pg w s
  | .vfrsum vd va pg w zi zo => execVfrsum vd va pg w zi zo s
  | .vfrmax vd va pg w zi zo => execVfrmax vd va pg w zi zo s
  | .vfrmin vd va pg w zi zo => execVfrmin vd va pg w zi zo s
  | .vdot vd va vb pg w zi zo => execVdot vd va vb pg w zi zo s
  | .vdota vd va vb pg w zi zo => execVdota vd va vb pg w zi zo s
  | .vrcp vd va pg w zi zo => execVrcp vd va pg w zi zo s
  | .vrsq vd va pg w zi zo => execVrsq vd va pg w zi zo s
  | .vsqrt vd va pg w zi zo => execVsqrt vd va pg w zi zo s
  | .vexp2 vd va pg w zi zo => execVexp2 vd va pg w zi zo s
  | .vlog2 vd va pg w zi zo => execVlog2 vd va pg w zi zo s
  | .vtanh vd va pg w zi zo => execVtanh vd va pg w zi zo s
  | .vsinpi vd va pg w zi zo => execVsinpi vd va pg w zi zo s
  | .verf vd va pg w zi zo => execVerf vd va pg w zi zo s
  | .vbnet vd va vb k => execVbnet vd va vb k s
  | .pand pd pa pb => execPand pd pa pb s
  | .por pd pa pb => execPor pd pa pb s
  | .pxor pd pa pb => execPxor pd pa pb s
  | .pandn pd pa pb => execPandn pd pa pb s
  | .pnot pd pa => execPnot pd pa s
  | .pcnt d pa w => execPcnt d pa w s
  | .pfirst d pa w => execPfirst d pa w s
  | .planes pd b w => execPlanes pd b w s
  | .xcvt vd va dfmt sfmt rm sat part => execXcvt vd va dfmt sfmt rm sat part s
  | .xexp vd va kind part => execXexp vd va kind part s
  | .xpack vd va kind part => execXpack vd va kind part s
  | .xtrn vd va shape => execXtrn vd va shape s
  | .xscl vd va b => execXscl vd va b s
  | .xqnt vd va b => execXqnt vd va b s
  | .beq a b off => execBeq a b off s
  | .bne a b off => execBne a b off s
  | .blt a b off => execBlt a b off s
  | .bge a b off => execBge a b off s
  | .bltu a b off => execBltu a b off s
  | .bgeu a b off => execBgeu a b off s
  | .jmp d imm => execJmp d imm s
  | .jmpr d a => execJmpr d a s
  | .loop x b => execLoop x b s
  | .setfmt x => execSetfmt x s
  | .proof code => execProof code s
  | .vigil x vid => execVigil x vid s
  | .waita x y scope wide cond => execWaita x y scope wide cond s
  | .fence after before scope order => execFence after before scope order s
  | .spawn x y n k => execSpawn x y n k s
  | .susp x y aff => execSusp x y aff s
  | .done => execDone s
  | .trig => execTrig s
  | .trap code => execTrap code s
  | .eret => execEret s
  | .crd x r => execCrd x r s
  | .cwr x r => execCwr x r s
  | .bkpt code => execBkpt code s
  | .engrave x y c => execEngrave x y c s
  | .bnset x k => execBnset x k s
  | .ewr r a => execEwr r a s
  | .ewrErhtTail idx a => execEwrErhtTail idx a s
  | .erd a r => execErd a r s
  | .mma ar br bank clr a => execMma ar br bank clr a s
  | .mzero bank => execMzero bank s
  | .mret bank lsf layout a b => execMret bank lsf layout a b s
  | .mgang mask bank clr a b => execMgang mask bank clr a b s
  | .flu variant a b => execFlu variant a b s
  | .fchol variant a b => execFchol variant a b s
  | .fqr a b => execFqr a b s
  | .ftrsm right upper tr unit a b => execFtrsm right upper tr unit a b s
  | .cpy a b => execCpy a b s
  | .coll a => execColl a s
  | .gld order scope z a b => execGld order scope z a b s
  | .gst order scope z a b => execGst order scope z a b s
  | .gaadd order scope z a b => execGaadd order scope z a b s
  | .gacas order scope z a b => execGacas order scope z a b s
  | .gaxch order scope z a b => execGaxch order scope z a b s
  | .gamax order scope z a b => execGamax order scope z a b s
  | .gamin order scope z a b => execGamin order scope z a b s
  | .wstrm a => execWstrm a s
  | .strb dir q a => execStrb dir q a s
  | .stru q => execStru q s
  | .lref a b => execLref a b s
  | .lqry a b => execLqry a b s
  | .phint access tier a b => execPhint access tier a b s
  | .pmig a b => execPmig a b s
  | _ => .next s

end Sys2Proof.Machine
end

