-- ==== Sys2Proof/Machine/Units.lean ====
section
/-!
DEFINITION. LBP blocks and the units of read streams (R135, R137, R144 to R151, R158, R193).
-/

namespace Sys2Proof.Machine

/-! LBP blocks (R149 to R151). -/

/-- R149: LEN of an index entry. -/
def lbpLen (e : Nat) : Nat := e / 4 % 512
/-- R150: what is corrupt about an index entry: 2 a reserved mode, 3 a length or width that does not fit. -/
def lbpCorrupt (e : Nat) : Option Nat :=
  let len := lbpLen e
  let w := e / 2048 % 32
  match e % 4 with
  | 3 => some 2
  | 1 => if len ≠ 0 ∨ w ≠ 0 then some 3 else none
  | 0 => if len ≠ 256 ∨ w ≠ 0 then some 3 else none
  | _ => if 7 < w ∨ len ≠ 1 + 32 * w then some 3 else none
/-- R150: the block that an entry's payload holds. -/
def lbpBlock (e : Nat) (p : List Nat) : List Nat :=
  match e % 4 with
  | 1 => List.replicate 256 0
  | 0 => p.take 256
  | _ =>
    let w := e / 2048 % 32
    let v := packNat 8 p.tail
    (List.range 256).map fun i => (p.headD 0 + v / 2 ^ (w * i) % 2 ^ w) % 256
/-- R151: the index entry and the payload of a block. -/
def lbpEncode (x : List Nat) : Nat × List Nat :=
  if x.all (· == 0) then (1, []) else
  let lo := x.foldl min 255
  let span := x.foldl max 0 - lo
  let w := if span = 0 then 0 else Nat.log2 span + 1
  if 256 ≤ 1 + 32 * w then (4 * 256, x)
  else (2048 * w + 4 * (1 + 32 * w) + 2,
    lo :: (List.range (32 * w)).map fun i => packNat w (x.map (· - lo)) / 256 ^ i % 256)

/-! Units of read streams (R144 to R148). -/

/-- The cause that a unit's pop raises; bundle, slot and repetition are the popping bundle's. -/
def unitCause (code : Nat) (detail : BitVec 32) (a : Nat) : Cause :=
  ⟨code, detail, 0, 0, false, 0, BitVec.ofNat 64 a, false, 0⟩
/-- R147, R196: the newest byte that pushes among some items hold for an address. -/
def pushedByte (items : List GatedItem) (a : Nat) : Option Byte :=
  items.foldl (fun r e => match e with
    | .push _ unit desc data gone => if gone.contains a then r else (streamUnit desc unit).zipIdx.foldl (fun r p =>
        if p.1 = a then some (data.extractLsb' (8 * p.2) 8) else r) r
    | _ => r) none
/-- R147, R196: the stores and pushes of a context that have not landed, those of its handler last. -/
def State.unlanded (s : State) (g : Nat) : List GatedItem :=
  (s.ctx g).gated.map Gated.item ++ (s.late.filter fun p => p.1 == g).map Prod.snd
/-- R137, R147, R158, R193, R196: the byte of a stream at a scratch address: a cause, or its value; out of range it is zero.
Pushes and pops of a context are performed in program order. -/
def State.streamByte (s : State) (g a : Nat) : Except Cause Byte :=
  match s.streamKey g a with
  | none => .ok 0
  | some k =>
    match pushedByte (s.unlanded g) a with
    | some b => .ok b
    | none =>
      if s.rowBad g a then .error (unitCause 0x0A 0 a)
      else if s.poisoned k then .error (unitCause 0x04 0 (a / 64 * 64))
      else .ok (s.mem.read k)
/-- The bytes at some addresses, or the first cause among them. -/
def State.streamBytes (s : State) (g : Nat) : List Nat → Except Cause (List Byte)
  | [] => .ok []
  | a :: t =>
    match s.streamByte g a with
    | .error c => .error c
    | .ok b => match s.streamBytes g t with
      | .error c => .error c
      | .ok l => .ok (b :: l)
/-- R148: the index entry of block k of a DEC stream. -/
def State.streamEntry (s : State) (g : Nat) (d : BitVec 512) (k : Nat) : Except Cause Nat :=
  match s.streamBytes g [(u32At d 0x20).toNat + 2 * k, (u32At d 0x20).toNat + 2 * k + 1] with
  | .error c => .error c
  | .ok l => .ok (leNat l)
/-- R148, R149: where the payload of block k begins, by the index as it stands: after those of the blocks before it. -/
def State.payloadStart (s : State) (g : Nat) (d : BitVec 512) : Nat → Nat
  | 0 => 0
  | k + 1 => s.payloadStart g d k + (match s.streamEntry g d k with
    | .ok e => lbpLen e
    | .error _ => 0)
/-- R148, R150: block k of a DEC stream q whose payload begins `off` bytes from the base. A corrupt entry comes before a
breach of E. -/
def State.decodedUnit (s : State) (g q : Nat) (d : BitVec 512) (k off : Nat) : StreamUnit :=
  let at_ := (u32At d 0x20).toNat + 2 * k
  let index := [at_, at_ + 1]
  match s.streamEntry g d k with
  | .error c => ⟨0, some c, 0, none⟩
  | .ok e =>
    let bound := 256 / 2 ^ (u8At d 14 / 2 % 4)
    match lbpCorrupt e <|> (if bound < lbpLen e then some 1 else none) with
    | some x => ⟨0, some (unitCause 0x09 (BitVec.ofNat 32 (16 * x + q)) at_), 0, none⟩
    | none =>
      let payload := (List.range (lbpLen e)).map fun i => (u32At d 0).toNat + off + i
      let spv := (s.ctx g).outOfRange (index ++ payload)
      match s.streamBytes g payload with
      | .error c => ⟨0, some c, lbpLen e, spv⟩
      | .ok p => ⟨BitVec.ofNat 2048 (packNat 8 (lbpBlock e (p.map BitVec.toNat))), none, lbpLen e, spv⟩
/-- R144, R147: unit k of a plain stream. -/
def State.plainUnit (s : State) (g : Nat) (d : BitVec 512) (k : Nat) : StreamUnit :=
  match s.streamBytes g (streamUnit d k) with
  | .error c => ⟨0, some c, 0, none⟩
  | .ok l => ⟨BitVec.ofNat 2048 (leNat l), none, 0, (s.ctx g).outOfRange (streamUnit d k)⟩
/-- R144, R148: unit k of a read stream. -/
def State.fetchUnit (s : State) (g q : Nat) (d : BitVec 512) (k off : Nat) : StreamUnit :=
  if streamDec d then s.decodedUnit g q d k off else s.plainUnit g d k

/-! The order of accesses on path S (R196, R198). -/

/-- R144, R148: the addresses of unit k of a read stream, whose payload of `len` bytes begins `off` bytes from the base. -/
def unitAddrs (d : BitVec 512) (k off len : Nat) : List Nat :=
  if streamDec d then
    [(u32At d 0x20).toNat + 2 * k, (u32At d 0x20).toNat + 2 * k + 1]
      ++ (List.range len).map fun i => (u32At d 0).toNat + off + i
  else streamUnit d k
/-- A prefetched unit has nothing but the given bytes at their addresses; of a decoded block, or one that cannot be popped,
that is not known. -/
def StreamUnit.agrees (u : StreamUnit) (d : BitVec 512) (k off : Nat) (bytes : List (Nat × Byte)) : Bool :=
  let known := !streamDec d && u.bad.isNone
  (unitAddrs d k off u.len).zipIdx.all fun p => bytes.all fun b =>
    b.1 != p.1 || (known && b.2 == u.data.extractLsb' (8 * p.2) 8)
/-- The units of a stream from unit k on, up to the first that does not agree with some bytes. -/
def agreeingUnits (d : BitVec 512) (bytes : List (Nat × Byte)) : Nat → Nat → List StreamUnit → List StreamUnit
  | _, _, [] => []
  | k, off, u :: t => if u.agrees d k off bytes then u :: agreeingUnits d bytes (k + 1) (off + u.len) t else []
/-- R146, R196, R198: the prefetched units of the read streams for which a condition holds go from the first on that does not
agree with bytes which the context has pushed, or which another of its streams has read: their pops read memory again, so
that all pops of the context read one byte in program order. -/
def Ctx.rereadUnits (c : Ctx) (bytes : List (Nat × Byte)) (which : Nat → Bool) : Ctx :=
  c.arch.streams.foldl (fun c p =>
    let have_ := AMap.get [] c.units p.1
    let keep := agreeingUnits p.2.desc bytes p.2.pos p.2.off have_
    if p.2.write || !which p.1 || keep.length == have_.length then c else { c with
      units := AMap.put c.units p.1 keep
      fetched := AMap.put c.fetched p.1 (p.2.pos + keep.length)
      fetchOff := AMap.put c.fetchOff p.1 (p.2.off + (keep.map StreamUnit.len).foldl (· + ·) 0) }) c
/-- R144: the addresses to which a bundle has pushed, by its streams before and after it. A stream that the bundle has pushed
to and unbound leaves no count: as many units as the bundle has slots are taken, up to the stream's last. To read more units
again than were pushed changes nothing, since a unit may be prefetched at any time. -/
def pushedSince (before now : AMap Stream) : List Nat :=
  before.flatMap fun p =>
    let n := match AMap.find now p.1 with
      | some a => a.pos - p.2.pos
      | none => min 8 (streamTotal p.2.desc / 256 - p.2.pos)
    if p.2.write then (List.range n).flatMap fun i => streamUnit p.2.desc (p.2.pos + i) else []
/-- The bytes of a stream at those addresses that it can read. -/
def State.streamCells (s : State) (g : Nat) (addrs : List Nat) : List (Nat × Byte) :=
  addrs.filterMap fun a => match s.streamByte g a with
    | .ok b => some (a, b)
    | .error _ => none
/-- R196: a bundle has issued: what its pushes changed is read again by pops of later bundles. -/
def State.orderPushes (s : State) (g : Nat) (before : AMap Stream) : State :=
  match pushedSince before (s.ctx g).arch.streams with
  | [] => s
  | addrs => s.modCtx g fun x => x.rereadUnits (s.streamCells g addrs) fun _ => true

end Sys2Proof.Machine
end

