-- ==== Sys2Proof/Machine/Bundle.lean ====
section
/-!
DEFINITION. Fetch, control-flow signatures, and the issue of one bundle: its slots, its stall or its cause, and where the
context goes next (R30 to R49, R71, R245, R331).
-/

namespace Sys2Proof.Machine

/-! Code fetch (R30, R31, R71, R245). -/

/-- What a read of parcels meets: an address outside the LTS, a cause of the fetch stream, or the parcels. -/
inductive CodeRead where
  | outside
  | bad (c : Cause)
  | ok (ps : List (BitVec 16))
  deriving DecidableEq, Repr

/-- What stands at a context's fetch position. -/
inductive Fetched where
  | outside
  | bad (c : Cause)
  | instr (i : Instr)
  deriving DecidableEq, Repr

/-- R30: the LTS scratch address of a parcel of the context's kernel. -/
def State.codeAddr (s : State) (g p : Nat) : Nat := ((s.myKernel g).map Kernel.codeBase).getD 0 + 2 * p

/-- R71: a cause raised by the fetch stream at the fetch position. -/
def State.fetchCause (s : State) (code : Nat) (detail : BitVec 32) (faddr : Word) : Cause :=
  let a := s.me.arch
  ⟨code, detail, a.pc, 0, true, a.printRep, faddr, false, a.tick⟩

/-- R30, R245: n parcels from a parcel address. R135 gives fetch LC7 code only and does not say what a fetch elsewhere in the
LTS meets: the model fetches from any valid row group (log entry 62). -/
def State.readParcels (s : State) (p n : Nat) : CodeRead :=
  let a := s.codeAddr s.cur p
  let cl := clusterOf s.cur
  let key := ltsKey cl (a - 0x10000000)
  let stale := fun i => !(s.row cl ((a - 0x10000000 + 2 * i) / 1024)).valid
  if a < 0x10000000 ∨ 0x14000000 < a + 2 * n then .outside
  else match (List.range n).find? fun i => s.poisoned (key + 2 * i) || stale i with
    | some i => .bad (s.fetchCause (if stale i then 0x0A else 0x04) 0 (BitVec.ofNat 64 (a + 2 * i)))
    | none => .ok ((List.range n).map fun i => BitVec.ofNat 16 (readNat s.mem (key + 2 * i) 2))

/-! Signatures (R47, R48). -/

/-- R48: looks up a block start among n entries of 8 bytes from a key. -/
def findSignature (m : Memory) (start : BitVec 32) : Nat → Nat → Option (BitVec 16)
  | _, 0 => none
  | key, n + 1 =>
    if readNat m key 4 = start.toNat then some (BitVec.ofNat 16 (readNat m (key + 4) 2))
    else findSignature m start (key + 8) n
/-- R48: the signature table's entry for a block start. The spec does not say what a lookup in a granule does that has been
poisoned since the LAUNCH: the model reads its bytes as they are (log entry 40). -/
def State.signatureOf (s : State) (g : Nat) (start : BitVec 32) : Option (BitVec 16) :=
  match s.myKernel g with
  | none => none
  | some k => findSignature s.mem start (physKey (u64At k.desc 0x28).toNat) (u32At k.desc 0x30).toNat

/-- R47: crc16_byte. -/
def crcByte (c : BitVec 16) (d : BitVec 8) : BitVec 16 :=
  (List.range 8).foldl (fun c _ => if c.getLsbD 15 then (c <<< 1) ^^^ 0x1021 else c <<< 1)
    (c ^^^ (d.zeroExtend 16 <<< 8))
/-- R47: the CRC over the bytes of a slot word, the highest first. -/
def crcWord (c : BitVec 16) (w : SlotWord) : BitVec 16 :=
  [24, 16, 8, 0].foldl (fun c k => crcByte c (w.extractLsb' k 8)) c
/-- R47: the CRC over a bundle. -/
def crcWords (c : BitVec 16) (ws : List SlotWord) : BitVec 16 := ws.foldl crcWord c

/-- R71: the instruction of a slot word. -/
def decodeSlot (w : SlotWord) : Instr := (decodeWord w).getD (.illegalWord w)

/-- R47: a slot-C instruction that ends a block. -/
def endsBlock (i : Instr) : Bool :=
  match i with
  | .beq _ _ _ | .bne _ _ _ | .blt _ _ _ | .bge _ _ _ | .bltu _ _ _ | .bgeu _ _ _ | .jmp _ _ | .jmpr _ _
  | .loop _ _ | .susp _ _ _ | .done | .trap _ | .eret => true
  | _ => false

/-- The bundle in issue is the last repetition of its parcel. -/
def Issue.last (i : Issue) : Bool := decide (i.reps ≤ i.rep + 1)
/-- The parcel address after the bundle. -/
def Issue.stop (i : Issue) : BitVec 32 := i.parcel + BitVec.ofNat 32 i.size

/-- R47: the bundle in issue ends its block. -/
def State.blockDone (s : State) : Bool :=
  endsBlock (decodeSlot (s.iss.words.getD 0 0)) || (s.iss.last && s.me.arch.loops.any fun l => l.stop == s.iss.stop)
/-- R47: the running CRC with the bundle in issue, and the block's start. -/
def State.running (s : State) : BitVec 16 × BitVec 32 :=
  let r := s.me.arch.crc.getD (0xFFFF, s.iss.parcel)
  (crcWords r.1 s.iss.words, r.2)
/-- R48: the cause of the bundle in issue, if it ends its block with another signature than the table's. The spec does not
say whether the entry is kept from the block's start: the model looks it up again at the end (log entry 63). -/
def State.badSignature (s : State) : Option Cause :=
  if !s.blockDone then none else
  let r := s.running
  match s.signatureOf s.cur r.2 with
  | none => some { s.fetchCause 0x03 0xFFFFFFFF (r.2.zeroExtend 64) with rep := s.iss.rep }
  | some t => if t = r.1 then none else
      some { s.fetchCause 0x03 (t ++ r.1) (r.2.zeroExtend 64) with rep := s.iss.rep }

/-! What stands at the fetch position. -/

/-- R32: parcels that an instruction of the fetch stream spans. -/
def parcelSpan (i : Instr) : Nat :=
  match i with
  | .fullBundleHeader _ => 17
  | _ => 1
/-- R46: a bundle straddles the end of an active body. -/
def straddles (loops : List Loop) (pc n : Nat) : Bool :=
  loops.any fun l => pc < l.stop.toNat && l.stop.toNat < pc + n

/-- R31, R46, R48, R245: the instruction at the fetch position, or the cause of the fetch stream. A block start without
an entry comes first; a context without a kernel, which no run has, has no table at all. -/
def State.fetch (s : State) : Fetched :=
  let a := s.me.arch
  if (s.myKernel s.cur).isNone ∨ a.crc.isNone ∧ (s.signatureOf s.cur a.pc).isNone then
    .bad (s.fetchCause 0x03 0xFFFFFFFF (a.pc.zeroExtend 64))
  else match s.readParcels a.pc.toNat 1 with
  | .outside => .outside
  | .bad c => .bad c
  | .ok ps =>
    let p := ps.headD 0
    match decodeParcel p with
    | none => .bad (s.fetchCause 0x01 (p.zeroExtend 32) 0)
    | some i => if straddles a.loops a.pc.toNat (parcelSpan i) then .bad (s.fetchCause 0x01 0 0) else .instr i

/-! Where the context goes next (R37, R45, R46, R292). -/

/-- R46: the end test of the active loops at a parcel address: where fetch goes on, and the loops left. -/
def endTest : List Loop → BitVec 32 → BitVec 32 × List Loop
  | [], e => (e, [])
  | l :: t, e =>
    if l.stop = e then
      if 1 < l.count.toNat then (l.start, { l with count := l.count - 1 } :: t) else endTest t e
    else (e, l :: t)
/-- R46: an address lies in a loop's body. -/
def Loop.holds (l : Loop) (p : BitVec 32) : Bool := l.start.toNat ≤ p.toNat && p.toNat < l.stop.toNat

/-- R37, R45, R46, R292: the next parcel address, the loops, and the next repetition. The spec does not say whether the end test
is made when a repetition other than the last of the PRINT that ends a loop body takes a transfer: the model makes it (log
entry 85). -/
def nextFlow (loops : List Loop) (i : Issue) : BitVec 32 × List Loop × Nat :=
  match i.target with
  | some t => (t, (endTest loops i.stop).2.filter (·.holds t), 0)
  | none =>
    match i.newLoop with
    | some l =>
      if i.skip then ((endTest loops l.stop).1, (endTest loops l.stop).2, 0) else (l.start, l :: loops, 0)
    | none =>
      if i.last then ((endTest loops i.stop).1, (endTest loops i.stop).2, 0) else (i.parcel, loops, i.rep + 1)

/-- R39, R47: the captured part of the context after the bundle in issue. -/
def Arch.advance (a : Arch) (i : Issue) (crc : Option (BitVec 16 × BitVec 32)) : Arch :=
  let f := nextFlow a.loops i
  { a with pc := f.1, loops := f.2.1, printRep := f.2.2, tick := a.tick + 1, crc := crc }

/-! Issue. -/

/-- R200, R295: the bundle waits for a released FENCE that holds near accesses, or for a stencil write due at its tick. -/
def State.waits (s : State) : Bool :=
  let c := s.me
  (s.cmds.any fun d => d.by_.g == s.cur && d.by_.gen == c.gen && match d.op with
    | .fence _ a _ _ => a.getLsbD 0 || a.getLsbD 4
    | _ => false)
  || (s.core (coreOf s.cur)).bnWrites.any fun w => w.1 == s.cur && decide (w.2.2.1 ≤ c.arch.tick)

/-- The effect of one slot word. -/
def State.runSlot (s : State) (k : Nat) (w : SlotWord) : State :=
  match execSlot (decodeSlot w) { s with slot := k } with
  | .next t => t
  | _ => s
/-- R7, R71: the slots in order, up to the first that raises a cause. -/
def State.runSlots (s : State) (k : Nat) : List SlotWord → State
  | [] => s
  | w :: t =>
    let r := s.runSlot k w
    match r.iss.verdict with
    | .raised _ => r
    | _ => r.runSlots (k + 1) t

/-- R141, R142, R200, R206, R359: what a stalled bundle leaves: its arrival at a vigil, and the proof it must see
sealed. -/
def State.stallWith (s : State) (want : Option Bracket) (arrival : Option Arrival) : State :=
  let s1 := (s.modCtx s.cur fun x => { x with arrival := arrival <|> x.arrival }).stall
  match want with
  | none => s1
  | some b =>
    let c := s1.me
    if c.bracket = some b then s1
    else if c.nUnsealed < 2 then s1.modCtx s.cur fun x => { x.capture s.cycle .proof with bracket := some b }
    else s1

/-- R141, R206: a proof captured and sealed at once; the gated buffer is empty. -/
def State.sealOwn (s : State) (g : Nat) : State :=
  let s1 := s.modCtx g fun c => { c.captureSealed s.cycle with gated := [] }
  s1.modCore (coreOf g) fun k => k.sealKinds g (s1.ctx g).gen (s1.ctx g).serial
/-- R141: a proof captured and sealed at once; everything gated is released. -/
def State.sealNow (s : State) (g : Nat) : State :=
  (s.ctx g).gated.foldl (fun s e => s.releaseItem g e.item) (s.sealOwn g)
/-- R12, R206: a proof captured and sealed at once as its bundle issues; everything gated is released when both contexts of
the core have had their turn of the cycle. -/
def State.sealLate (s : State) (g : Nat) : State :=
  let t := s.sealOwn g
  { t with late := t.late ++ (s.ctx g).gated.map fun e => (g, e.item) }

/-- R147: the streams the bundle popped move on by one unit. -/
def Ctx.popUnits (c : Ctx) (pops : NSet) : Ctx :=
  pops.foldl (fun c q => match AMap.find c.arch.streams q with
    | some st => { c with
        arch := { c.arch with streams := AMap.put c.arch.streams q { st with
          pos := st.pos + 1
          off := st.off + (((AMap.get [] c.units q).head?.map StreamUnit.len).getD 0) } }
        units := AMap.put c.units q (AMap.get [] c.units q).tail }
    | none => c) c

/-- R14, R20: the bundle of a SUSP or DONE has issued. -/
def Ctx.endSegment (c : Ctx) (cycle : Nat) (kind : CapKind) : Ctx :=
  { ({ c with arch := { c.arch with pend := [] } } : Ctx).capture cycle kind with state := .sealing }

/-- R250: ERET's steps. A poisoned write still pending is recognised while INTRAP is 1 (R245, R249). -/
def State.finishEret (s : State) (g : Nat) : State :=
  if (s.ctx g).arch.pend.any fun p => p.poison.isSome then s.doubleFault g (causeWord 0x04 false 0) else s.leaveHandler g

/-- R12, R34 to R49, R147, R206, R250, R251: the bundle has issued. Where its header and an ENGRAVE in it name one plate, the
spec does not say which content stays: the model writes the header's bundle last (log entry 64). Nor does it say what block
follows a repetition of a PRINT, not its last, whose branch is not taken and ends its block: the model looks the next one up at
the address of the PRINT (log entry 94). -/
def State.complete (s : State) (engrave : Nat) : State :=
  let i := s.iss
  let g := s.cur
  let crc := if s.blockDone then none else some s.running
  let image := BitVec.ofNat 256 (i.words.foldr (fun w n => n * 2 ^ 32 + w.toNat) 0)
  let s := s.storeLate g i.direct
  let s := if engrave = 0 then s else
    s.modCore (coreOf g) fun k => { k with plates := AMap.put k.plates engrave image }
  let s := s.modCtx g fun c =>
    let c := c.popUnits i.pops
    { c with arch := c.arch.advance i crc, bracket := none, bpDone := false }
  let s := if i.atomic && !(s.ctx g).intrap then s.sealLate g else s
  let s := match i.ends with
    | some kind => s.modCtx g fun c => c.endSegment s.cycle kind
    | none => s
  let s := if i.eret then s.finishEret g else s
  match i.after with
  | some c => s.finishTrap g c
  | none => s

/-- R59, R372: a bundle has come to its tick: an ERD that lands there has its value for good, however long the bundle
stalls. -/
def State.settleSamples (s : State) : State := s.modArch s.cur fun a => { a with
  pend := a.pend.map fun p => if p.tick ≤ a.tick then { p with sample := none } else p }
/-- R7, R11, R39, R71: one bundle of the context in execution: it issues, stalls, or raises a cause and has no effect. -/
def State.issueBundle (s : State) (words : List SlotWord) (size reps engrave : Nat) : State :=
  let a := s.me.arch
  let s0 := { s with iss := { Issue.reset with
    parcel := a.pc, size := size, rep := a.printRep, reps := reps, words := words } }
  if s0.waits then s0.settleSamples.stall
  else if a.fenced && !(s0.me.bracket == some .fence && s0.me.unsealed.isEmpty) then
    s0.settleSamples.stallWith (some .fence) none
  else
    let s0 := s0.modArch s.cur fun a => { a with fenced := false }
    let s2 := (s0.modCtx s.cur Ctx.land).runSlots 0 words
    match s2.iss.verdict with
    | .raised c => s0.raise c
    | .stall => s0.settleSamples.stallWith s2.iss.want s2.me.arrival
    | .ok =>
      match s2.badSignature with
      | some c => s0.raise c
      | none => (s2.complete engrave).orderPushes s.cur a.streams

/-- R33: the slot words of a plate; plate 0 is the empty bundle. -/
def State.plateWords (s : State) (core n : Nat) : List SlotWord :=
  let p : BitVec 256 := if n = 0 then 0 else AMap.get 0 (s.core core).plates n
  (List.range 8).map fun i => p.extractLsb' (32 * i) 32
/-- R32: slot words from 16 parcels. -/
def pairParcels : List (BitVec 16) → List SlotWord
  | lo :: hi :: t => (hi ++ lo) :: pairParcels t
  | _ => []

/-- R33, R37, R331: the next repetition of a PRINT. -/
def execPrint (n : BitVec 9) (k : BitVec 6) (s : State) : Res :=
  .next (s.issueBundle (s.plateWords (coreOf s.cur) n.toNat) 1 (k.toNat + 1) 0)
/-- R32, R34: a full bundle, engraved when its index is not 0. -/
def execFullBundleHeader (e : BitVec 9) (s : State) : Res :=
  match s.readParcels (s.me.arch.pc.toNat + 1) 16 with
  | .outside => .fault .fetchOutsideLts
  | .bad c => .next (s.raise c)
  | .ok ps => .next (s.issueBundle (pairParcels ps) 17 1 e.toNat)

end Sys2Proof.Machine
end

