-- ==== Sys2Proof/Machine/Boundary.lean ====
section
/-!
DEFINITION. What happens to a context between its bundles: its first boundary, causes and their order, seals, strikes,
vigils, spawned starts and the pre-emption freeze (R17, R23, R237 to R248, R252, R359 to R361).
-/

namespace Sys2Proof.Machine

/-! The boundary before a bundle. -/

/-- R17, R117: a command of the context's earlier work is still in the array: of an earlier record, or released before
its own pre-emption, but neither the factor command that its resume brought back nor what waits for such a resume. -/
def State.olderWork (s : State) (g : Nat) : Bool :=
  let held := s.stuck
  s.cmds.any fun d => d.by_.g == g && (d.by_.gen != (s.ctx g).gen || !d.op.isFactor) && (d.op.bankOf g).isSome
    && !held.contains d.id
/-- R17, R109: the context's own bank is zeroed for its new record. -/
def State.zeroOwnBank (s : State) (g : Nat) : State :=
  if (s.ctx g).bankZero then
    (((s.clearBank (coreOf g) (ownBank g)).dropGathered (coreOf g) (ownBank g)).modCore (coreOf g) fun k =>
      { k with openRel := k.openRel.del (ownBank g) }).modCtx g fun c => { c with bankZero := false }
  else s
/-- R17, R110, R122, R237: what a boundary of a context does before anything else: the bank of a new record is zeroed,
gathered flags are set, and the first proof is captured. Of a factor command's stop that brings both flags and a trap to one
boundary the spec does not say whether the flags outlast the rewind: the model sets them before the trap is taken, and the
rewind discards them (log entry 86). -/
def State.prepare (s : State) (g : Nat) : State :=
  (s.zeroOwnBank g).modCtx g fun c =>
    let c := { c with arch := { c.arch with flags := c.arch.flags ||| c.gather }, gather := 0 }
    if c.fresh then { c.capture s.cycle .proof with fresh := false } else c

/-- R247: an LTSEXP is due. -/
def Ctx.expiryDue (c : Ctx) : Bool := c.notice && c.aevt.getLsbD 0 && !c.intrap
/-- R157, R246: the LTSEXP cause. -/
def Ctx.expiryCause (c : Ctx) : Cause :=
  let idx := c.aevt.extractLsb' 32 32
  ⟨0x21, idx, c.arch.pc, 0, false, c.arch.printRep, BitVec.ofNat 64 (0x10000000 + 1024 * idx.toNat), false, c.arch.tick⟩

/-- R245 to R248: the cause due at a context's boundary is taken: of an engine cause and a poisoned landing the one of
the earlier-issued instruction, and an LTSEXP only when there is neither. -/
def execTrapEntry (g : Nat) (s : State) : Res :=
  let c := s.ctx g
  .next (if c.state ≠ .running then s else match s.takeSync g with
    | some t => t
    | none => if c.expiryDue then (s.modCtx g fun x => { x with notice := false }).take g c.expiryCause else s)

/-- R257: a parcel-address breakpoint stands at the next bundle. -/
def Ctx.atBreakpoint (c : Ctx) : Bool :=
  !c.bpDone && c.arch.printRep == 0 && c.bps.any fun p => p.2.getLsbD 32 && p.2.truncate 32 == c.arch.pc
/-- R257: the context freezes before the bundle at a breakpoint. -/
def execParcelBreakpoint (g : Nat) (s : State) : Res :=
  let c := s.ctx g
  .next (if c.state = .running ∧ c.atBreakpoint then
    s.modCtx g fun x => { x with state := .frozen, freeze := some .debug, bpDone := true } else s)

/-- R117, R247: a pre-emption request of the context may take hold: not in a handler, nor while a chain is open, nor before
an older saved context of its slot has gone (R228). -/
def State.mayPreempt (s : State) (g : Nat) : Bool :=
  let c := s.ctx g
  c.preq && !c.intrap && !c.anyChain && (AMap.find s.ce.saved g).isNone
/-- R131, R247: a pre-emption request stops the factor commands of its context at their next boundary, whatever keeps the
context itself from freezing; a request that arises in a handler is held until the ERET. A command that has stopped goes on
after the resume. The spec does not say what becomes of it where the context ends its run before it freezes: the model lets it
go on when the SUSP or DONE has sealed, which clears the request (log entry 29). -/
def State.stopsFactors (s : State) (g : Nat) : Bool :=
  let c := s.ctx g
  (c.state == .running || c.state == .sealing || c.state == .frozen) && c.preq && !c.preqHeld
/-- R117, R247, R252: a pre-emption freeze stops the context at this boundary. A context whose slide has begun (R141) waits,
and so does one whose factorisation is between boundaries. -/
def State.freezeAsked (s : State) (g : Nat) : Bool :=
  let c := s.ctx g
  s.mayPreempt g
    && !(s.cmds.any fun d => d.by_.g == g && d.by_.gen == c.gen && d.work.isSome)
    && !(s.cmds.any fun d => d.by_.g == g && d.by_.gen == c.gen && match d.op with
      | .slide _ _ _ _ => true
      | _ => false)
/-- R240, R252: the freeze can capture its proof; while two are unsealed the stopped context waits. -/
def State.freezeDue (s : State) (g : Nat) : Bool := s.freezeAsked g && decide ((s.ctx g).nUnsealed < 2)
/-- R252: the context stops issuing and captures a proof at the boundary. -/
def execPreemptFreeze (g : Nat) (s : State) : Res :=
  let c := s.ctx g
  if c.state = .running ∧ s.freezeDue g = true then
    let s1 := { s with ce := { s.ce with nextOrder := s.ce.nextOrder + 1 } }
    .next (s1.modCtx g fun x => { x.capture s.cycle .proof with
      state := .frozen, freeze := some .preempt, frozenAt := s.ce.nextOrder })
  else .next s

/-! Seals (R14, R20, R240). -/

/-- R13, R20: a context's work has ended: it holds no task, no stream and no chain. -/
def State.endRun (s : State) (g : Nat) : State :=
  s.modCtx g fun c => { c with
    arch := { c.arch with chains := [], streams := [], pend := [], fenced := false }
    state := s.restState g
    freeze := none
    kernel := none
    parent := none
    preq := false
    preqHeld := false
    startSeg := none
    causes := []
    waiting := []
    captured := none
    unsealed := []
    gated := []
    bracket := none
    arrival := none
    notice := false
    intrap := false
    entry := none
    units := [] }
/-- R14, R223: a record enters the pool. -/
def State.post (s : State) (r : Record) : State :=
  { s with ce := { s.ce with
      pool := s.ce.pool ++ [{ r with order := s.ce.nextOrder }], nextOrder := s.ce.nextOrder + 1 } }
/-- R20, R226: a task commits. -/
def State.commitTask (s : State) (kernel : Option Nat) (task : BitVec 10) : State :=
  match kernel with
  | none => s
  | some k => s.modKernel k fun x => { x with committed := x.committed.add task.toNat }

/-- R240: the oldest unsealed proof may seal. -/
def State.sealDue (s : State) (g : Nat) : Bool :=
  match (s.ctx g).unsealed with
  | [] => false
  | p :: _ => decide (p.cycle + Config.sealDelay ≤ s.cycle)
/-- R14, R15, R20, R239, R240: the oldest unsealed proof seals: the stores and commands of the segments before it are
released in order; a SUSP posts its record, a DONE commits its task, and the context is free. -/
def execProofSeal (g : Nat) (s : State) : Res :=
  let c := s.ctx g
  match c.unsealed with
  | [] => .next s
  | p :: t =>
    if !s.sealDue g then .next s else
    let out := c.gated.filter fun e => decide (e.seg < p.serial)
    let s1 := (s.modCore (coreOf g) fun k => k.sealKinds g c.gen p.serial).modCtx g fun x => { x with
      captured := some p, unsealed := t, gated := x.gated.filter fun e => decide (p.serial ≤ e.seg) }
    let s2 := out.foldl (fun s e => s.releaseItem g e.item) s1
    .next (match p.kind with
      | .proof => s2
      | .susp r => ((s2.post r).endRun g).progressOf c.kernel
      | .done => ((if c.spawn = 0 then s2.commitTask c.kernel c.task else s2).endRun g).progressOf c.kernel)

/-! Strikes (R242). -/

/-- R242: one context of a struck core. -/
def State.strikeCtx (s : State) (g : Nat) : State :=
  let c := s.ctx g
  match c.state with
  | .running | .sealing | .frozen =>
    let s1 := (s.rewindCtx g true).modCtx g fun x => { x.rejoin with intrap := false, preqHeld := false, entry := none }
    if c.state = .sealing then s1.modCtx g fun x => { x with state := .running } else s1
  | .halted =>
    let keep := (c.captured.map Capture.serial).getD 0
    (s.discard g keep).modCtx g fun x => { x with unsealed := [], gated := x.gated.filter fun e => decide (e.seg < keep) }
  | _ => s
/-- R242: a strike reported for a core; its engines repeat their work with the same results. -/
def execStrikeReport (core : Nat) (s : State) : Res := .next ((s.strikeCtx (2 * core)).strikeCtx (2 * core + 1))

/-! Spawned contexts (R21, R23, R24, R109). -/

/-- R23: the segment that holds a SPAWN has sealed. A run that has left its context has sealed every segment of its own. -/
def State.spawnSealed (s : State) (h gen seg : Nat) : Bool :=
  (s.ctx h).gen != gen || ((s.ctx h).captured.map fun p => decide (seg < p.serial)).getD (s.ctx h).kernel.isNone
/-- R18, R23, R109: a claimed context may issue its first bundle. -/
def State.spawnReady (s : State) (g : Nat) : Bool :=
  let c := s.ctx g
  match c.startSeg, c.kernel with
  | some (h, gen, seg), some kid =>
    decide (c.startAt ≤ s.cycle) && s.spawnSealed h gen seg
      && s.spawnFit g kid && !s.loan (sibling g) (ownBank g)
  | _, _ => false
/-- R23: a spawned context starts. -/
def execSpawnedContextStart (g : Nat) (s : State) : Res :=
  if !s.spawnReady g then .next s else
  match (s.ctx g).kernel with
  | none => .next s
  | some kid =>
    let s1 := if (s.core (coreOf g)).loaded = some kid then s else s.loadImages (coreOf g) kid
    .next (s1.modCtx g fun x => { x with startSeg := none, startAt := 0 })

/-! Vigils (R359 to R361). -/

/-- R359, R361: the registered arrival of the saved context of a position, in a kernel. -/
def State.savedArrival (s : State) (g : Nat) (kernel : Option Nat) : Option Arrival :=
  ((AMap.find s.ce.saved g).filter fun v => some v.kernel == kernel).bind Saved.arrival
/-- R359: the registered arrival of the context at work in a position, in a kernel. -/
def State.liveArrival (s : State) (g : Nat) (kernel : Option Nat) : Option Arrival :=
  if (s.ctx g).kernel = kernel then (s.ctx g).arrival else none
/-- R359: an arrival that still counts has the id and the mask of another. -/
def Arrival.meets (a b : Arrival) : Bool := b.vid == a.vid && b.mask == a.mask && !b.complete
/-- R359: the contexts of a cluster that a mask names. -/
def vigilNames (g : Nat) (m : BitVec 8) : List Nat :=
  ((List.range 8).filter fun k => m.getLsbD k).map fun k => clusterOf g * 8 + k
/-- R359: the vigil at which a context has arrived is complete. -/
def State.vigilMet (s : State) (g : Nat) : Bool :=
  let kernel := (s.ctx g).kernel
  match (s.ctx g).arrival with
  | none => false
  | some a => !a.complete && (vigilNames g a.mask).all fun h =>
      (s.savedArrival h kernel).any a.meets || (s.liveArrival h kernel).any a.meets
/-- An arrival whose vigil is complete. -/
def Arrival.done (a : Arrival) : Arrival := { a with complete := true }
/-- R359, R360: a vigil completes for a context: its arrival is spent, and its bundle may issue. Its later stream pops
read memory as it stands after the vigil. Where both the saved context of a position and the one at work there have arrived
alike, the saved one takes part (log entry 81). -/
def State.completeArrival (s : State) (g : Nat) (kernel : Option Nat) (a : Arrival) : State :=
  match (AMap.find s.ce.saved g).filter fun v => some v.kernel == kernel && v.arrival.any a.meets with
  | some v => { s with ce := { s.ce with saved := AMap.put s.ce.saved g { v with arrival := v.arrival.map Arrival.done } } }
  | none => s.modCtx g fun x => { x.dropUnits with arrival := x.arrival.map Arrival.done }
/-- R359, R360: a vigil completes for all the contexts it names at once. -/
def execVigilCompletion (g : Nat) (s : State) : Res :=
  match (s.ctx g).arrival with
  | none => .next s
  | some a =>
    .next (if s.vigilMet g then (vigilNames g a.mask).foldl (fun t h => t.completeArrival h (s.ctx g).kernel a) s else s)

/-- R302, R361: the vigil timeout of a context has run out, by the VGTMO that its stalled VIGIL issues under. -/
def State.vigilLate (s : State) (g : Nat) : Bool :=
  let c := s.ctx g
  match c.arrival with
  | none => false
  | some a => c.state == .running && !c.intrap && !a.complete && c.land.arch.vgtmo != 0
      && decide (a.since + c.land.arch.vgtmo.toNat * 1024 ≤ s.cycle)
/-- R361: VIGILTO: the arrival is withdrawn and the context rewinds. -/
def execVigilto (g : Nat) (s : State) : Res :=
  let c := s.ctx g
  match c.arrival with
  | none => .next s
  | some a =>
    .next (if s.vigilLate g then
      s.take g ⟨0x13, a.vid.zeroExtend 32, c.arch.pc, 0, false, c.arch.printRep, 0, false, c.arch.tick⟩ else s)

end Sys2Proof.Machine
end

