-- ==== Sys2Proof/Machine/Matrix.lean ====
section
/-!
DEFINITION. The matrix array at work: k-steps (R101, R102, R113), drains (R110, R111) and gangs (R115, R116).
-/

namespace Sys2Proof.Machine

/-! Tiles (R79, R84, R100). -/

/-- R61: the float format of a matrix format code. -/
def matFmt (code : Nat) : FFmt :=
  match code with
  | 0 => fp32 | 1 => bf16 | 2 => fp16 | 3 => e4m3 | 4 => e5m2 | _ => e2m1
/-- R100: bits of an element. -/
def matBits (code : Nat) : Nat := if code = 0 then 32 else if code = 1 ∨ code = 2 then 16 else if code = 6 then 4 else 8
/-- Element i of a tile held as one little-endian number. -/
def tileElem (code tile i : Nat) : Nat := tile / 2 ^ (matBits code * i) % 2 ^ matBits code
/-- R84: an element's value; FZI flushes subnormals but those of E2M1. -/
def matValue (code : Nat) (fzi : Bool) (x : Nat) : FV :=
  decodeF (matFmt code) (if fzi && code != 6 then flushSub (matFmt code) x else x)
/-- R79: the value of an E8M0 scale. -/
def scaleValue (e : Nat) : FV := if e = 255 then .nan else .fin false 1 ((e : Int) - 127)
/-- R100: byte i of a tile. -/
def tileByte (tile i : Nat) : Nat := tile / 2 ^ (8 * i) % 256

/-- R95, R100: element (m, k) of the A tile. -/
def MatJob.aValue (j : MatJob) (ta m k : Nat) : FV :=
  let c := fld j.fmt 3 0
  let v := matValue c (j.fmt.getLsbD 17) (tileElem c ta (m * j.depthK + k))
  if c = 6 then mulFV v (scaleValue (tileByte ta (geoM j.mgeo * j.depthK / 2 + m * (2 * geoKT j.mgeo) + k / 32))) else v
/-- R95, R100: element (k, n) of the B tile. -/
def MatJob.bValue (j : MatJob) (tb k n : Nat) : FV :=
  let c := fld j.fmt 7 4
  let v := matValue c (j.fmt.getLsbD 17) (tileElem c tb (k * geoN j.mgeo + n))
  if c = 6 then mulFV v (scaleValue (tileByte tb (j.depthK * geoN j.mgeo / 2 + k / 32 * geoN j.mgeo + n))) else v

/-- What a bank element has come to: its value, its LSF bit and the flags raised. -/
structure BankElem where
  val : BitVec 32
  lsf : Bool
  flags : BitVec 4
  deriving DecidableEq, Repr

/-- R94, R95, R101: one float beat of an element: the products of group g and the bank's value. -/
def MatJob.floatBeat (j : MatJob) (ta tb m n : Nat) (e : BankElem) (g : Nat) : BankElem :=
  let gs := groupSize (fld j.fmt 3 0)
  let terms := (List.range gs).map fun i => mulFV (j.aValue ta m (g * gs + i)) (j.bValue tb (g * gs + i) n)
  let r := windowSum (terms ++ [decodeF fp32 e.val.toNat]) (awinBits (fld j.fmt 16 14))
  ⟨BitVec.ofNat 32 r.bits, e.lsf || r.lsf, e.flags ||| flagsOf false false r.lsf r.ufl⟩
/-- R97: one INT8 beat of an element. -/
def MatJob.intBeat (j : MatJob) (ta tb m n : Nat) (e : BankElem) (g : Nat) : BankElem :=
  let a := fun k => signed 8 (tileElem 5 ta (m * j.depthK + k))
  let b := fun k => signed 8 (tileElem 5 tb (k * geoN j.mgeo + n))
  let s : Int := (List.range 32).foldl (fun s i => s + a (32 * g + i) * b (32 * g + i)) e.val.toInt
  let c : Int := max (-2147483648) (min 2147483647 s)
  ⟨BitVec.ofInt 32 c, e.lsf, e.flags ||| flagsOf false (decide (c ≠ s)) false false⟩
/-- R101: an element over all groups of a k-step. -/
def MatJob.stepElem (j : MatJob) (ta tb m n : Nat) (e : BankElem) : BankElem :=
  (List.range (geoKT j.mgeo)).foldl
    (if fld j.fmt 3 0 = 5 then j.intBeat ta tb m n else j.floatBeat ta tb m n) e

/-- R101: the beats of one k-step on a bank. -/
def Core.kstep (k : Core) (j : MatJob) (ta tb : Nat) : Core :=
  (List.range (geoM j.mgeo)).foldl (fun k m => (List.range (geoN j.mgeo)).foldl (fun k n =>
    let key := bankKey j.bank m n
    let e := j.stepElem ta tb m n ⟨AMap.get 0 k.bank key, k.lsf.contains key, 0⟩
    { k with
      bank := AMap.put k.bank key e.val
      lsf := if e.lsf then k.lsf.add key else k.lsf
      gathered := AMap.put k.gathered j.bank (AMap.get 0 k.gathered j.bank ||| e.flags) }) k) k

/-! Rings (R102 to R104). -/

/-- R102: slots of a ring not yet claimed. -/
def Core.claimable (k : Core) (ring : Nat) : Bool :=
  AMap.get 0 k.held ring < (AMap.get 0 k.tail ring - AMap.get 0 k.head ring).toNat
/-- R104, R113: the first byte among n from an offset of a core's weight buffer whose granule is poisoned. -/
def State.bufferBad (s : State) (core off n : Nat) : Option Nat :=
  (List.range n).find? fun i => s.poisoned (wbufKey core (off + i))
/-- R113, R129: the status that a granule which cannot be read gives: POISON, or FAULT for an error without poison. -/
def State.badStatus (s : State) (key : Nat) : Nat := if s.isFlawed key then 1 else 2
/-- R102, R113: reads n bytes of a ring slot of a job on a core: the bytes as one number, or the cause code and address
of what cannot be read, and the status of the commands behind. -/
def State.readSlot (s : State) (core : Nat) (j : MatJob) (ring : Nat) (d : Word) (n : Nat) :
    Except (Nat × Nat × Nat) Nat :=
  let slot := (s.core core).nextSlot ring
  if ring = 7 then
    let sz := fld j.wbcfg 23 8 * 256
    let off := if fld j.wbcfg 1 0 = 0 then slot % (wbSlots j.wbcfg).getD 1 * sz else slot % 2 * 65536
    match s.bufferBad core off n with
    | some i => .error (0x04, Config.bufferAddress core ((off + i) / 64 * 64), s.badStatus (wbufKey core (off + i)))
    | none => .ok (readNat s.mem (wbufKey core off) n)
  else
    let a := fld d 31 0 + slot % fld d 63 48 * (fld d 47 32 * 256)
    let g := 2 * core + j.bank
    let key := (scratchKey g j.lo.toNat j.hi.toNat a).getD 0
    match (List.range n).find? fun i => s.poisoned (key + i) || s.rowBad g (a + i) with
    | some i => if s.rowBad g (a + i) then .error (0x0A, a + i, 3)
      else .error (0x04, (a + i) / 64 * 64, s.badStatus (key + i))
    | none => .ok (readNat s.mem key n)

/-- R102: pops n slots of a ring. -/
def Core.popRing (k : Core) (ring n : Nat) : Core :=
  { k with head := AMap.put k.head ring (AMap.get 0 k.head ring + BitVec.ofNat 32 n) }
/-- R115: slots of a ring claimed and not yet popped change. -/
def Core.holdRing (k : Core) (ring : Nat) (f : Nat → Nat) : Core :=
  { k with held := AMap.put k.held ring (f (AMap.get 0 k.held ring)) }

/-! Commands of a bank (R108). -/

/-- R111: the completion word of an MRET. -/
def mretWord (status : Nat) (pair : Word) : BitVec 32 := BitVec.ofNat 32 (status * 2 ^ 28 + fld pair 59 32)

/-- R113, R115: a member's part of a gang is over, with no product. -/
def Cmd.dropPart (c : Cmd) (m : Nat) : Cmd :=
  { c with failed := c.failed ||| BitVec.ofNat 4 (2 ^ m), parts := c.parts.set m none, due := c.due &&& ~~~BitVec.ofNat 4 (2 ^ m) }
/-- R113: a released command behind a failed one is abandoned. The spec does not say what becomes of a gang's part: the
model counts it as a failed member, without a cause to the member's context (log entry 65). -/
def State.abandon (s : State) (core status : Nat) (c : Cmd) : State :=
  match c.op with
  | .mret _ _ _ _ _ _ pair _ => (s.completionWord c.by_ (pair.truncate 32) (mretWord status pair)).finish c.id
  | .gang _ _ _ => s.modCmd c.id fun d => d.dropPart (core % 4)
  | .factor _ =>
    (if (s.ctx c.by_.g).gen = c.by_.gen then s.modCtx c.by_.g fun x => { x with fdone := true } else s).finish c.id
  | _ => s.finish c.id

/-- R113: an MMA meets a granule or row group it cannot read: the commands released after it on its bank are abandoned. -/
def State.failMma (s : State) (core : Nat) (c : Cmd) (bank code addr status : Nat) : State :=
  let behind := s.cmds.filter fun d => d.onBank core bank && decide (c.id < d.id)
  let s1 := s.zeroBank core bank
  let s2 := if (s.ctx c.by_.g).gen = c.by_.gen then s1.closeChain core bank c.by_.g else s1
  let s3 := behind.foldl (fun s d => s.abandon core status d) s2
  (s3.finish c.id).report c.by_ code (if code = 0x04 then 1 else 0) (BitVec.ofNat 64 addr)

/-- R116: a gang member meets a granule or row group it cannot read; its ring HEADs stay where they were. -/
def State.failPart (s : State) (core : Nat) (c : Cmd) (j : MatJob) (code addr : Nat) : State :=
  let m := core % 4
  let n := c.partDone m
  let s1 := s.modCore core fun k => (k.holdRing j.aring (· - n)).holdRing j.bring (· - n)
  ((s1.modCmd c.id fun d => d.dropPart m).zeroBank core j.bank).failMember c.by_ core j.bank code 0 (BitVec.ofNat 64 addr)

/-- R102, R106: one k-step of a job: the bank zeroed first when it is the command's first and CLR is set. -/
def State.runStep (s : State) (core : Nat) (j : MatJob) (first : Bool) (ta tb : Nat) : State :=
  (if first && j.clr then s.clearBank core j.bank else s).modCore core fun k => k.kstep j ta tb

/-- R102, R113: the tiles of a job's next k-step; none while a slot is not claimable. Of several granules that cannot be read the
spec does not say which decides: in the model the A tile comes before the B tile, an invalid row group of a tile before its
poison, and the lowest address first (log entry 66). -/
def State.stepTiles (s : State) (core : Nat) (j : MatJob) : Option (Except (Nat × Nat × Nat) (Nat × Nat)) :=
  let k := s.core core
  if !k.claimable j.aring || !k.claimable j.bring then none else
  match s.readSlot core j j.aring j.aDesc (tileA j.mgeo j.fmt) with
  | .error e => some (.error e)
  | .ok ta =>
    match s.readSlot core j j.bring j.bDesc (tileB j.mgeo j.fmt) with
    | .error e => some (.error e)
    | .ok tb => some (.ok (ta, tb))

/-- R102: whether a bank's first command can run a k-step. -/
def State.canStep (s : State) (core bank : Nat) : Bool :=
  match s.bankHead core bank with
  | none => false
  | some c => s.ready c && !s.pathWaits c && match c.op with
    | .mma j => (s.stepTiles core j).isSome
    | .gang _ _ _ => match (c.parts.getD (core % 4) none) with
      | some j => decide (c.partDone (core % 4) < j.count) && (s.stepTiles core j).isSome
      | none => c.due.getLsbD (core % 4)
    | _ => false

/-- R101, R102, R113, R115, R116: one k-step of the first command of a bank. The bank of a member that failed at the release
of its gang is zeroed here, in the bank's order. -/
def execMatrixKstep (core bank : Nat) (s : State) : Res :=
  if !s.canStep core bank then .next s else
  match s.bankHead core bank with
  | none => .next s
  | some c =>
    match c.op with
    | .mma j =>
      match s.stepTiles core j with
      | some (.ok (ta, tb)) =>
        let s1 := (s.runStep core j (c.prog == 0) ta tb).modCore core fun k => (k.popRing j.aring 1).popRing j.bring 1
        .next (if c.prog + 1 = j.count then s1.finish c.id else s1.modCmd c.id fun d => { d with prog := d.prog + 1 })
      | some (.error e) => .next (s.failMma core c bank e.1 e.2.1 e.2.2)
      | none => .next s
    | .gang _ _ _ =>
      match c.parts.getD (core % 4) none with
      | none => .next ((s.zeroBank core bank).modCmd c.id fun d => d.dropPart (core % 4))
      | some j =>
        match s.stepTiles core j with
        | some (.ok (ta, tb)) =>
          .next (((s.runStep core j (c.partDone (core % 4) == 0) ta tb).modCore core fun k =>
            (k.holdRing j.aring (· + 1)).holdRing j.bring (· + 1)).modCmd c.id fun d =>
              { d with prog := d.prog + 65536 ^ (core % 4) })
        | some (.error e) => .next (s.failPart core c j e.1 e.2.1)
        | none => .next s
    | _ => .next s

/-! Drains (R110). -/

/-- R110: the bytes of one element in a layout. -/
def drainElem (layout : MLayout) (v : BitVec 32) : List Byte :=
  match layout with
  | .bf16 => leBytes 2 (roundF bf16 rneRnd (decodeF fp32 v.toNat)).bits
  | _ => leBytes 4 v.toNat
/-- R110: the address of element (m, n) in a layout. -/
def drainAddr (layout : MLayout) (mm nn dst m n : Nat) : Nat :=
  match layout with
  | .f32 => dst + 4 * (m * nn + n)
  | .bf16 => dst + 2 * (m * nn + n)
  | .f32t => dst + 4 * (n * mm + m)
/-- R110: the result bytes of a drain. -/
def Core.drainBytes (k : Core) (bank : Nat) (layout : MLayout) (mm nn dst : Nat) : List (Nat × Byte) :=
  (List.range mm).flatMap fun m => (List.range nn).flatMap fun n =>
    (drainElem layout (AMap.get 0 k.bank (bankKey bank m n))).zipIdx.map fun p =>
      (drainAddr layout mm nn dst m n + p.2, p.1)
/-- R110: the bytes of the LSF bitmap. -/
def Core.lsfBytes (k : Core) (bank mm nn base : Nat) : List (Nat × Byte) :=
  (List.range ((mm * nn + 7) / 8)).map fun b =>
    (base + b, BitVec.ofNat 8 ((List.range 8).foldl (fun v i =>
      let e := 8 * b + i
      if decide (e < mm * nn) && k.lsf.contains (bankKey bank (e / nn) (e % nn)) then v + 2 ^ i else v) 0))

/-- R110: whether a bank's first command is a drain that may run. -/
def State.canDrain (s : State) (core bank : Nat) : Bool :=
  match s.bankHead core bank with
  | none => false
  | some c => s.ready c && !s.pathWaits c && match c.op with
    | .mret _ _ _ _ _ _ _ _ => true
    | _ => false

/-- R110, R111, R138, R193: a drain; FAULT for dropped bytes, POISON for a part write of a poisoned granule. -/
def execMretDrain (core bank : Nat) (s : State) : Res :=
  if !s.canDrain core bank then .next s else
  match s.bankHead core bank with
  | none => .next s
  | some c =>
    match c.op with
    | .mret _ lsf layout mm nn dst pair _ =>
      let k := s.core core
      let size := mm * nn * (if layout = .bf16 then 2 else 4)
      let bytes := k.drainBytes bank layout mm nn dst.toNat
        ++ (if lsf then k.lsfBytes bank mm nn (dst.toNat + size) else [])
      let w := s.engineWriteBytes c.by_ c.by_.lo.toNat c.by_.hi.toNat bytes
      let status := if w.dropped then 1 else if w.poisoned then 2 else 0
      let s1 := w.state.completionWord c.by_ (pair.truncate 32) (mretWord status pair)
      .next (((s1.giveGathered core bank c.by_).finish c.id).reportIsolated c.by_ w.isolated)
    | _ => .next s

/-! Gangs (R115, R116). -/

/-- R115: every member has run its beats or failed, its bank zeroed. -/
def Cmd.gangDone (c : Cmd) : Bool :=
  c.due == 0 && (List.range 4).all fun m => match c.parts.getD m none with
    | some j => c.partDone m == j.count
    | none => true
/-- R116, R302: AEVT.GANG of a member's context: in the context, or in its save slot. -/
def State.gangNotice (s : State) (g : Nat) (kernel : Option Nat) (mask : BitVec 4) : State :=
  let set (w : Word) : Word := (mask.zeroExtend 32 : BitVec 32) ++ (w.truncate 32 ||| (2 : BitVec 32))
  match (AMap.find s.ce.saved g).filter fun v => some v.kernel == kernel with
  | some v =>
    match s.kernel v.kernel with
    | some k =>
      let pa := s.slotBase k.part g + 0x50
      s.writePhys pa (leBytes 8 (set (BitVec.ofNat 64 (readNat s.mem (physKey pa) 8))).toNat)
    | none => s
  | none => if (s.ctx g).kernel = kernel then
      s.modCtx g fun x => { x with aevt := set x.aevt, aevtNew := x.aevtNew ||| 2 } else s

/-- R111, R115, R116: the whole gang completes: deferred pops, notices, and the completion word in every member core. -/
def execGangCompletion (n : Nat) (s : State) : Res :=
  match s.cmds.find? fun c => c.id == n with
  | none => .next s
  | some c =>
    match c.op with
    | .gang mask j pair =>
      if !c.gangDone || !s.ready c then .next s else
      let base := clusterOf c.by_.g * 4
      let s1 := c.parts.zipIdx.foldl (fun s p => match p.1 with
        | none => s
        | some x =>
          let s1 := s.modCore (base + p.2) fun k =>
            ((k.popRing x.aring x.count).popRing x.bring x.count).holdRing x.aring (· - x.count) |>.holdRing x.bring (· - x.count)
          if c.failed = 0 then s1 else s1.gangNotice (2 * (base + p.2) + j.bank) c.by_.kernel c.failed) s
      let word := BitVec.ofNat 32 ((if c.failed = 0 then 0 else 2 ^ 28) + c.failed.toNat * 2 ^ 24 + fld pair 55 32)
      let cells := (List.range 4).flatMap fun m =>
        if mask.getLsbD m then (leBytes 4 word.toNat).zipIdx.filterMap fun p =>
          if fld pair 31 0 + p.2 < 0x80000 then some (nearKey (base + m) (fld pair 31 0 + p.2), p.1) else none
        else []
      .next (((s1.mergeCells cells).progressOf c.by_.kernel).finish c.id)
    | _ => .next s

end Sys2Proof.Machine
end

