-- ==== Sys2Proof/Machine/Factor.lean ====
section
/-!
DEFINITION. Tile factorisations (R118 to R134): the algorithms over FP32 codes, the load, the stops and the
interruption at a boundary.
-/

namespace Sys2Proof.Machine

/-! Arithmetic (R121). -/

/-- Element (i, j). -/
def grid (t : List (List Nat)) (i j : Nat) : Nat := (t.getD i []).getD j 0
/-- Changes element (i, j). -/
def setGrid (t : List (List Nat)) (i j v : Nat) : List (List Nat) := t.set i ((t.getD i []).set j v)
/-- The value of an FP32 code. -/
def val32 (x : Nat) : FV := decodeF fp32 x
/-- R121: a windowed sum of the command. -/
def Fac.wsum (f : Fac) (w : Nat) (terms : List FV) : Nat × Fac :=
  let r := windowSum terms w
  (r.bits, { f with lsf := f.lsf || r.lsf, ufl := f.ufl || r.ufl })
/-- R121: a value rounded by RNE; a subnormal result becomes zero and sets UFL. -/
def Fac.rnd (f : Fac) (v : FV × Bool) : Nat × Fac :=
  let r := roundSticky fp32 rneRnd v
  if r.sub then (fp32.signed (fp32.neg r.bits) 0, { f with ufl := true }) else (r.bits, f)
/-- R121: an exact quotient, with a sticky bit. -/
def divFV (x y : FV) : FV × Bool :=
  match x, y with
  | .nan, _ | _, .nan | .inf _, .inf _ => (.nan, false)
  | .inf a, .fin b _ _ => (.inf (a != b), false)
  | .fin a _ _, .inf b => (.fin (a != b) 0 0, false)
  | .fin a m e, .fin b n k =>
    if n = 0 then (if m = 0 then .nan else .inf (a != b), false)
    else (.fin (a != b) (m * 2 ^ 60 / n) (e - k - 60), m * 2 ^ 60 % n != 0)
/-- R121: div_rne. -/
def Fac.div (f : Fac) (x y : Nat) : Nat × Fac := f.rnd (divFV (val32 x) (val32 y))
/-- R121: sqrt_rne of a positive number. -/
def Fac.sqrt (f : Fac) (x : Nat) : Nat × Fac :=
  f.rnd (match val32 x with
    | .fin false m e => if m = 0 then (.fin false 0 0, false) else sqrtFin m e
    | .fin true m _ => if m = 0 then (.fin true 0 0, false) else (.nan, false)
    | .inf false => (.inf false, false)
    | _ => (.nan, false))

/-- R124: the magnitude of a code, ordered as a number: every NaN alike, above infinity. -/
def magOf (x : Nat) : Nat := if (val32 x).isNan then 0x7FC00000 else x % 2 ^ 31
/-- R125: the largest magnitude among codes. -/
def maxMag (l : List Nat) : Nat := l.foldl (fun m x => max m (magOf x)) 0

/-- Sets element (i, j) of the tile. -/
def Fac.put (f : Fac) (i j v : Nat) : Fac := { f with t := setGrid f.t i j v }
/-- The indices from a to b - 1. -/
def upto (a b : Nat) : List Nat := (List.range (b - a)).map (a + ·)
/-- R121: T[i][k] − x × y by the windowed sum, for the value at (i, k). -/
def Fac.update (f : Fac) (w i k : Nat) (x y : Nat) : Fac :=
  let r := f.wsum w [val32 (grid f.t i k), negFV (mulFV (val32 x) (val32 y))]
  r.2.put i k r.1
/-- R125: note_growth over elements of rows and columns from k on. -/
def Fac.note (f : Fac) (n k : Nat) (inside : Nat → Nat → Bool) : Fac :=
  { f with seen := (upto k n).foldl (fun s i => (upto k n).foldl (fun s m =>
      if inside i m then max s (magOf (grid f.t i m)) else s) s) f.seen }

/-! The algorithms (R123 to R128): one step; none for a stop at that step. -/

/-- R124: pivot_row. -/
def pivotRow (t : List (List Nat)) (n j : Nat) : Nat :=
  (upto j n).foldl (fun p i => if magOf (grid t p j) < magOf (grid t i j) then i else p) j
/-- Exchanges two places of a list. -/
def swapAt {α : Type} (d : α) (l : List α) (i j : Nat) : List α := (l.set i (l.getD j d)).set j (l.getD i d)
/-- R123: a step of FLU. -/
def Fac.stepLu (f : Fac) (w n : Nat) (pivoting : Bool) (j : Nat) : Option Fac :=
  let p := if pivoting then pivotRow f.t n j else j
  let f1 := { f with t := swapAt [] f.t j p, perm := swapAt 0 f.perm j p }
  let piv := grid f1.t j j
  if (val32 piv).isZero then none else
  let f2 := (upto (j + 1) n).foldl (fun f i => let r := f.div (grid f.t i j) piv; r.2.put i j r.1) f1
  let f3 := (upto (j + 1) n).foldl (fun f i => (upto (j + 1) n).foldl (fun f k =>
    f.update w i k (grid f.t i j) (grid f.t j k)) f) f2
  some (f3.note n (j + 1) fun _ _ => true)
/-- The transpose of an n by n tile. -/
def transpose (n : Nat) (t : List (List Nat)) : List (List Nat) :=
  (List.range n).map fun i => (List.range n).map fun j => grid t j i
/-- R126: a step of FCHOL on the lower triangle. -/
def Fac.stepChol (f : Fac) (w n : Nat) (j : Nat) : Option Fac :=
  let d := grid f.t j j
  if (val32 d).isNan || leFV (val32 d) (.fin false 0 0) then none else
  let r := f.sqrt d
  let f1 := r.2.put j j r.1
  let f2 := (upto (j + 1) n).foldl (fun f i => let q := f.div (grid f.t i j) (grid f.t j j); q.2.put i j q.1) f1
  let f3 := (upto (j + 1) n).foldl (fun f k => (upto k n).foldl (fun f i =>
    f.update w i k (grid f.t i j) (grid f.t k j)) f) f2
  some (f3.note n (j + 1) fun i m => decide (m ≤ i))
/-- R77, R127: a step of FQR; a NaN norm gives the canonical NaN. -/
def Fac.stepQr (f : Fac) (w n : Nat) (j : Nat) : Fac :=
  let alpha := grid f.t j j
  let rows := upto (j + 1) n
  let sg := f.wsum w (rows.map fun i => mulFV (val32 (grid f.t i j)) (val32 (grid f.t i j)))
  let f1 := sg.2
  let f2 := if (val32 sg.1).isZero then { f1 with tau := AMap.put f1.tau j 0 } else
    let ss := f1.wsum w [mulFV (val32 alpha) (val32 alpha), val32 sg.1]
    let nrm := ss.2.sqrt ss.1
    let beta := if (val32 nrm.1).isNan then fp32.nan else if leFV (.fin false 0 0) (val32 alpha) then fp32.flip nrm.1 else nrm.1
    let d := nrm.2.rnd (addFV .rne (val32 beta) (negFV (val32 alpha)), false)
    let tau := d.2.div d.1 beta
    let u := tau.2.rnd (addFV .rne (val32 alpha) (negFV (val32 beta)), false)
    let f3 := { u.2 with tau := AMap.put u.2.tau j tau.1 }
    let f4 := rows.foldl (fun f i => let q := f.div (grid f.t i j) u.1; q.2.put i j q.1) f3
    rows.foldl (fun f k =>
      let ws := f.wsum w (val32 (grid f.t j k) :: rows.map fun i => mulFV (val32 (grid f.t i j)) (val32 (grid f.t i k)))
      let t := ws.2.rnd (mulFV (val32 tau.1) (val32 ws.1), false)
      let a := t.2.wsum w [val32 (grid t.2.t j k), negFV (val32 t.1)]
      rows.foldl (fun f i => f.update w i k (grid f.t i j) t.1) (a.2.put j k a.1)) (f4.put j j beta)
  f2.note n (j + 1) fun _ _ => true
/-- R128: a step of FTRSM over the triangle R and the right-hand side Y of c columns. -/
def Fac.stepTrsm (f : Fac) (w n c : Nat) (flip lower unit : Bool) (s : Nat) : Option Fac :=
  let r := fun i j => if flip then grid f.t j i else grid f.t i j
  let j := if lower then s else n - 1 - s
  if !unit && (val32 (r j j)).isZero then none else
  let cols := List.range c
  let f1 := if unit then f else
    cols.foldl (fun f m => let q := f.div (grid f.y j m) (r j j); { q.2 with y := setGrid q.2.y j m q.1 }) f
  let rows := (List.range n).filter fun i => if lower then decide (j < i) else decide (i < j)
  some (rows.foldl (fun f i => cols.foldl (fun f m =>
    let q := f.wsum w [val32 (grid f.y i m), negFV (mulFV (val32 (r i j)) (val32 (grid f.y j m)))]
    { q.2 with y := setGrid q.2.y i m q.1 }) f) f1)

/-! A command (R118 to R120). -/

/-- R118: n of a command. -/
def FacJob.n (j : FacJob) : Nat := fld j.fgeo 7 0
/-- R118: the columns of the right-hand side. -/
def FacJob.c (j : FacJob) : Nat := fld j.frhs 39 32 + 1
/-- R119: FTRSM.R. -/
def FacJob.right (j : FacJob) : Bool := j.opts.getLsbD 3
/-- R119: FTRSM.UP. -/
def FacJob.upper (j : FacJob) : Bool := j.opts.getLsbD 2
/-- R128: flip. -/
def FacJob.flip (j : FacJob) : Bool := j.opts.getLsbD 1 != j.right
/-- R119: the variant of FLU, FCHOL and FQR is 1. -/
def FacJob.variant (j : FacJob) : Bool := j.op != 0x79 && j.opts.getLsbD 2
/-- R128: R is lower triangular. -/
def FacJob.lower (j : FacJob) : Bool := (!j.upper) != j.flip
/-- R118: the scratch address of tile element (i, k). The spec does not say what an address beyond 32 bits is: the model takes
it modulo 2^32 (log entry 75). -/
def FacJob.elem (j : FacJob) (i k : Nat) : Nat := (j.tile.toNat + i * fld j.fgeo 31 8 + 4 * k) % 2 ^ 32
/-- R118: the scratch address of element (i, k) of B. -/
def FacJob.rhs (j : FacJob) (i k : Nat) : Nat := (fld j.frhs 31 0 + i * fld j.fgeo 31 8 + 4 * k) % 2 ^ 32
/-- R118: rows and columns of B. -/
def FacJob.rhsDims (j : FacJob) : Nat × Nat := if j.right then (j.c, j.n) else (j.n, j.c)
/-- R126, R128: the command reads tile element (i, k). -/
def FacJob.reads (j : FacJob) (i k : Nat) : Bool :=
  if j.op = 0x77 then (if j.variant then i ≤ k else k ≤ i)
  else if j.op = 0x79 then (if j.upper then i < k else k < i) || (i == k && !j.opts.getLsbD 0)
  else true
/-- The indices of a grid in row order. -/
def cellsOf (r c : Nat) : List (Nat × Nat) := (List.range r).flatMap fun i => (List.range c).map fun k => (i, k)
/-- R118: the addresses a command loads, in order. -/
def FacJob.loads (j : FacJob) : List Nat :=
  ((cellsOf j.n j.n).filter fun p => j.reads p.1 p.2).map (fun p => j.elem p.1 p.2)
    ++ (if j.op = 0x79 then (cellsOf j.rhsDims.1 j.rhsDims.2).map fun p => j.rhs p.1 p.2 else [])

/-- R129, R138, R158, R193: the status that a load of the 4 bytes at an address gives, and whether it is an uncorrectable
one; none when it can be read. -/
def State.loadFault (s : State) (g lo hi a : Nat) : Option (Nat × Option Nat) :=
  let keys := (List.range 4).map fun i => scratchKey g lo hi (a + i)
  if keys.any Option.isNone then some (1, none)
  else if s.rowBad g a then some (3, some 0x0A)
  else match keys.find? fun k => s.poisoned (k.getD 0) with
    | some k => some (s.badStatus (k.getD 0), some 0x04)
    | none => none
/-- The FP32 code at a scratch address. -/
def State.load32 (s : State) (g lo hi a : Nat) : Nat :=
  leNat ((List.range 4).map fun i => ((scratchKey g lo hi (a + i)).map s.mem.read).getD 0)
/-- R118, R121: the load of a command, flushed when FZI is set. -/
def State.loadTile (s : State) (g : Nat) (j : FacJob) (perm : List Nat) : Fac :=
  let get := fun a =>
    let x := s.load32 g j.lo.toNat j.hi.toNat a
    if j.fmt.getLsbD 17 then flushSub fp32 x else x
  let t := (List.range j.n).map fun i => (List.range j.n).map fun k => if j.reads i k then get (j.elem i k) else 0
  let y := if j.op != 0x79 then []
    else if j.right then (List.range j.n).map fun i => (List.range j.c).map fun k => get (j.rhs k i)
    else (List.range j.n).map fun i => (List.range j.c).map fun k => get (j.rhs i k)
  ⟨if j.op = 0x77 ∧ j.variant then transpose j.n t else t, y, [], perm, 0, false, false⟩

/-- One step of a command. -/
def FacJob.step (j : FacJob) (f : Fac) (s : Nat) : Option Fac :=
  let w := awinBits (fld j.fmt 16 14)
  if j.op = 0x76 then f.stepLu w j.n (!j.variant) s
  else if j.op = 0x77 then f.stepChol w j.n s
  else if j.op = 0x78 then some (f.stepQr w j.n s)
  else f.stepTrsm w j.n j.c j.flip j.lower (j.opts.getLsbD 0) s
/-- R129: the bytes of a write-back after steps from `first` to boundary k. -/
def FacJob.writeBack (j : FacJob) (f : Fac) : List (Nat × Byte) :=
  let t := if j.op = 0x77 ∧ j.variant then transpose j.n f.t else f.t
  let word := fun (a v : Nat) => (leBytes 4 v).zipIdx.map fun p => (a + p.2, p.1)
  if j.op = 0x79 then
    (cellsOf j.rhsDims.1 j.rhsDims.2).flatMap fun p =>
      word (j.rhs p.1 p.2) (if j.right then grid f.y p.2 p.1 else grid f.y p.1 p.2)
  else ((cellsOf j.n j.n).filter fun p => j.reads p.1 p.2).flatMap (fun p => word (j.elem p.1 p.2) (grid t p.1 p.2))
    ++ f.tau.flatMap fun p => word ((fld j.frhs 31 0 + 4 * p.1) % 2 ^ 32) p.2

/-! Registers of the issuing context (R125, R129, R131). -/

/-- R58: the entries of FPERM. -/
def permList (p : BitVec 1024) : List Nat := (List.range 128).map fun i => fld p (8 * i + 7) (8 * i)
/-- R58: FPERM from its entries. -/
def permBits (l : List Nat) : BitVec 1024 := BitVec.ofNat 1024 (packNat 8 l)
/-- R125: the growth record matches a command. -/
def Growth.matches (r : Growth) (j : FacJob) : Bool :=
  r.valid && r.op == j.op && r.variant == j.variant && r.tile == j.tile && r.n == j.n
/-- R125: the largest magnitude of the input, from the tile as loaded. -/
def FacJob.inputMax (j : FacJob) (f : Fac) : Nat :=
  let inside := fun i k => if j.op = 0x77 then decide (k ≤ i) else true
  ((cellsOf j.n j.n).filter fun p => inside p.1 p.2).foldl (fun m p => max m (magOf (grid f.t p.1 p.2))) 0
/-- R125, R131: gin and gseen with which a command starts, or goes on after an interruption. -/
def FacJob.growthStart (j : FacJob) (r : Growth) (f : Fac) : Nat × Nat :=
  match j.grown with
  | some g => g
  | none => if j.first ≠ 0 ∧ r.matches j then (r.gin.toNat, r.gseen.toNat) else (j.inputMax f, j.inputMax f)
/-- R125: FGROW. -/
def growthValue (gin seen : Nat) : BitVec 32 :=
  if seen = 0x7FC00000 then 0x7FC00000
  else if gin = 0 then 0 else BitVec.ofNat 32 (roundSticky fp32 rneRnd (divFV (val32 seen) (val32 gin))).bits
/-- R125, R129, R131: the registers and the growth record at a boundary k. -/
def Ctx.atBoundary (c : Ctx) (j : FacJob) (f : Fac) (gin k : Nat) : Ctx :=
  if j.op = 0x79 then { c with fprog := BitVec.ofNat 8 k } else
  { c with
    fprog := BitVec.ofNat 8 k
    fgrow := growthValue gin f.seen
    fperm := if j.op = 0x76 then permBits f.perm else if j.first = 0 then fpermIdentity else c.fperm
    growth := if j.first = 0 ∨ c.growth.matches j then
      ⟨true, j.op, j.variant, j.tile, j.n, BitVec.ofNat 32 gin, BitVec.ofNat 32 f.seen⟩ else c.growth }
/-- A change of the run of the context that issued a command. -/
def State.modRun (s : State) (i : Issuer) (f : Ctx → Ctx) : State :=
  if (s.ctx i.g).gen = i.gen then s.modCtx i.g f else s

/-- R131: the value of a register that the factor engine writes. -/
def Ctx.factorValue (c : Ctx) (r : Nat) : Option Word :=
  if r = 0x021 then some (c.fprog.zeroExtend 64)
  else if r = 0x022 then some (c.fgrow.zeroExtend 64)
  else if 0x030 ≤ r ∧ r < 0x040 then some (c.fperm.extractLsb' (64 * (r - 0x030)) 64)
  else none
/-- R131: the fields of such a register that an ERD in flight takes at a stop, by choice n: each entry of FPERM by itself. -/
def fieldsTaken (r n : Nat) : Word :=
  if r < 0x030 then (if Config.pick n % 2 = 0 then 0 else BitVec.allOnes 64)
  else BitVec.ofNat 64 ((List.range 8).foldl (fun m k => if (Config.pick n).testBit k then m + 255 * 2 ^ (8 * k) else m) 0)
/-- R59, R131: an ERD in flight takes, field by field, the value it has or the one written at this stop. -/
def State.retakeErds (s : State) (i : Issuer) : State :=
  let c := s.ctx i.g
  if c.gen ≠ i.gen ∨ !(c.arch.pend ++ (c.entry.bind EntryRec.pend).getD []).any fun p => p.sample.isSome then s else
  s.mapPending i.g fun n p => match p.sample, p.sample.bind c.factorValue with
    | some r, some v => { p with val := (merge (p.val.truncate 64) v (fieldsTaken r n)).zeroExtend 2048 }
    | _, _ => p
/-- R122: the completion word of a factor command. -/
def facWord (status : Nat) (lsf : Bool) (fprog : Nat) (pair : Word) : BitVec 32 :=
  BitVec.ofNat 32 (status * 2 ^ 28 + lsf.toNat * 2 ^ 27 + fprog % 256 * 2 ^ 16 + fld pair 47 32)

/-- R122, R130, R213: the word, the flags and the cause of a stop; the bank is left zeroed. A word that would leave the LTS
window of a phased task is not written, and ISOLATION takes the place of the stop's own cause. -/
def State.endFactor (s : State) (c : Cmd) (j : FacJob) (status : Nat) (fl : BitVec 4) (fprog : Nat)
    (cause : Option (Nat × Nat)) (isolated : Option Nat) : State :=
  let s1 := s.clearBank (coreOf c.by_.g) (ownBank c.by_.g)
  let s2 := s1.completionWord c.by_ (j.pair.truncate 32) (facWord status (fl.getLsbD 1) fprog j.pair)
  let s3 := (s2.gatherTo c.by_ fl).finish c.id
  if s.outsideLts c.by_ (fld j.pair 31 0) then s3.reportIsolated c.by_ (some (fld j.pair 31 0))
  else match isolated, cause with
    | some a, _ => s3.reportIsolated c.by_ (some a)
    | none, some (code, addr) => s3.report c.by_ code (BitVec.ofNat 32 fprog) (BitVec.ofNat 64 addr)
    | none, none => s3

/-- R58, R129, R130: a load that fails: nothing is written, and FSTAT is DONE alone. DETAIL and FADDR of its cause are those of
R130 (log entry 68). The spec does not say whether such a command, started with FPROG = 0, replaces the growth record: the
model keeps the older one (log entry 84). Of a reload after an interruption it does not say whether FPROG is that of the issue
or that of the interruption: the model gives the boundary at which the command was interrupted (log entry 73). -/
def State.failFactor (s : State) (c : Cmd) (j : FacJob) (status : Nat) (code : Option Nat) (addr : Nat) : State :=
  let s1 := (s.modRun c.by_ fun x => { x with fprog := BitVec.ofNat 8 j.first, fdone := true, fstat := 0 }).retakeErds c.by_
  s1.endFactor c j status c.flags j.first (code.map fun k => (k, addr)) none

/-- R129: a stop after steps: write-back, registers, and the completion. The spec does not say what a write-back into part
of a poisoned granule does to a status of ZPIV or NPD, or one made at an interruption: the model puts POISON in the place
of OK alone, by the final write-back alone (log entry 74). -/
def State.stopFactor (s : State) (c : Cmd) (j : FacJob) (f : Fac) (gin k : Nat) (stopped : Bool) : State :=
  let w := s.engineWriteBytes c.by_ j.lo.toNat j.hi.toNat (j.writeBack f)
  let fprog := if stopped then k else 0
  let diag := if j.op = 0x79 then (if j.lower then k else j.n - 1 - k) else k
  let code := if j.op = 0x77 then 7 else 6
  let bits : BitVec 2 := if !stopped then 0 else if code = 7 then 2 else 1
  let status := if w.dropped || c.status == 1 then 1 else if stopped then code else if w.poisoned then 2 else 0
  let s1 := (w.state.modRun c.by_ fun x => { x.atBoundary j f gin fprog with fdone := true, fstat := bits }).retakeErds c.by_
  s1.endFactor c j status (c.flags ||| flagsOf false false f.lsf f.ufl) fprog
    (if stopped && status != 1 then some (code, j.elem diag diag) else none) w.isolated

/-- R129, R131: an interruption at boundary k: written back; the command continues from there with what it has dropped so
far, and its growth goes on. -/
def State.pauseFactor (s : State) (c : Cmd) (j : FacJob) (f : Fac) (gin k : Nat) : State :=
  let w := s.engineWriteBytes c.by_ j.lo.toNat j.hi.toNat (j.writeBack f)
  let s1 := (w.state.modRun c.by_ fun x => x.atBoundary j f gin k).retakeErds c.by_
  (s1.clearBank (coreOf c.by_.g) (ownBank c.by_.g)).modCmd c.id fun d => { d with
    op := .factor { j with first := k, perm := permBits f.perm, grown := some (gin, f.seen) }
    status := if w.dropped then 1 else d.status
    work := none
    flags := c.flags ||| flagsOf false false f.lsf f.ufl }

/-- R108, R131: a factor command may run: it heads its bank and nothing holds it. Where a pre-emption request stops the factor
commands of its context, one at a boundary does not load its tile before the resume. -/
def State.canFactor (s : State) (c : Cmd) : Bool :=
  let x := s.ctx c.by_.g
  (s.bankHead (coreOf c.by_.g) (ownBank c.by_.g)).map Cmd.id == some c.id && s.ready c && !s.pathWaits c
    && !(x.gen == c.by_.gen && s.stopsFactors c.by_.g && c.work.isNone)

/-- R118, R125, R129, R133: the load or reload of a factor command. Of several loads that fail, the first in row order
decides, the tile before B (log entry 66). -/
def State.loadFactor (s : State) (c : Cmd) (j : FacJob) : State :=
  let g := c.by_.g
  match j.loads.findSome? fun a => (s.loadFault g j.lo.toNat j.hi.toNat a).map fun st => (st, a) with
  | some (st, a) => s.failFactor c j st.1 st.2 a
  | none =>
    let x := s.ctx g
    let perm := if j.first = 0 then List.range 128 else (permList j.perm).take j.n ++ upto j.n 128
    let f0 := s.loadTile g j perm
    let gr := j.growthStart (if x.gen = c.by_.gen then x.growth else Growth.cleared) f0
    (s.modRun c.by_ fun x => { x with reload := none }).modCmd c.id fun d => { d with
      work := some ({ f0 with seen := gr.2 }, gr.1), prog := j.first }
/-- R129, R131: a loaded factor command at boundary c.prog. A pre-emption request stops it there; else it takes its next step,
to the next boundary or to a stop. -/
def State.runFactor (s : State) (c : Cmd) (j : FacJob) (f : Fac) (gin : Nat) : State :=
  if j.n ≤ c.prog then s.stopFactor c j f gin c.prog false
  else if (s.ctx c.by_.g).gen = c.by_.gen ∧ s.stopsFactors c.by_.g then s.pauseFactor c j f gin c.prog
  else match j.step f c.prog with
    | none => s.stopFactor c j f gin c.prog true
    | some f1 =>
      if c.prog + 1 = j.n then s.stopFactor c j f1 gin j.n false
      else s.modCmd c.id fun d => { d with work := some (f1, gin), prog := c.prog + 1 }
/-- R118 to R131, R133: a factor command first loads its tile, and then goes from boundary to boundary, to a stop or to an
interruption; what other agents store between its load and its write-back is lost where the write-back covers it. Of several
elements that cannot be loaded the spec does not say which decides: the model takes the first in row order, the tile before B
(log entry 66). -/
def execFactorStop (n : Nat) (s : State) : Res :=
  match s.cmds.find? fun c => c.id == n with
  | none => .next s
  | some c =>
    match c.op with
    | .factor j =>
      if !s.canFactor c then .next s else
      match c.work with
      | none => .next (s.loadFactor c j)
      | some (f, gin) => .next (s.runFactor c j f gin)
    | _ => .next s

end Sys2Proof.Machine
end

