-- ==== Sys2Proof/Machine/Save.lean ====
section
/-!
DEFINITION. The save slot of a pre-empted context: its layout, the save and the resume (R228, R252 to R255, R380).
-/

namespace Sys2Proof.Machine

/-- A region of a save slot: its offset and its bytes. -/
abbrev Region := Nat × List Byte

/-! The layout (R253, R255, R380). -/

/-- R253: the repetitions left of the PRINT at a context's fetch position, all of them where none has issued. -/
def State.printLeft (s : State) (g : Nat) : Nat :=
  let a := (s.ctx g).arch
  match decodeParcel (BitVec.ofNat 16 (readNat s.mem (ltsKey (clusterOf g) (s.codeAddr g a.pc.toNat - 0x10000000)) 2)) with
  | some (.print _ k) => k.toNat + 1 - a.printRep
  | _ => 0
/-- R253: one level of loop state. -/
def loopBytes (l : Option Loop) : List Byte :=
  match l with
  | some l => leBytes 4 l.start.toNat ++ leBytes 4 l.stop.toNat ++ leBytes 8 l.count.toNat
  | none => leBytes 16 0
/-- R253: a SETFMT still in its shadow: the value and its delay. -/
def shadowBytes (tick : Nat) (p : Option (Nat × BitVec 32)) : List Byte :=
  match p with
  | some p => leBytes 4 p.2.toNat ++ leBytes 4 (p.1 - tick)
  | none => leBytes 4 0 ++ leBytes 4 0xFFFFFFFF
/-- Fields in order, each with its number of bytes. -/
def packFields (l : List (Nat × Nat)) : List Byte := l.flatMap fun p => leBytes p.1 p.2
/-- R253: the fields of the header up to the loops. -/
def State.slotHead (s : State) (g : Nat) : List Byte :=
  let c := s.ctx g
  let a := c.arch
  packFields [(4, 0x00010000), (4, 0x20), (8, a.tick), (4, a.pc.toNat), (4, s.printLeft g), (4, a.fmt.toNat),
    (4, s.statusWord g), (8, a.rngkey.toNat), (8, a.rngctr.toNat), (4, a.tvec.toNat), (4, a.tstk.toNat), (4, a.stktop.toNat),
    (4, a.stkbase.toNat), (4, a.depth), (4, a.vgtmo.toNat), (4, (a.flags ||| c.gather).toNat), (4, a.spvio.toNat),
    (8, c.aevt.toNat)]
/-- R253: the fields of the header after the loops, but for the format writes under way. -/
def Ctx.slotTail (c : Ctx) : List Byte :=
  let crc := c.arch.crc.getD (0xFFFF, 0xFFFFFFFF)
  let held := c.notice && c.aevt.getLsbD 0
  packFields [(2, crc.1.toNat), (2, 0), (4, crc.2.toNat), (4, min 80 c.arch.pend.length), (4, c.task.toNat),
    (4, c.phase.toNat), (1, c.segno.toNat), (1, c.spawn), (2, 0), (4, held.toNat), (4, if held then fld c.aevt 63 32 else 0),
    (4, c.causes.length), (4, 0)]
/-- R253: the header. The outer loop stands first. -/
def State.slotHeader (s : State) (g : Nat) : List Byte :=
  let a := (s.ctx g).arch
  let loops := a.loops.reverse
  s.slotHead g ++ loopBytes loops[0]? ++ loopBytes loops[1]? ++ (s.ctx g).slotTail
    ++ (List.range 4).flatMap fun i => shadowBytes a.tick a.shadow[i]?

/-- R253: the engine registers, with the core's rings. -/
def State.slotEngine (s : State) (g : Nat) : List Byte :=
  let c := s.ctx g
  let k := s.core (coreOf g)
  [c.arch.mgeo, c.arch.mlim, c.arch.mgcfg, c.arch.wbcfg, c.arch.fgeo, c.fprog.zeroExtend 64, c.fgrow.zeroExtend 64,
    c.arch.frhs].flatMap (fun w => leBytes 8 w.toNat)
    ++ leBytes 128 c.fperm.toNat
    ++ (List.range 8).flatMap (fun i => leBytes 8 (AMap.get 0 k.erng i).toNat)
    ++ (List.range 8).flatMap fun i => leBytes 4 (AMap.get 0 k.head i).toNat ++ leBytes 4 (AMap.get 0 k.tail i).toNat

/-- R146, R253: the prefetched units of a stream that can be saved: those before the first that cannot be popped. -/
def Ctx.savedUnits (c : Ctx) (q : Nat) : List StreamUnit := (AMap.get [] c.units q).takeWhile fun u => u.bad.isNone
/-- R253: a stream's descriptor, position and SQST, with the units that are saved as its LEVEL. -/
def State.slotStream (s : State) (g q : Nat) : List Byte :=
  let c := s.ctx g
  match AMap.find c.arch.streams q with
  | none => leBytes 128 0
  | some st =>
    let w := (s.sqst g q).toNat
    leBytes 64 st.desc.toNat ++ leBytes 8 st.pos
      ++ leBytes 8 (w - w / 256 % 256 * 256 + (c.savedUnits q).length * 256) ++ leBytes 48 0

/-- R380: the factor command record. -/
def Ctx.slotFactor (c : Ctx) (j : Option (FacJob × BitVec 4)) : List Byte :=
  let r := c.growth
  (match j with
    | some (j, fl) => leBytes 4 1 ++ leBytes 1 j.op ++ leBytes 1 j.opts.toNat
        ++ leBytes 1 (fld j.fmt 16 14 + 8 * (j.fmt.getLsbD 17).toNat)
        ++ leBytes 1 ((fl.getLsbD 1).toNat + 2 * (fl.getLsbD 0).toNat) ++ leBytes 4 j.tile.toNat
        ++ leBytes 4 j.fgeo.toNat ++ leBytes 8 j.pair.toNat ++ leBytes 8 j.frhs.toNat ++ leBytes 4 j.first ++ leBytes 4 0
    | none => leBytes 40 0)
    ++ leBytes 4 r.valid.toNat ++ leBytes 1 r.op ++ leBytes 1 r.variant.toNat ++ leBytes 2 r.n ++ leBytes 4 r.tile.toNat
    ++ leBytes 4 r.gin.toNat ++ leBytes 4 r.gseen.toNat ++ leBytes 964 0

/-- R255: the number of a register file. -/
def RegFile.code : RegFile → Nat
  | .scalar => 0 | .vector => 1 | .predicate => 2 | .control => 3 | .flagSet => 4
/-- R255: the register file of a number. -/
def RegFile.ofCode (n : Nat) : RegFile :=
  match n with
  | 0 => .scalar | 1 => .vector | 2 => .predicate | 3 => .control | _ => .flagSet
/-- R255: a pending-write entry. -/
def pendingBytes (tick : Nat) (p : Pending) : List Byte :=
  leBytes 1 p.file.code ++ leBytes 1 p.slot ++ leBytes 2 p.num ++ leBytes 2 (p.tick - tick) ++ leBytes 1 p.poison.isSome.toNat
    ++ leBytes 1 p.rep ++ leBytes 4 p.parcel.toNat ++ leBytes 8 (p.poison.getD 0).toNat ++ leBytes 12 0
    ++ leBytes 32 p.mask.toNat ++ leBytes 256 p.val.toNat

/-- R131, R380: the unfinished factor command of a context's run. -/
def State.unfinished (s : State) (g : Nat) : Option Cmd :=
  s.cmds.find? fun d => d.op.isFactor && d.by_.g == g && d.by_.gen == (s.ctx g).gen

/-- R253: the regions of the slot of a context. -/
def State.slotRegions (s : State) (g : Nat) : List Region :=
  let c := s.ctx g
  let k := s.core (coreOf g)
  let job := match (s.unfinished g).map fun d => (d.op, d.flags) with
    | some (.factor j, fl) => some (j, fl)
    | _ => none
  let lo := c.splo.toNat
  [(0, s.slotHeader g), (0x400, (List.range 32).flatMap fun i => leBytes 8 (c.arch.s i).toNat),
    (0x500, (List.range 8).flatMap fun i => leBytes 32 (c.arch.p i).toNat), (0x600, s.slotEngine g),
    (0x800, (List.range 8).flatMap (s.slotStream g)), (0xC00, c.slotFactor job),
    (0x1000, (List.range 32).flatMap fun i => leBytes 256 (c.arch.v i).toNat),
    (0x3000, (c.arch.pend.take 80).flatMap (pendingBytes c.arch.tick)),
    (0x9400, (List.range 512).flatMap fun i => leBytes 32 (if i = 0 then 0 else (AMap.get 0 k.plates i).toNat)),
    (0xD400, (List.range 8).flatMap fun i => leBytes 3584 (AMap.get 0 k.stencils i).toNat)]
    ++ (List.range 8).map (fun q => (0x14400 + 4096 * q, (c.savedUnits q).flatMap fun u => leBytes 256 u.data.toNat))
    ++ [(slotCauses, (c.causes.take 32).flatMap causeBytes),
      (Config.saveFixedBytes, readKeys s.mem (nearKey (coreOf g) lo) (c.sphi.toNat + 1 - lo))]

/-- R131, R252: a frozen context may be saved: its proofs have sealed, and its factor commands are at a boundary. -/
def State.saveDue (s : State) (g : Nat) : Bool :=
  let c := s.ctx g
  !s.edge.closed .record && c.state == .frozen && c.freeze == some .preempt && c.unsealed.isEmpty && c.gated.isEmpty
    && !s.cmds.any fun d => d.op.isFactor && d.by_.g == g && d.by_.gen == c.gen && d.work.isSome
/-- R146, R148: what the device keeps of the streams of a context that is saved. -/
def Ctx.savedStreams (c : Ctx) : List SavedStream := c.arch.streams.map fun p =>
  ⟨p.1, p.2.desc, p.2.pos, p.2.off, (c.savedUnits p.1).map fun u => (u.len, u.spv)⟩
/-- R228, R252: what the device keeps of a context that is saved, beside its slot. -/
def State.savedRecord (s : State) (g kid : Nat) : Saved :=
  let c := s.ctx g
  { kernel := kid
    gen := c.gen
    order := c.frozenAt
    parent := c.parent
    serial := c.serial
    causeTicks := c.causes.map Cause.issued
    arrival := c.arrival
    fstat := c.fstat
    fdone := c.fdone
    pends := (c.arch.pend.take 80).map fun p => (p.issued, p.spv)
    more := (c.arch.pend.drop 80).map fun p => { p with tick := p.tick - c.arch.tick }
    streams := c.savedStreams
    stale := false
    fenced := c.arch.fenced
    job := (s.unfinished g).map Cmd.id }

/-- R131, R228, R252, R253: a frozen context writes its save slot and becomes IDLE. Its unfinished factor commands wait for its
resume: the slot records the first, and the device keeps others (log entry 29). The bytes of a poisoned granule of its window
are saved as they are, without the mark (log entry 24). -/
def execPreemptSave (g : Nat) (s : State) : Res :=
  if !s.saveDue g then .next s else
  let c := s.ctx g
  match c.kernel, s.myKernel g with
  | some kid, some k =>
    let base := s.slotBase k.part g
    let cells := physCells base (leBytes Config.saveFixedBytes 0)
      ++ (s.slotRegions g).flatMap fun r => physCells (base + r.1) r.2
    let s1 := s.writeCells cells
    let s2 := { s1 with
      cmds := s1.cmds.map fun d : Cmd => if d.op.isFactor ∧ d.by_.g = g ∧ d.by_.gen = c.gen then { d with parked := true } else d
      ce := { s1.ce with saved := AMap.put s1.ce.saved g (s.savedRecord g kid) } }
    .next ((s2.endRun g).modCtx g fun x => { x with state := .idle })
  | _, _ => .next s

/-! Resume (R252, R254). -/

/-- A field of a slot. -/
def State.slotField (s : State) (base off n : Nat) : Nat := readNat s.mem (physKey (base + off)) n
/-- A 64-bit field. -/
def State.slot64 (s : State) (base off : Nat) : Word := BitVec.ofNat 64 (s.slotField base off 8)
/-- A 32-bit field. -/
def State.slot32 (s : State) (base off : Nat) : BitVec 32 := BitVec.ofNat 32 (s.slotField base off 4)

/-- R253: a level of loop state. -/
def State.slotLoop (s : State) (base off : Nat) : Loop :=
  ⟨s.slot32 base off, s.slot32 base (off + 4), s.slot32 base (off + 8)⟩
/-- R255: a pending write of a slot, with what the device has kept of it. -/
def State.slotPending (s : State) (base tick : Nat) (sv : Saved) (i : Nat) : Pending :=
  let o := 0x3000 + 320 * i
  let kept := sv.pends.getD i (min i (tick - 1), none)
  { file := RegFile.ofCode (s.slotField base o 1)
    num := s.slotField base (o + 2) 2
    tick := tick + s.slotField base (o + 4) 2
    slot := s.slotField base (o + 1) 1
    mask := BitVec.ofNat 256 (s.slotField base (o + 32) 32)
    val := BitVec.ofNat 2048 (s.slotField base (o + 64) 256)
    parcel := s.slot32 base (o + 8)
    rep := s.slotField base (o + 7) 1 % 64
    poison := if s.slotField base (o + 6) 1 % 2 = 1 then some (s.slot64 base (o + 12)) else none
    issued := kept.1
    spv := if s.slotField base o 1 = 4 ∧ (s.slotField base (o + 64) 256).testBit 3 then kept.2 <|> some (s.slot32 base 0x4C)
      else none
    sample := none }
/-- R253: a stream of a slot; its payload bytes follow (State.slotStreams). -/
def State.slotBound (s : State) (base q : Nat) : Option Stream :=
  let o := 0x800 + 128 * q
  let w := s.slotField base (o + 72) 8
  if w % 2 = 0 then none
  else some ⟨BitVec.ofNat 512 (s.slotField base o 64), w / 2 % 2 == 1, s.slotField base (o + 64) 8, 0, 0⟩
/-- R148: what the device has kept of a stream of a slot; none where system software has changed the stream. -/
def Saved.streamOf (sv : Saved) (q : Nat) (st : Stream) : Option SavedStream :=
  sv.streams.find? fun x => x.q == q && x.desc == st.desc && x.pos == st.pos
/-- R148: the payload bytes before the position of a stream of a slot: what the device has kept, or else what the index as it
stands in the resumed context says. -/
def State.slotOffset (s : State) (g q : Nat) (st : Stream) (sv : Saved) : Nat :=
  match sv.streamOf q st with
  | some x => x.off
  | none => if streamDec st.desc then s.payloadStart g st.desc st.pos else 0
/-- R137, R146, R148, R253: the prefetched units of a stream of a slot. Their payload bytes and out-of-range addresses are
those that the device has kept, or else those that a fetch in the resumed context meets. -/
def State.slotUnits (s : State) (g base q : Nat) (st : Stream) (sv : Saved) : List StreamUnit :=
  let n := if sv.stale then 0 else min 16 (s.slotField base (0x800 + 128 * q + 72) 8 / 256 % 256)
  let known := ((sv.streamOf q st).map SavedStream.units).getD []
  ((List.range n).foldl (fun (r : List StreamUnit × Nat) i =>
    let k := match known[i]? with
      | some x => x
      | none =>
        let u := s.fetchUnit g q st.desc (st.pos + i) r.2
        (u.len, u.spv)
    (r.1 ++ [⟨BitVec.ofNat 2048 (s.slotField base (0x14400 + 4096 * q + 256 * i) 256), none, k.1, k.2⟩], r.2 + k.1))
    ([], st.off)).1
/-- R253: a held engine cause of a slot, with the issue tick that the device has kept (R247). -/
def State.slotCause' (s : State) (base : Nat) (sv : Saved) (i : Nat) : Cause :=
  let o := slotCauses + 32 * i
  ⟨s.slotField base o 1, s.slot32 base (o + 8), s.slot32 base (o + 4), s.slotField base (o + 1) 1 % 8, false, 0,
    s.slot64 base (o + 16), false, sv.causeTicks.getD i i⟩
/-- R253: the repetition of a PRINT at which a context goes on. -/
def State.slotRep (s : State) (base codeBase g : Nat) : Nat :=
  let left := s.slotField base 0x14 4
  if left = 0 then 0 else
  match decodeParcel (BitVec.ofNat 16
      (readNat s.mem (ltsKey (clusterOf g) (codeBase + 2 * s.slotField base 0x10 4 - 0x10000000)) 2)) with
  | some (.print _ k) => k.toNat + 1 - left
  | _ => 0

/-- R7, R253: an engine register of a slot; what system software puts into its reserved bits is not taken. -/
def State.slotEngineReg (s : State) (base off r : Nat) : Word := engineMask r (s.slot64 base off)
/-- R7, R60: an FMT of a slot, without its reserved bits. -/
def State.slotFmt (s : State) (base off : Nat) : BitVec 32 := s.slot32 base off &&& 0x1FFFFF
/-- R7, R253: the captured part of a resumed context. -/
def State.slotArch (s : State) (base codeBase g : Nat) (sv : Saved) : Arch :=
  let tick := s.slotField base 8 8
  let start := s.slotField base 0x7C 4
  let shadow := (List.range 4).filterMap fun i =>
    if s.slotField base (0xA4 + 8 * i) 4 = 0xFFFFFFFF then none
    else some (tick + s.slotField base (0xA4 + 8 * i) 4, s.slotFmt base (0xA0 + 8 * i))
  { Arch.reset with
    sreg := (List.range 31).map fun i => (i + 1, s.slot64 base (0x400 + 8 * (i + 1)))
    preg := (List.range 7).map fun i => (i + 1, BitVec.ofNat 256 (s.slotField base (0x500 + 32 * (i + 1)) 32))
    vreg := (List.range 32).map fun i => (i, BitVec.ofNat 2048 (s.slotField base (0x1000 + 256 * i) 256))
    pc := s.slot32 base 0x10
    tick := tick
    fmt := s.slotFmt base 0x18
    shadow := shadow
    rngkey := s.slot64 base 0x20
    rngctr := s.slot64 base 0x28
    tvec := s.slot32 base 0x30
    tstk := s.slot32 base 0x34
    stktop := s.slot32 base 0x38
    stkbase := s.slot32 base 0x3C
    depth := s.slotField base 0x40 4
    vgtmo := s.slot32 base 0x44
    flags := BitVec.ofNat 4 (s.slotField base 0x48 4)
    spvio := s.slot32 base 0x4C
    loops := ((List.range (min 2 (s.slotField base 0x1C 4 % 4))).map fun i => s.slotLoop base (0x58 + 16 * i)).reverse
    printRep := s.slotRep base codeBase g
    crc := if start = 0xFFFFFFFF then none else some (BitVec.ofNat 16 (s.slotField base 0x78 2), BitVec.ofNat 32 start)
    mgeo := s.slotEngineReg base 0x600 0x010
    mlim := s.slotEngineReg base 0x608 0x011
    mgcfg := s.slotEngineReg base 0x610 0x013
    wbcfg := s.slotEngineReg base 0x618 0x014
    fgeo := s.slotEngineReg base 0x620 0x020
    frhs := s.slotEngineReg base 0x638 0x024
    streams := (List.range 8).filterMap fun q => (s.slotBound base q).map fun st => (q, st)
    pend := (List.range (min 80 (s.slotField base 0x80 4))).map (s.slotPending base tick sv)
      ++ sv.more.map fun p => { p with tick := tick + p.tick }
    fenced := sv.fenced }

/-- R380: the recorded factor command. -/
def State.slotJob (s : State) (base : Nat) (lo hi : BitVec 32) (perm : BitVec 1024) : Option (FacJob × BitVec 4) :=
  let o := 0xC00
  if s.slotField base o 4 ≠ 1 then none else
  let cfg := s.slotField base (o + 6) 1
  let fl := s.slotField base (o + 7) 1
  some (⟨s.slotField base (o + 4) 1, BitVec.ofNat 4 (s.slotField base (o + 5) 1), s.slot32 base (o + 8),
    BitVec.ofNat 64 (s.slotField base (o + 12) 4), s.slot64 base (o + 24),
    BitVec.ofNat 32 (cfg % 8 * 2 ^ 14 + cfg / 8 % 2 * 2 ^ 17), s.slot64 base (o + 16), lo, hi, s.slotField base (o + 32) 4,
    perm, none⟩, flagsOf false false (fl % 2 == 1) (fl / 2 % 2 == 1))
/-- R125, R380: the recorded growth. -/
def State.slotGrowth (s : State) (base : Nat) : Growth :=
  let o := 0xC00
  ⟨s.slotField base (o + 0x28) 4 == 1, s.slotField base (o + 0x2C) 1, s.slotField base (o + 0x2D) 1 == 1,
    s.slot32 base (o + 0x30), s.slotField base (o + 0x2E) 2, s.slot32 base (o + 0x34), s.slot32 base (o + 0x38)⟩

/-- R254: the core's rings are shared with a sibling at work; else no matrix command or weight stream uses them. -/
def State.ringsFree (s : State) (g : Nat) : Bool :=
  let held := s.stuck
  !(s.cmds.any fun d => !held.contains d.id && match d.op with
    | .wstrm p _ _ => clusterOf d.by_.g == clusterOf g && (u8At p 0).testBit (coreOf g % 4)
    | .factor _ => false
    | _ => d.onBank (coreOf g) 0 || d.onBank (coreOf g) 1)
/-- R254: the sibling shares the rings. -/
def State.ringsShared (s : State) (g : Nat) : Bool :=
  match (s.ctx (sibling g)).state with
  | .running | .sealing | .halted | .frozen => true
  | _ => false

/-- R7, R252 to R255, R380: the context that a slot gives, but for its streams' units. What the slot does not hold has its
value at a pickup. -/
def State.slotCtx (s : State) (g base : Nat) (k : Kernel) (sv : Saved) : Ctx :=
  let old := s.ctx g
  let c0 := old.start g k.desc sv.kernel sv.gen (BitVec.ofNat 10 (s.slotField base 0x84 4)) (s.slot32 base 0x88)
    (BitVec.ofNat 8 (s.slotField base 0x8C 1)) (s.slotField base 0x8D 1) (s.slot32 base 0x10) (s.slot32 base 0x18) []
  let a := s.slotArch base k.codeBase g sv
  let held := s.slotField base 0x90 4
  let aevt := s.slot64 base 0x50 &&& 0xFFFFFFFF00000003
  { c0 with
    arch := a
    parent := sv.parent
    fprog := BitVec.ofNat 8 (s.slotField base 0x628 8)
    fgrow := s.slot32 base 0x630
    fperm := BitVec.ofNat 1024 (s.slotField base 0x640 128)
    growth := s.slotGrowth base
    aevt := if held = 0 ∨ aevt.getLsbD 0 = true then aevt
      else (s.slot32 base 0x94 ++ (aevt.truncate 32 ||| (1 : BitVec 32)) : BitVec 64)
    notice := held != 0
    causes := (List.range (min 32 (s.slotField base slotCauseCount 4))).map (s.slotCause' base sv)
    captured := some ⟨a, sv.serial, s.cycle, .proof⟩
    serial := sv.serial
    fresh := false
    arrival := sv.arrival
    fstat := sv.fstat
    fdone := sv.fdone
    sqblock := (List.range 8).map fun q => (q, BitVec.ofNat 32 (s.slotField base (0x800 + 128 * q + 76) 4)) }

/-- R18, R36, R252, R254: what a resume brings back into the core: plates, stencils, near store, and the rings when the
sibling does not share them. The spec does not say what becomes of plates that a sibling at work with the same kernel has
engraved since the save: the model restores the whole store from the slot (log entry 95). -/
def State.slotCore (s : State) (g base : Nat) (kid lo hi : Nat) : State :=
  let s1 := s.modCore (coreOf g) fun c => { c with
    plates := (List.range 511).map fun i => (i + 1, BitVec.ofNat 256 (s.slotField base (0x9400 + 32 * (i + 1)) 32))
    stencils := (List.range 8).map fun i => (i, BitVec.ofNat 28672 (s.slotField base (0xD400 + 3584 * i) 3584))
    loaded := some kid }
  let s2 := if s.ringsShared g then s1 else s1.modCore (coreOf g) fun c => { c with
    erng := (List.range 8).map fun i => (i, s.slot64 base (0x6C0 + 8 * i))
    head := (List.range 8).map fun i => (i, s.slot32 base (0x700 + 8 * i))
    tail := (List.range 8).map fun i => (i, s.slot32 base (0x704 + 8 * i)) }
  s2.writeCells ((readKeys s.mem (physKey (base + Config.saveFixedBytes)) (hi + 1 - lo)).zipIdx.map fun p =>
    (nearKey (coreOf g) (lo + p.2), p.1))

/-- R146 to R148, R253, R360: the streams of a resumed context, whose window and near store stand: positions and prefetched
units. A vigil that has completed meanwhile leaves no unit. -/
def State.slotStreams (s : State) (g base : Nat) (sv : Saved) : State :=
  let c := s.ctx g
  let streams := c.arch.streams.map fun p => (p.1, { p.2 with off := s.slotOffset g p.1 p.2 sv })
  let late := (sv.arrival.map Arrival.complete).getD false
  let units := if late then [] else streams.map fun p => (p.1, s.slotUnits g base p.1 p.2 sv)
  s.setCtx g { c with
    arch := { c.arch with streams := streams }
    captured := c.captured.map fun p => { p with arch := { p.arch with streams := streams } }
    units := units
    fetched := streams.map fun p => (p.1, p.2.pos + (AMap.get [] units p.1).length)
    fetchOff := streams.map fun p => (p.1, p.2.off + ((AMap.get [] units p.1).map StreamUnit.len).foldl (· + ·) 0) }
/-- R131: the factor commands that wait for the resume of a run. -/
def State.parkedOf (s : State) (g gen : Nat) : List Cmd := s.cmds.filter fun d => d.parked && d.by_.g == g && d.by_.gen == gen
/-- R108: a command that waits for no resume works on a bank. -/
def State.bankBusy (s : State) (core bank : Nat) : Bool := (s.bankHead core bank).isSome
/-- R228, R252: a saved context may resume on its own context. Its factor commands go on when its bank is free. -/
def State.resumeFits (s : State) (g : Nat) (sv : Saved) : Bool :=
  ((s.ctx g).state == .idle || ((s.ctx g).state == .reserved && s.reservedBy g == some sv.kernel))
    && s.imagesFit g sv.kernel && (s.ringsShared g || s.ringsFree g)
    && !s.loan (sibling g) (ownBank g) && !s.olderWork g
    && ((s.parkedOf g sv.gen).isEmpty || !s.bankBusy (coreOf g) (ownBank g))

/-- R253, R380: the issuer of a factor command that stands in a slot and that its save did not record: the resumed context,
at the bundle where it goes on. -/
def State.resumedIssuer (s : State) (g : Nat) (k : Kernel) : Issuer :=
  let c := s.ctx g
  ⟨g, c.gen, c.kernel, k.part, c.task, c.phase, c.segno, c.spawn, k.supv, k.phased, c.arch.pc, c.arch.printRep,
    c.arch.tick, c.splo, c.sphi⟩
/-- R125, R131, R253, R380: a recorded factor command as its slot gives it. Its growth goes on from the record of the slot
where that is the command's, and else from what the device has kept (log entry 29). -/
def Cmd.fromSlot (c : Cmd) (j : FacJob) (fl : BitVec 4) (r : Growth) : Cmd :=
  let own := match c.op with
    | .factor x => x.grown
    | _ => none
  { c with
    op := .factor { j with grown := own.map fun g => if r.matches j then (r.gin.toNat, r.gseen.toNat) else g }
    flags := fl }
/-- R131: the first bundle of a resumed context waits for the reload of its recorded command. -/
def State.awaitReload (s : State) (g id : Nat) : State := s.modCtx g fun x => { x with reload := some id }
/-- R131, R252, R253, R380: the factor commands of a resumed context go on: the one that its slot records, from the slot, or
as a new command where the save recorded none. -/
def State.resumeFactors (s : State) (g : Nat) (k : Kernel) (sv : Saved) (job : Option (FacJob × BitVec 4)) (r : Growth) : State :=
  let s1 : State := { s with cmds := s.cmds.map fun d => if d.parked ∧ d.by_.g = g ∧ d.by_.gen = sv.gen then
    { d with parked := false } else d }
  match job, sv.job with
  | some (j, fl), some id => (s1.modCmd id fun d => d.fromSlot j fl r).awaitReload g id
  | some (j, fl), none =>
    let cmd : Cmd := { Cmd.new s1.nextCmd (s1.resumedIssuer g k) (.factor j) [] with flags := fl }
    ({ s1 with cmds := s1.cmds ++ [cmd], nextCmd := s1.nextCmd + 1 } : State).awaitReload g s1.nextCmd
  | none, some id => s1.finish id
  | none, none => s1
/-- R228, R252 to R255: the resume of a saved context. A poisoned slot granule halts it. -/
def State.resume (s : State) (g : Nat) (sv : Saved) : State :=
  match s.kernel sv.kernel with
  | none => s
  | some k =>
    let base := s.slotBase k.part g
    let c := s.slotCtx g base k sv
    let lo := c.splo.toNat
    let hi := c.sphi.toNat
    let n := Config.saveFixedBytes + (hi + 1 - lo)
    let s0 := { s with ce := { s.ce with saved := AMap.del s.ce.saved g } }
    match (List.range (n / 64)).find? fun i => s.poisoned (physKey (base + 64 * i)) with
    | some i =>
      let s1 := (s.parkedOf g sv.gen).foldl (fun t d => t.finish d.id) s0
      (s1.setCtx g { c with faddr := BitVec.ofNat 64 (base + 64 * i) }).doubleFault g (causeWord 0x04 false 0)
    | none =>
      let s1 := (((s0.slotCore g base sv.kernel lo hi).setCtx g c).slotStreams g base sv)
      s1.resumeFactors g k sv (s.slotJob base c.splo c.sphi c.fperm) c.growth

end Sys2Proof.Machine
end

