-- ==== Sys2Proof/Machine/Translate.lean ====
section
/-!
DEFINITION. Translation of global virtual addresses: the two tables, permissions, TLBs, page requests (R170 to R179,
R187, R261).
-/

namespace Sys2Proof.Machine

/-- R170: where a global byte lies: a device and a physical address. -/
structure Place where
  dev : Nat
  pa : Nat
  deriving DecidableEq, Repr

/-- A leaf of either table: its page, its frame, its permissions, and where a radix entry stands. -/
structure Leaf where
  vbase : Nat
  size : Nat
  dev : Nat
  pbase : Nat
  w : Bool
  u : Bool
  mig : Bool
  glob : Bool
  entry : Option Nat
  deriving DecidableEq, Repr

/-- R174, R175: what a lookup in the tables meets: a leaf, nothing, or a table that cannot be read (with the poisoned
granule, if that is why). -/
inductive Lookup where
  | leaf (l : Leaf)
  | absent
  | broken (granule : Option Nat)
  deriving DecidableEq, Repr

/-- What an access meets: its place, a page request of a kind (R261), or a fault without system software. -/
inductive Walk where
  | found (p : Place)
  | request (kind : Nat)
  | bad
  deriving DecidableEq, Repr

/-- R170: bits 63:57 of a virtual address equal bit 56. -/
def canonical (va : Nat) : Bool := va / 2 ^ 56 == 0 || va / 2 ^ 56 == 255

/-- R175: a read of n bytes of a table. -/
def State.tableRead (s : State) (pa n : Nat) : Except (Option Nat) Nat :=
  if !s.mappedRange pa n then .error none
  else if s.poisonedRange (physKey pa) n then .error (some (pa / 64 * 64))
  else .ok (readNat s.mem (physKey pa) n)

/-! The hashed table (R172 to R174). -/

/-- R172: bucket and tag of a virtual page number. -/
def hashVpn (vpn : BitVec 36) : Nat × Nat :=
  let x := vpn ^^^ (vpn >>> 17)
  let y := x * 0x9E3B7C1A5
  let z := y ^^^ (y >>> 19)
  (fld z 15 0, fld z 35 16)
/-- R173, R174: an entry of a bucket that matches a tag. -/
def hashMatch (e : Word) (ovf : Bool) (tag : Nat) : Bool :=
  e.getLsbD 0 && e.getLsbD 8 == ovf && fld e 63 44 == tag && fld e 12 9 == 0 && fld e 4 3 == 0
    && fld e 7 6 < 2 && (fld e 7 6 == 1) == e.getLsbD 43
/-- R173: the leaf of a hashed entry of a page. -/
def hashLeaf (dev va : Nat) (e : Word) : Leaf :=
  ⟨va / 0x200000 * 0x200000, 0x200000, dev, fld e 43 13 * 0x200000, e.getLsbD 1, e.getLsbD 2, e.getLsbD 5, false, none⟩
/-- R174: the probe of one bucket of the hashed table. -/
def State.hashProbe (s : State) (htbase va : Nat) (ovf : Bool) (tag b : Nat) : Lookup :=
  match s.tableRead (htbase + 64 * b) 64 with
  | .error g => .broken g
  | .ok v =>
    match (List.range 8).find? fun i => hashMatch (BitVec.ofNat 64 (v / 2 ^ (64 * i))) ovf tag with
    | some i => .leaf (hashLeaf s.edge.dev va (BitVec.ofNat 64 (v / 2 ^ (64 * i))))
    | none => .absent
/-- What a second lookup gives where the first finds nothing. -/
def Lookup.orElse (a b : Lookup) : Lookup :=
  match a with
  | .absent => b
  | r => r
/-- R174: the bucket after a bucket. -/
def nextBucket (b : Nat) : Nat := (b + 1) % 65536
/-- R174: the probe of the hashed table: the page's bucket, then the next one; `absent` goes on to the radix table. -/
def State.hashLookup (s : State) (htbase va : Nat) : Lookup :=
  let h := hashVpn (BitVec.ofNat 36 (va / 0x200000))
  (s.hashProbe htbase va false h.2 h.1).orElse (s.hashProbe htbase va true h.2 (nextBucket h.1))

/-! The radix table (R175, R176). -/

/-- R175: bytes that an entry of a level maps. -/
def levelSize (level : Nat) : Nat := 2 ^ (12 + 9 * level)
/-- R176: a leaf entry that is not malformed. -/
def radixLeafOk (dev : Nat) (e : Word) (level : Nat) : Bool :=
  let tier := fld e 54 53
  let d := fld e 63 55
  fld e 4 3 == 0 && fld e 51 12 * 4096 % levelSize level == 0
    && (match tier with
      | 0 => d == dev && !e.getLsbD 51
      | 1 => d == dev && e.getLsbD 51
      | 2 => d != dev && !e.getLsbD 51
      | _ => false)
/-- R176: a non-leaf entry that is not malformed. -/
def radixTableOk (e : Word) : Bool := fld e 4 3 == 0 && fld e 63 52 == 0
/-- R175: the walk from a level's table; u and w are the permissions of the levels above. What an entry of level 4 or 3 with
LEAF = 1 means the spec does not say: the model takes it as not present, like one of level 0 with LEAF = 0 (log entry 38). -/
def State.radixFrom (s : State) (va : Nat) : Nat → Nat → Bool → Bool → Lookup
  | level, table, u, w =>
    let at_ := table + 8 * (va / levelSize level % 512)
    match s.tableRead at_ 8 with
    | .error g => .broken g
    | .ok v =>
      let e : Word := BitVec.ofNat 64 v
      let u := u && e.getLsbD 2
      let w := w && e.getLsbD 1
      if !e.getLsbD 0 then .absent
      else if e.getLsbD 7 then
        if 3 ≤ level || !radixLeafOk s.edge.dev e level then .absent
        else .leaf ⟨va / levelSize level * levelSize level, levelSize level, fld e 63 55, fld e 51 12 * 4096,
          w, u, e.getLsbD 52, e.getLsbD 8, some at_⟩
      else match level with
        | 0 => .absent
        | n + 1 => if radixTableOk e then s.radixFrom va n (fld e 51 12 * 4096) u w else .absent

/-- R174: hashed table first, then the radix table. -/
def State.lookup (s : State) (part va : Nat) : Lookup :=
  match AMap.find s.ce.parts part with
  | none => .absent
  | some p =>
    (s.hashLookup p.htbase.toNat va).orElse (s.radixFrom va 4 p.rtroot.toNat true true)

/-! Permission, place and TLB (R177, R178, R187). -/

/-- R177: the kind of fault of an access refused by a leaf; none where it is granted. -/
def Leaf.refusal (l : Leaf) (supv write : Bool) : Option Nat :=
  if !(l.u || supv) then some 1
  else if write && !l.w then some 1
  else if write && l.mig then some 2
  else none
/-- R187: a byte of the old frame of an entry is served at the new one. -/
def Forward.serve (f : Forward) (p : Place) : Place :=
  if p.dev = f.home ∧ f.old ≤ p.pa ∧ p.pa < f.old + f.size then ⟨f.dev, f.pa + (p.pa - f.old)⟩ else p
/-- R187: a byte of an old frame is served at its new one; where that has moved on, at the one after it. -/
def State.forward (s : State) (p : Place) : Place :=
  (s.edge.forwards.filter fun f => f.home == s.edge.dev).foldl (fun p f => f.serve p) p
/-- R188: a byte lies in the frame of a window of this device. -/
def State.frameOf (s : State) (w : Window) (pa : Nat) : Bool :=
  w.home == s.edge.dev && decide (w.old ≤ pa) && decide (pa < w.old + w.size)
/-- R188: an address lies in a frame whose window is open here. -/
def State.windowed (s : State) (pa : Nat) : Bool := s.edge.windows.any fun w => s.frameOf w pa
/-- R170, R189, R262: a place that exists: an installed frame of this device, or of HBM of a device of the domain, which has
at most 228,880 frames. -/
def State.reachable (s : State) (p : Place) : Bool :=
  if p.dev = s.edge.dev then s.mapped p.pa
  else !s.edge.closed .link && s.edge.domain.contains p.dev && decide (p.pa / 0x200000 < min 228880 (Config.remoteFrames p.dev))
/-- R187, R262: n bytes at the place to which a remote access is forwarded exist: in installed frames of this device, or at a
device of the domain. -/
def State.serves (s : State) (p : Place) (n : Nat) : Bool :=
  if p.dev = s.edge.dev then s.mappedRange p.pa n else s.reachable p
/-- R262, R267: a message goes out over Noleve Link, unless that interface is closed. -/
def State.sendLink (s : State) (x : LinkMsg) : State :=
  if s.edge.closed .link then s else { s with edge := { s.edge with link := s.edge.link ++ [x] } }
/-- R193, R262: an answer to a remote access goes back over the link, with the poison of its granules. -/
def State.respond (s : State) (dst pa : Nat) (bytes : List Byte) (poison : NSet) : State :=
  s.sendLink ⟨dst, pa, .answer bytes poison⟩
/-- R193, R262: bytes for a place, with the numbers from the first of the granules that carry poison: memory of this
device, or a message over the link. -/
def State.putPlace (s : State) (p : Place) (bytes : List Byte) (poison : NSet) : State :=
  if p.dev = s.edge.dev then
    if s.mappedRange p.pa bytes.length then (s.writePhys p.pa bytes).addPoison (poison.map (physKey p.pa / 64 + ·)) else s
  else s.sendLink ⟨p.dev, p.pa, .write bytes poison⟩
/-- R193: the numbers from the first of the granules that n bytes at a place cover in part and find poisoned; at another
device that is a free value, one for each granule. -/
def State.metPoison (s : State) (p : Place) (n : Nat) : NSet :=
  (List.range ((p.pa % 64 + n + 63) / 64)).filter fun i =>
    let a := 64 * (p.pa / 64 + i)
    !(decide (p.pa ≤ a) && decide (a + 64 ≤ p.pa + n)) &&
      if p.dev = s.edge.dev then s.poison.contains (physKey a / 64) else Config.remotePoison s.choice p.dev (a / 64)
/-- R188, R193, R262: a write that a device has sent lands at a place, and is answered with the poisoned granules it met. It has
no effect outside installed frames, nor at a device that is not configured in the domain. -/
def State.landSent (s : State) (p : Place) (w : Parked) : State :=
  let here := p.dev == s.edge.dev
  if !s.serves p w.bytes.length then s else
  let met := s.metPoison p w.bytes.length
  ((if here then s else s.choose.2).putPlace p w.bytes w.poison).respond w.src w.sent [] met
/-- R187, R188: a write that a device has sent reaches a place, where that is now: an open window there parks it. -/
def State.deliver (s : State) (p : Place) (w : Parked) : State :=
  let q := s.forward p
  if q.dev = s.edge.dev ∧ s.windowed q.pa then
    { s with edge := { s.edge with park := s.edge.park ++ [{ w with pa := q.pa }] } }
  else s.landSent q w
/-- R187, R188: the place of a byte of a frame. A write into a frame whose window is open here is a migration fault, whoever
migrates it. -/
def State.placed (s : State) (write : Bool) (p : Place) : Walk :=
  let q := s.forward p
  if write && q.dev == s.edge.dev && s.windowed q.pa then .request 2
  else if s.reachable q then .found q else .bad
/-- R178: an entry serves an access. -/
def TlbEntry.serves (e : TlbEntry) (part : Nat) (supv write : Bool) (va : Nat) : Bool :=
  e.part == part && decide (e.vbase ≤ va) && decide (va < e.vbase + e.size) && (e.user || supv) && (!write || e.writable)
/-- R178: a leaf that granted an access is cached; the oldest entry makes room. An entry that a read made serves no write,
so that D is set. -/
def State.cacheLeaf (s : State) (unit part : Nat) (l : Leaf) (write : Bool) : State :=
  s.modUnit unit fun u =>
    let rest := u.tlb.filter fun e => !(e.part == part && e.vbase == l.vbase && e.size == l.size)
    { u with tlb := rest.drop (rest.length + 1 - Config.tlbEntries)
        ++ [⟨part, l.vbase, l.size, l.dev, l.pbase, write, l.u, l.glob⟩] }
/-- R176: A, and D for a write, in a radix leaf that is used. -/
def State.markUsed (s : State) (l : Leaf) (write : Bool) : State :=
  match l.entry with
  | none => s
  | some pa =>
    s.writeCells [(physKey pa, s.mem.read (physKey pa) ||| if write then (0x60 : Byte) else (0x20 : Byte))]
/-- R174 to R178: an access looks its page up in the tables. -/
def State.walkTables (s : State) (unit part : Nat) (supv write : Bool) (v : Nat) : Walk × State :=
  match s.lookup part v with
  | .broken g => (.bad, match g with
    | some pa => s.journal { kind := 0x82, state := 5, detail0 := BitVec.ofNat 64 pa }
    | none => s)
  | .absent => (.request 0, s)
  | .leaf l =>
    match l.refusal supv write with
    | some k => (.request k, s)
    | none => (s.placed write ⟨l.dev, l.pbase + (v - l.vbase)⟩, (s.markUsed l write).cacheLeaf unit part l write)
/-- R170 to R178: the translation of one byte by a copy unit. Whether a cached entry is still there is a free choice. -/
def State.translate (s : State) (unit part : Nat) (supv write : Bool) (va : Nat) : Walk × State :=
  if !canonical va then (.bad, s) else
  let v := va % 2 ^ 57
  match (s.unit unit).tlb.find? fun e => e.serves part supv write v with
  | some e =>
    if Config.tlbKept s.cycle (v / 4096) then (s.placed write ⟨e.dev, e.pbase + (v - e.vbase)⟩, s)
    else s.walkTables unit part supv write v
  | none => s.walkTables unit part supv write v

/-- R178: TLB entries of a partition that a shootdown of a range, or of all but G entries, drops. -/
def TlbEntry.shot (e : TlbEntry) (part : Nat) (range : Option (Nat × Nat)) : Bool :=
  e.part == part && match range with
    | some (lo, n) => decide (e.vbase < lo + n) && decide (lo < e.vbase + e.size)
    | none => !e.glob
/-- R178: a shootdown in every copy unit. -/
def State.shootdown (s : State) (part : Nat) (range : Option (Nat × Nat)) : State :=
  { s with units := s.units.map fun p => (p.1, { p.2 with tlb := p.2.tlb.filter fun e => !e.shot part range }) }

/-- R180: the page of an address: that of its leaf, and 4 KiB where there is none. -/
def State.pageOf (s : State) (part va : Nat) : Nat × Nat :=
  match s.lookup part (va % 2 ^ 57) with
  | .leaf l => (l.vbase, l.size)
  | _ => (va % 2 ^ 57 / 4096 * 4096, 4096)
/-- R180: the page request that a unit's side-logged bytes of the page of an address wait for. -/
def State.pageHeld (s : State) (unit part va : Nat) : Option Nat :=
  let side := (s.unit unit).side.filter fun e => e.part == part
  if side.isEmpty then none else
  let p := s.pageOf part va
  (side.find? fun e => decide (p.1 ≤ 256 * e.block % 2 ^ 57) && decide (256 * e.block % 2 ^ 57 < p.1 + p.2)).map SideEntry.req

/-! Page requests (R179, R261). -/

/-- R261: requests that wait in the fault queue. -/
def State.faultCount (s : State) : Nat := (s.edge.fqWrite + 4096 - s.edge.fqRead) % 4096
/-- R179, R261: posts a page request, and gives its slot of the queue; none while the queue is full. -/
def State.postRequest (s : State) (va : Word) (part unit kind : Nat) (write : Bool) : Option (Nat × State) :=
  if Config.faultQueueEntries ≤ s.faultCount then none else
  let i := s.edge.fqWrite
  some (i % 2048, { s with edge := { s.edge with
    fq := AMap.put s.edge.fq (i % 2048) ⟨va, part, unit, kind, write, none⟩, fqWrite := (i + 1) % 4096 } })

end Sys2Proof.Machine
end

