-- ==== Sys2Proof/Machine/Move.lean ====
section
/-!
DEFINITION. How a copy unit's command moves bytes: reads and writes of global memory and scratch, faults, holds, the side
log, the write log of phased mode, poison (R138, R158, R165, R179 to R182, R193, R210, R213, R214).
-/

namespace Sys2Proof.Machine

/-- A command's transfer as it proceeds: the state with what its translations and logs did, the cells to be written
(latest first; `aux` those of index entries and scales), destination granules that take poison, its status, the cause and
address that stopped it, the page request that holds it, whether it waits for room, whether what it has done stays when it
is held, how far it has come since its last hold, the bytes it has still to write, the input it has consumed, and the
bytes it has sent to other devices. -/
structure Move where
  state : State
  cells : List (Nat × Byte)
  aux : List (Nat × Byte)
  dirty : List Nat
  status : Nat
  stop : Option (Nat × Word)
  hold : Option Nat
  full : Bool
  kept : Bool
  done : Nat
  left : List OutByte
  taken : List (Option (Byte × Bool))
  sent : List Place

/-- A transfer that begins. -/
def Move.start (s : State) : Move := ⟨s, [], [], [], 0, none, none, false, false, 0, [], [], []⟩
/-- The transfer goes on. -/
def Move.live (m : Move) : Bool := m.stop.isNone && m.hold.isNone && !m.full
/-- R166: the transfer stops with a cause at an address. -/
def Move.halt (m : Move) (code a : Nat) : Move := { m with stop := some (code, BitVec.ofNat 64 a) }
/-- R166: a status that the transfer meets first stays. -/
def Move.mark (m : Move) (st : Nat) : Move := { m with status := if m.status = 0 then st else m.status }
/-- R179: posts a page request, or waits while the fault queue is full. -/
def Move.request (m : Move) (c : Cmd) (va kind : Nat) (write : Bool) : Option Nat × Move :=
  match m.state.postRequest (BitVec.ofNat 64 va) c.by_.part (coreOf c.by_.g) kind write with
  | some (i, s) => (some i, { m with state := s })
  | none => (none, { m with full := true })

/-- What a read of one byte gives: nothing more (stopped or held), no value (R158), or a byte and its poison. -/
inductive Got where
  | stopped
  | skip
  | byte (b : Byte) (poison : Bool)
  deriving DecidableEq, Repr

/-- The phased kernel of a command. -/
def State.phasedOf (s : State) (i : Issuer) : Option Kernel := if i.phased then i.kernel.bind s.kernel else none

/-- R210: where the contents of a frame stood before a move. -/
def FrameMove.back (m : FrameMove) (p : Place) : Place :=
  if p.dev = m.dev ∧ m.pa ≤ p.pa ∧ p.pa < m.pa + m.size then ⟨m.oldDev, m.old + (p.pa - m.pa)⟩ else p
/-- R210: the byte of a phase's snapshot that stands for a place, and whether its granule carried poison: it is that of the
place where the contents stood at the snapshot. Another device's is a free value, one for the whole phase. -/
def Kernel.snapAt (k : Kernel) (home : Nat) (p : Place) : Byte × Bool :=
  let o := k.moves.foldl (fun p m => m.back p) p
  if o.dev = home then (k.snap.read (physKey o.pa), k.snapPoison.contains (physKey o.pa / 64))
  else (Config.remoteSnap k.order k.phase.toNat o.dev o.pa, Config.remoteSnapPoison k.order k.phase.toNat o.dev (o.pa / 64))
/-- R193, R198, R210, R262: the byte at a place, and whether its granule carries poison; a phased task's is the snapshot's, and
another device's is free. -/
def State.placeByte (s : State) (i : Issuer) (p : Place) : Byte × Bool × State :=
  let key := physKey p.pa
  match s.phasedOf i, p.dev == s.edge.dev with
  | some k, _ => let b := k.snapAt s.edge.dev p; (b.1, b.2, s)
  | none, true => (s.mem.read key, s.poisoned key, s)
  | none, false =>
    let ch := s.choose
    (Config.remoteByte s.choice p.dev p.pa, Config.remotePoison s.choice p.dev (p.pa / 64), ch.2)

/-- A byte of this device's memory that the transfer itself may have written: as before it, or as it wrote it (R165). -/
def Move.ownByte (m : Move) (key : Nat) : Byte × Move :=
  let old := m.state.mem.read key
  match m.cells.find? fun p => p.1 == key with
  | none => (old, m)
  | some p =>
    let ch := m.state.choose
    (if ch.1 % 2 = 0 then old else p.2, { m with state := ch.2 })
/-- R165, R210: the byte at a place as the transfer may read it. -/
def Move.readPlace (m : Move) (i : Issuer) (p : Place) : Got × Move :=
  if p.dev = m.state.edge.dev ∧ (m.state.phasedOf i).isNone then
    let b := m.ownByte (physKey p.pa)
    (.byte b.1 (m.state.poisoned (physKey p.pa)), b.2)
  else
    let b := m.state.placeByte i p
    (.byte b.1 b.2.1, { m with state := b.2.2 })

/-- R179, R182: a read of one global byte. -/
def Move.getGlobal (m : Move) (c : Cmd) (va : Nat) : Got × Move :=
  if c.denied = some (BitVec.ofNat 64 va) then (.stopped, m.halt 0x0E va) else
  let t := m.state.translate (coreOf c.by_.g) c.by_.part c.by_.supv false va
  let m := { m with state := t.2 }
  match t.1 with
  | .bad => (.stopped, m.halt 0x0E va)
  | .request k =>
    let r := m.request c va k false
    (.stopped, { r.2 with hold := r.1 })
  | .found p => m.readPlace c.by_ p

/-- R135, R163: the range of a scratch space: 1 own near store, 2 cluster near store, 3 cluster LTS. -/
def inSpace (space a : Nat) : Bool :=
  match space with
  | 1 => decide (a < 0x80000)
  | 2 => decide (0x1000000 ≤ a ∧ a < 0x1200000)
  | 3 => decide (0x10000000 ≤ a ∧ a < 0x14000000)
  | _ => false

/-- R138, R158, R164: a read of one scratch byte of a space. -/
def Move.getScratch (m : Move) (c : Cmd) (space a : Nat) : Got × Move :=
  match (if inSpace space a then scratchKey c.by_.g c.by_.lo.toNat c.by_.hi.toNat a else none) with
  | none => (.stopped, m.halt 0x0E a)
  | some key =>
    if m.state.rowBad c.by_.g a then (.skip, m) else
    let b := m.ownByte key
    (.byte b.1 (m.state.poisoned key), b.2)
/-- A read of one byte of a space (0: global virtual). -/
def Move.get (m : Move) (c : Cmd) (space a : Nat) : Got × Move :=
  if space = 0 then
    let r := m.getGlobal c (a % 2 ^ 64)
    match r.1 with
    | .byte b p => (.byte b p, r.2)
    | x => (x, r.2)
  else m.getScratch c space (a % 2 ^ 32)

/-! Writes. -/

/-- R210, R214: a byte enters the write log of the command's task. -/
def Move.logByte (m : Move) (c : Cmd) (k : Kernel) (va : Nat) (p : Place) (b : Byte) (poison : Bool) : Move :=
  let task := c.by_.task.toNat
  let log := AMap.get [] k.logs task
  let known := log.any fun e => e.1 / 64 == va / 64
  let entries := (log.map fun e => e.1 / 64).eraseDups.length
  if !known && (u32At k.desc 0x7C).toNat ≤ entries then m.halt 0x0D va
  else match c.by_.kernel with
    | none => m
    | some kid => { m with state := m.state.modKernel kid fun x =>
        { x with logs := AMap.put x.logs task (AMap.put log va ⟨p.dev, p.pa, b, poison⟩) } }
/-- R193, R262: a byte goes out over Noleve Link with its poison, in one write with the bytes before it. -/
def sendByte (l : List LinkMsg) (p : Place) (b : Byte) (poison : Bool) : List LinkMsg :=
  let fresh : LinkMsg := ⟨p.dev, p.pa, .write [b] (if poison then [0] else [])⟩
  match l.getLast? with
  | some ⟨d, a, .write bytes bad⟩ =>
    if d = p.dev ∧ a + bytes.length = p.pa then
      l.dropLast ++ [⟨d, a, .write (bytes ++ [b]) (if poison then NSet.add bad (p.pa / 64 - a / 64) else bad)⟩]
    else l ++ [fresh]
  | _ => l ++ [fresh]
/-- R193, R210, R262: a byte that its translation permits reaches its place or its log. -/
def Move.place (m : Move) (c : Cmd) (va : Nat) (p : Place) (b : Byte) (poison : Bool) : Move :=
  match m.state.phasedOf c.by_ with
  | some k => m.logByte c k va p b poison
  | none =>
    if p.dev ≠ m.state.edge.dev then
      { m with
        state := { m.state with edge := { m.state.edge with link := sendByte m.state.edge.link p b poison } }
        sent := p :: m.sent }
    else { m with
      cells := (physKey p.pa, b) :: m.cells
      dirty := if poison then physKey p.pa / 64 :: m.dirty else m.dirty }

/-- R179: a byte enters the side log of the command's unit, waiting for a page request. A full log holds the command. The spec
does not say how bytes share the entries: the model gives an entry an aligned block of 256 bytes, and joins a byte only to the
last entry, where that is of the same command, block and request (log entry 76). -/
def Move.sideByte (m : Move) (c : Cmd) (va req : Nat) (b : Byte) (poison : Bool) : Move :=
  let unit := coreOf c.by_.g
  let side := (m.state.unit unit).side
  let same := match side.getLast? with
    | some e => e.cmd == c.id && e.block == va / 256 && e.req == req
    | none => false
  if same then
    { m with state := m.state.modUnit unit fun u => { u with side := match u.side.getLast? with
        | some e => u.side.dropLast ++ [{ e with bytes := e.bytes ++ [(va, b, poison)] }]
        | none => u.side } }
  else if Config.sideLogEntries ≤ side.length then { m with hold := some req }
  else { m with state := m.state.modUnit unit fun u =>
    { u with side := u.side ++ [⟨c.id, c.by_.part, va / 256, [(va, b, poison)], req⟩] } }
/-- R170, R177, R179, R180, R182: a write of one global byte. -/
def Move.putGlobal (m : Move) (c : Cmd) (va : Nat) (b : Byte) (poison : Bool) : Move :=
  if c.denied = some (BitVec.ofNat 64 va) then m.halt 0x0E va else
  match m.state.pageHeld (coreOf c.by_.g) c.by_.part va with
  | some r => m.sideByte c va r b poison
  | none =>
    let t := m.state.translate (coreOf c.by_.g) c.by_.part c.by_.supv true va
    let m := { m with state := t.2 }
    match t.1 with
    | .bad => m.halt 0x0E va
    | .found p => m.place c va p b poison
    | .request k =>
      match m.request c va k true with
      | (some i, m1) => m1.sideByte c va i b poison
      | (none, m1) => m1
/-- R138, R213: a write of one scratch byte of a space. -/
def Move.putScratch (m : Move) (c : Cmd) (space a : Nat) (b : Byte) (poison : Bool) : Move :=
  match (if inSpace space a then scratchKey c.by_.g c.by_.lo.toNat c.by_.hi.toNat a else none) with
  | none => m.halt 0x0E a
  | some key =>
    if m.state.outsideLts c.by_ a then m.halt 0x0C a
    else { m with cells := (key, b) :: m.cells, dirty := if poison then key / 64 :: m.dirty else m.dirty }
/-- A write of one byte of a space (0: global virtual). -/
def Move.put (m : Move) (c : Cmd) (space a : Nat) (b : Byte) (poison : Bool) : Move :=
  let m := if poison then m.mark 2 else m
  if space = 0 then m.putGlobal c (a % 2 ^ 64) b poison else m.putScratch c space (a % 2 ^ 32) b poison

/-- A write of bytes from an address on, up to a stop. -/
def Move.putList (m : Move) (c : Cmd) (space a : Nat) (bytes : List Byte) (poison : Bool) : Move :=
  bytes.zipIdx.foldl (fun m p => if m.live then m.put c space (a + p.2) p.1 poison else m) m

/-- R193: a granule of another device that a transfer has written in part is poisoned: a free value, one for each such
granule. -/
def Move.sentIntoPoison (m : Move) : Bool :=
  (m.sent.map fun p => (p.dev, p.pa / 64)).eraseDups.any fun g =>
    !((List.range 64).all fun i => m.sent.contains ⟨g.1, g.2 * 64 + i⟩) && Config.remotePoison m.state.choice g.1 g.2
/-- R193: the status of a transfer that has met such a granule. -/
def Move.judgeSent (m : Move) : Move :=
  if m.sent.isEmpty then m else
  let n := if m.sentIntoPoison then m.mark 2 else m
  { n with sent := [], state := m.state.choose.2 }
/-- R153, R193: what a transfer writes in this device reaches memory; a poisoned granule written in part gives POISON, and in
this device a journal entry. -/
def Move.land (m0 : Move) (c : Cmd) (ca : Option (Nat × Nat)) : Move :=
  let m := m0.judgeSent
  let cells := m.cells.reverse
  let hits := m.state.poisonHits (m.aux.reverse ++ cells)
  let owner := some (c.by_.g % 8, c.by_.kernel)
  let s1 := ((m.state.store m.aux.reverse owner none).store cells owner ca).addPoison (hits ++ m.dirty)
  let m1 := { m with state := s1.journalPoison hits, cells := [], aux := [], dirty := [] }
  if hits.isEmpty then m1 else m1.mark 2

/-! Reads of more than a byte. -/

/-- What a read of a unit gives: nothing more, no value, or its bytes and whether one is poisoned. -/
inductive GotBytes where
  | stopped
  | skip
  | bytes (l : List Byte) (poison : Bool)
  deriving DecidableEq, Repr

/-- Reads n bytes of a space from an address. A unit with a byte of an invalid row group has no value (R158). -/
def Move.getList (m : Move) (c : Cmd) (space : Nat) : Nat → Nat → GotBytes × Move
  | _, 0 => (.bytes [] false, m)
  | a, n + 1 =>
    let r := m.get c space a
    match r.1 with
    | .stopped => (.stopped, r.2)
    | .skip =>
      match r.2.getList c space (a + 1) n with
      | (.stopped, m1) => (.stopped, m1)
      | (_, m1) => (.skip, m1)
    | .byte b p =>
      match r.2.getList c space (a + 1) n with
      | (.bytes l q, m1) => (.bytes (b :: l) (p || q), m1)
      | x => x

/-! How a transfer ends. -/

/-- R179: a held transfer leaves nothing behind but its page request: it begins again when that is answered. -/
def State.holdCmd (s : State) (c : Cmd) (m : Move) : State :=
  match m.hold with
  | none => s
  | some i =>
    let t := { s with choice := m.state.choice }
    match AMap.find m.state.edge.fq i with
    | none => s
    | some r =>
      if (AMap.find s.edge.fq i) = some r then t.modCmd c.id fun d => { d with hold := some i }
      else
        match s.postRequest r.va r.part r.unit r.kind r.write with
        | some (i, s1) => { s1 with choice := m.state.choice }.modCmd c.id fun d => { d with hold := some i }
        | none => s
/-- R182: bytes of a command are in the side log. -/
def State.sideLogged (s : State) (c : Cmd) : Bool := (s.unit (coreOf c.by_.g)).side.any fun e => e.cmd == c.id
/-- R166, R182: the result of a transfer is kept with its command until its side-logged bytes have landed. -/
def Move.keep (m : Move) (c : Cmd) : State :=
  m.state.modCmd c.id fun d => { d with
    prog := 1
    status := if (m.stop <|> d.fail).isSome then 1 else m.status
    fail := m.stop <|> d.fail }

/-- R179: what a held transfer has done stays, and it goes on from there. -/
def Move.pause (m : Move) (c : Cmd) : State :=
  m.state.modCmd c.id fun d => { d with
    hold := m.hold, pos := c.pos + m.done, left := m.left, taken := m.taken, status := m.status, fail := m.stop <|> d.fail }

/-- R162: a command of a copy unit may be performed: nothing holds it. -/
def State.mayRun (s : State) (c : Cmd) : Bool := s.ready c && c.hold.isNone && (c.prog == 0 || !s.sideLogged c)

end Sys2Proof.Machine
end

