-- ==== Sys2Proof/Machine/Card.lean ====
section
/-!
DEFINITION. The stages of a job card (R158, R168, R169).
-/

namespace Sys2Proof.Machine

/-! Streams of bytes between stages: a byte with its poison, or nothing where an invalid row group left none (R158). -/

/-- A byte of a stage's stream; the input consumed is kept in this form. -/
abbrev StageByte := Option (Byte × Bool)

/-- The bytes of a unit from which byte j of its result is derived, where element e of `bo` bits of the result comes from
element `from_ e` of `bi` bits of the unit. -/
def derivedFrom (bi bo : Nat) (from_ : Nat → Nat) (j : Nat) : List Nat :=
  (List.range ((8 * j + 7) / bo + 1 - 8 * j / bo)).flatMap fun i =>
    let e := from_ (8 * j / bo + i)
    (List.range ((bi * e + bi - 1) / 8 + 1 - bi * e / 8)).map (bi * e / 8 + ·)
/-- R158, R168: a stage over units of n bytes: byte j of a unit's result is derived from its bytes `src j`, and there is none
where one of them is missing. What stands in the place of a missing byte enters no other byte of the result. -/
def stageUnits (n : Nat) (src : Nat → List Nat) (f : List Nat → List Nat) (l : List StageByte) : List StageByte :=
  (List.range (l.length / n)).flatMap fun i =>
    let u := (l.drop (n * i)).take n
    let bad := u.any fun x => (x.map Prod.snd).getD false
    (f (u.map fun x => (x.map fun b => b.1.toNat).getD 0)).zipIdx.map fun b =>
      if (src b.2).any fun k => (u.getD k none).isNone then none else some (BitVec.ofNat 8 b.1, bad)
/-- R158: of a first stage whose units have n bytes, one with a missing byte has none. -/
def wholeUnits (n : Nat) (l : List StageByte) : List StageByte :=
  (List.range ((l.length + n - 1) / n)).flatMap fun i =>
    let u := (l.drop (n * i)).take n
    if u.any Option.isNone then u.map fun _ => none else u
/-- Fields of b bits of bytes. -/
def fieldsOf (b : Nat) (l : List Nat) : List Nat :=
  let v := packNat 8 l
  (List.range (8 * l.length / b)).map fun i => v / 2 ^ (b * i) % 2 ^ b
/-- Bytes of fields of b bits. -/
def bytesOf (b : Nat) (l : List Nat) : List Nat :=
  let v := packNat b l
  (List.range (b * l.length / 8)).map fun i => v / 256 ^ i % 256

/-! Parameters (R168, R169). -/

/-- R168: a type between stages. -/
inductive StageType where
  | elem (f : XFmt)
  | kind (k : XKind)
  deriving DecidableEq, Repr

/-- R168: a rounding mode 0 to 4 of a parameter word. -/
def cardMode (n : Nat) : Option RMode := [RMode.rne, .rtz, .rdn, .rup, .rna][n]?
/-- R168: the FP8 format of an F8 bit. -/
def cardFp8 (b : Bool) : XFmt := if b then .e5m2 else .e4m3
/-- R168: a sub-byte kind of a parameter word. -/
def cardKind (p : Nat) : Option XKind := XKind.ofCode (BitVec.ofNat 4 p)

/-- R168, R169: what a stage with its parameter takes and gives: input type, output type, unit in bytes, and the ratio of
its lengths; none where a parameter is out of range. -/
def stageShape (id p : Nat) : Option (Option StageType × Option StageType × Nat × Nat × Nat) :=
  match id with
  | 1 | 2 => some (none, none, 256, 1, 1)
  | 3 => (cardKind p).bind fun k =>
    if 16 ≤ p then none
    else some (some (.kind k), some (.elem .e4m3), (if kindBits k = 6 then 192 else 256), 8, kindBits k)
  | 4 => (cardKind (p % 16)).bind fun k =>
    if 256 ≤ p ∨ (cardMode (p / 32 % 8)).isNone then none
    else some (some (.elem (cardFp8 (p.testBit 4))), some (.kind k), 256, kindBits k, 8)
  | 5 => (XFmt.ofCode (BitVec.ofNat 4 p)).bind fun d => (XFmt.ofCode (BitVec.ofNat 4 (p / 16))).bind fun f =>
    if 4096 ≤ p ∨ (cardMode (p / 256 % 8)).isNone then none
    else some (some (.elem f), some (.elem d), 256, d.bits, f.bits)
  | 6 => if 3 ≤ p then none else some (none, none, 256, 1, 1)
  | 7 => if p / 2 % 8 ≠ 0 then none else some (some (.elem (cardFp8 (p.testBit 0))), some (.elem .f32), 32, 4, 1)
  | 8 => if (cardMode (p / 2 % 8)).isNone then none
    else some (some (.elem .f32), some (.elem (cardFp8 (p.testBit 0))), 128, 1, 4)
  | _ => none

/-- R169: the stages from one on are legal, for an input type and length; the answer is the length of their output. -/
def stagesOk : List (Nat × Nat) → Option StageType → Nat → Option Nat
  | [], _, n => some n
  | (id, p) :: t, ty, n =>
    match stageShape id p with
    | none => none
    | some (i, o, unit, num, den) =>
      if n % unit ≠ 0 ∨ (i.isSome ∧ ty.isSome ∧ i ≠ ty) ∨ (id = 2 ∧ t ≠ []) then none
      else stagesOk t (o <|> ty) (n * num / den)
/-- R168: the stages of a card. -/
def cardStages (card : BitVec 256) : List (Nat × Nat) :=
  (((List.range 6).map (u8At card)).takeWhile (· != 0)).zipIdx.map fun q => (q.1, (u32At card (8 + 4 * q.2)).toNat)
/-- R169: a card is legal for an input of n bytes; the answer is the length of its output (with ENCODE, its input's). -/
def cardLength (card : BitVec 256) (n : Nat) : Option Nat :=
  let st := cardStages card
  let ids := st.map Prod.fst
  if card.extractLsb' 48 16 ≠ 0 || (List.range 6).any (fun j => decide (st.length ≤ j) &&
      (u8At card j != 0 || u32At card (8 + 4 * j) != 0)) || ids.eraseDups.length != ids.length
      || ids.tail.contains 1 then none
  else stagesOk st none n

/-! The stages (R168; R90 to R93). -/

/-- R92: EXPAND of a unit. -/
def expandUnit (k : XKind) (l : List Nat) : List Nat :=
  (fieldsOf (kindBits k) l).map fun x => (roundF e4m3 rneRnd (kindValue k x)).bits
/-- R92: PACK of a unit. -/
def packUnit (k : XKind) (m : RMode) (f8 : Bool) (l : List Nat) : List Nat :=
  bytesOf (kindBits k) (l.map fun x => (kindPack k (plainRnd m true) (decodeF (if f8 then e5m2 else e4m3) x)).1)
/-- R90, R91: CONVERT of a unit. -/
def convertUnit (d f : XFmt) (m : RMode) (sat : Bool) (l : List Nat) : List Nat :=
  bytesOf d.bits ((fieldsOf f.bits l).map fun x => (xcvtElem d f (plainRnd m sat) x).1)
/-- R379: TRANSPOSE of a unit. -/
def transposeUnit (sh : XShape) (l : List Nat) : List Nat :=
  let b := trnBits sh
  let x := fieldsOf b l
  bytesOf b ((List.range (2048 / b)).map fun j => x.getD (trnSource sh j) 0)
/-- R93: SCALE of a unit. -/
def scaleUnit (f8 : Bool) (e : Nat) (l : List Nat) : List Nat :=
  bytesOf 32 (l.map fun x => if e = 255 then fp32.nan else
    (roundF fp32 rneRnd (scaleFV (decodeF (if f8 then e5m2 else e4m3) x) ((e : Int) - 127))).bits)
/-- R93: QUANT of a unit: its scale and its codes. -/
def quantUnit (f8 : Bool) (m : RMode) (l : List Nat) : Nat × List Nat :=
  let f := if f8 then e5m2 else e4m3
  let vs := (fieldsOf 32 l).map (decodeF fp32)
  match blockScale (if f8 then 15 else 8) vs with
  | none => (255, vs.map fun _ => f.nan)
  | some e => (e, vs.map fun v => (roundF f (plainRnd m true) (scaleFV v (127 - (e : Int)))).bits)

/-- R168: the scratch space of an address of a parameter word. -/
def spaceOf (a : Nat) : Nat := if a < 0x1000000 then 1 else if a < 0x10000000 then 2 else 3
/-- R158: a read of one scratch byte of an index or a scale: nothing in an invalid row group, with LTSINV (log entry 35). -/
def Move.getParam (m : Move) (c : Cmd) (a : Nat) : Got × Move :=
  let r := m.getScratch c (spaceOf a) a
  match r.1 with
  | .skip => (.skip, r.2.mark 3)
  | x => (x, r.2)
/-- A write of scratch bytes of an index or a scale. -/
def Move.putParam (m : Move) (c : Cmd) (a : Nat) (bytes : List Byte) (poison : Bool) : Move :=
  let n := m.putList c (spaceOf a) a bytes poison
  { n with cells := m.cells, aux := n.cells.take (n.cells.length - m.cells.length) ++ m.aux }

/-- R93, R158, R168: SCALE, unit by unit: the scale of each unit that has a byte is read in order. -/
def Move.scaleStage (c : Cmd) (f8 : Bool) (base : Nat) : Move → Nat → List (List StageByte) → Move × List StageByte
  | m, _, [] => (m, [])
  | m, i, u :: t =>
    if u.all Option.isNone then
      let r := Move.scaleStage c f8 base m (i + 1) t
      (r.1, List.replicate 128 none ++ r.2)
    else match m.getParam c ((base + i) % 2 ^ 32) with
      | (.stopped, m1) => (m1, [])
      | (.skip, m1) =>
        let r := Move.scaleStage c f8 base m1 (i + 1) t
        (r.1, List.replicate 128 none ++ r.2)
      | (.byte e p, m1) =>
        let r := Move.scaleStage c f8 base m1 (i + 1) t
        (r.1, (stageUnits 32 (fun j => [j / 4]) (scaleUnit f8 e.toNat) u).map (fun x => x.map fun b => (b.1, b.2 || p)) ++ r.2)
/-- R93, R158, R168: QUANT, unit by unit: the scale of each whole unit, from which all of its result is derived, is written in
order. -/
def Move.quantStage (c : Cmd) (f8 : Bool) (mode : RMode) (base : Nat) : Move → Nat → List (List StageByte) → Move × List StageByte
  | m, _, [] => (m, [])
  | m, i, u :: t =>
    if u.any Option.isNone then
      let r := Move.quantStage c f8 mode base m (i + 1) t
      (r.1, List.replicate 32 none ++ r.2)
    else
      let bytes := u.filterMap fun x => x.map fun b => b.1.toNat
      let m1 := m.putParam c ((base + i) % 2 ^ 32) [BitVec.ofNat 8 (quantUnit f8 mode bytes).1]
        (u.any fun x => (x.map Prod.snd).getD false)
      if !m1.live then (m1, []) else
        let r := Move.quantStage c f8 mode base m1 (i + 1) t
        (r.1, stageUnits 128 (fun _ => []) (fun l => (quantUnit f8 mode l).2) u ++ r.2)
/-- Units of n bytes. -/
def unitsOf (n : Nat) (l : List StageByte) : List (List StageByte) :=
  (List.range (l.length / n)).map fun i => (l.drop (n * i)).take n

/-- R168: one stage of a card other than DECODE and ENCODE. -/
def Move.stage (c : Cmd) (q : Nat × Nat) (m : Move) (l : List StageByte) : Move × List StageByte :=
  let p := q.2
  match q.1 with
  | 3 => match cardKind p with
    | some k => (m, stageUnits (if kindBits k = 6 then 192 else 256) (derivedFrom (kindBits k) 8 id) (expandUnit k) l)
    | none => (m, l)
  | 4 => match cardKind (p % 16), cardMode (p / 32 % 8) with
    | some k, some md => (m, stageUnits 256 (derivedFrom 8 (kindBits k) id) (packUnit k md (p.testBit 4)) l)
    | _, _ => (m, l)
  | 5 => match XFmt.ofCode (BitVec.ofNat 4 p), XFmt.ofCode (BitVec.ofNat 4 (p / 16)), cardMode (p / 256 % 8) with
    | some d, some f, some md => (m, stageUnits 256 (derivedFrom f.bits d.bits id) (convertUnit d f md (p.testBit 11)) l)
    | _, _, _ => (m, l)
  | 6 =>
    let sh : XShape := if p = 0 then .s32 else if p = 1 then .s16 else .s8
    (m, stageUnits 256 (derivedFrom (trnBits sh) (trnBits sh) (trnSource sh)) (transposeUnit sh) l)
  | 7 => Move.scaleStage c (p.testBit 0) (p / 16 * 16) m 0 (unitsOf 32 l)
  | 8 => match cardMode (p / 2 % 8) with
    | some md => Move.quantStage c (p.testBit 0) md (p / 16 * 16) m 0 (unitsOf 128 l)
    | none => (m, l)
  | _ => (m, l)

end Sys2Proof.Machine
end

