-- ==== Sys2Proof/Machine/Copy.lean ====
section
/-!
DEFINITION. The completion of copies, of direct global accesses and of collectives (R103, R162 to R169, R179 to R182,
R201, R233, R234, R264, R314, R315).
-/

namespace Sys2Proof.Machine

/-! Copies. -/

/-- A byte move: source address, destination address, and the byte of the row. -/
abbrev ByteMove := Nat × Nat × Nat

/-- R165: source and destination of a packet's first byte. -/
def cpyEnds (p : BitVec 512) (off : Word) : Nat × Nat :=
  ((u64At p 8 + if u8At p 2 = 0 ∧ u16At p 0 = 0 then off else 0).toNat, (u64At p 0x10 + if u8At p 3 = 0 then off else 0).toNat)
/-- R165: the rows of a packet, each with its byte moves. -/
def cpyRows (p : BitVec 512) (off : Word) : List (List ByteMove) :=
  let e := cpyEnds p off
  (List.range (u16At p 0x1E)).flatMap fun pl => (List.range (u16At p 0x1C)).map fun q =>
    (List.range (u32At p 0x18).toNat).map fun k =>
      (e.1 + pl * (u32At p 0x24).toNat + q * (u32At p 0x20).toNat + k,
        e.2 + pl * (u32At p 0x2C).toNat + q * (u32At p 0x28).toNat + k, k)
/-- R165: the byte moves of a packet. -/
def cpyMoves (p : BitVec 512) (off : Word) : List ByteMove := (cpyRows p off).flatten
/-- R204: byte moves in runs of one aligned 4-byte granule of the destination. -/
def granuleRuns : List ByteMove → List (List ByteMove)
  | [] => []
  | x :: t => match granuleRuns t with
    | (y :: r) :: g => if x.2.1 / 4 = y.2.1 / 4 then (x :: y :: r) :: g else [x] :: (y :: r) :: g
    | g => [x] :: g
/-- R204: the byte moves that a copy makes together, so that no aligned 4-byte granule of its source or destination is
torn: those of one granule, or of a whole row where source and destination do not lie alike in their granules. -/
def cpyGroups (p : BitVec 512) (off : Word) : List (List ByteMove) :=
  (cpyRows p off).flatMap fun row => match row with
    | [] => []
    | x :: _ => if u16At p 0 = 1 ∨ x.1 % 4 = x.2.1 % 4 then granuleRuns row else [row]
/-- R165: the source byte of a move: the pattern of a fill, or memory. -/
def Move.source (m : Move) (c : Cmd) (p : BitVec 512) (a k : Nat) : Got × Move :=
  if u16At p 0 = 1 then (.byte (BitVec.ofNat 8 (u8At p (8 + k % 8))) false, m) else m.get c (u8At p 2) a
/-- R158, R165: one byte move. -/
def Move.moveOne (c : Cmd) (p : BitVec 512) (m : Move) (x : ByteMove) : Move :=
  if !m.live then m else
  let r := m.source c p x.1 x.2.2
  match r.1 with
  | .stopped => r.2
  | .skip => { r.2.mark 3 with done := m.done + 1 }
  | .byte b poison =>
    let n := r.2.put c (u8At p 3) x.2.1 b poison
    if n.live then { n with done := m.done + 1 } else n
/-- A numbered group of moves enters a list in the order of its ranks. -/
def insertMove (n : Nat) (x : List ByteMove × Nat) : List (List ByteMove × Nat) → List (List ByteMove × Nat)
  | [] => [x]
  | y :: t => if Config.copyRank n x.2 ≤ Config.copyRank n y.2 then x :: y :: t else y :: insertMove n x t
/-- R165: the groups of moves of command n in the order in which it makes them. -/
def orderMoves (n : Nat) (l : List (List ByteMove)) : List (List ByteMove) :=
  (l.zipIdx.foldr (insertMove n) []).map Prod.fst

/-- R158, R165: the source bytes of moves, up to a stop. With `first` the first byte of an invalid row group ends them. -/
def Move.readInput (c : Cmd) (p : BitVec 512) (first : Bool) : Move → List ByteMove → Move × List StageByte
  | m, [] => (m, [])
  | m, x :: t =>
    let r := m.source c p x.1 x.2.2
    match r.1 with
    | .stopped => (r.2, [])
    | .skip =>
      if first then (r.2.mark 3, [none]) else
      let q := Move.readInput c p first (r.2.mark 3) t
      (q.1, none :: q.2)
    | .byte b poison =>
      let q := Move.readInput c p first (if poison then r.2.mark 2 else r.2) t
      (q.1, some (b, poison) :: q.2)
/-- R204: a transfer at an earlier point, with the page requests posted and the choices made since. -/
def Move.undo (m n : Move) : Move :=
  { m with
    state := { m.state with
      choice := n.state.choice
      edge := { m.state.edge with fq := n.state.edge.fq, fqWrite := n.state.edge.fqWrite } }
    hold := n.hold
    full := n.full }
/-- R179, R204: a group of moves. A source read that is held leaves nothing of the group moved; where a write is held, the
rest of the group has been read and is still to be written. -/
def Move.moveGroup (c : Cmd) (p : BitVec 512) (m : Move) (g : List ByteMove) : Move :=
  if !m.live then m else
  let n := g.foldl (Move.moveOne c p) { m with done := 0 }
  if n.live || n.stop.isSome then { n with done := m.done + 1 } else
  let rest := g.drop n.done
  let r := Move.readInput c p false { n with hold := none, full := false } rest
  if r.1.live then
    { r.1 with
      hold := n.hold
      full := n.full
      done := m.done + 1
      left := (rest.zip r.2).filterMap fun x => x.2.map fun b => ⟨false, x.1.2.1, x.1.2.1, b.1, b.2⟩ }
  else { m.undo n with kept := true }
/-- R165, R179: a copy without a job card, from the group at which it was held; the order of the groups is a free
choice. -/
def Move.plainCopy (m : Move) (c : Cmd) (p : BitVec 512) (off : Word) : Move :=
  ((orderMoves c.id (cpyGroups p off)).drop c.pos).foldl (Move.moveGroup c p) { m with kept := true }

/-- R168: payload bytes of DECODE: of the pattern of a fill, or n bytes from an address. -/
def Move.payload (m : Move) (c : Cmd) (p : BitVec 512) (src off n : Nat) : GotBytes × Move :=
  if u16At p 0 = 1 then (.bytes ((List.range n).map fun i => BitVec.ofNat 8 (u8At p (8 + (off + i) % 8))) false, m)
  else m.getList c (u8At p 2) (src + off) n
/-- What the input of a first stage that is DECODE comes to: the transfer, the decoded bytes, and the payload offset after
them. -/
abbrev Decoded := Move × List StageByte × Nat
/-- R150, R158, R168: the output of DECODE: n blocks from a payload offset. A corrupt entry stops the copy; one in an
invalid row group leaves this block and those after it without output (log entry 35). With `first` a block without output
ends it. -/
def Move.decodeInput (c : Cmd) (p : BitVec 512) (src index : Nat) (first : Bool) : Move → Nat → Nat → Nat → Decoded
  | m, _, off, 0 => (m, [], off)
  | m, k, off, n + 1 =>
    let ia := (index + 2 * k) % 2 ^ 32
    match m.getParam c ia with
    | (.stopped, m1) => (m1, [], off)
    | (.skip, m1) => (m1, List.replicate (256 * (n + 1)) none, off)
    | (.byte b0 p0, m1) =>
      match m1.getParam c ((ia + 1) % 2 ^ 32) with
      | (.stopped, m2) => (m2, [], off)
      | (.skip, m2) => (m2, List.replicate (256 * (n + 1)) none, off)
      | (.byte b1 p1, m2) =>
        let e := b0.toNat + 256 * b1.toNat
        if (lbpCorrupt e).isSome then (m2.halt 0x0E ia, [], off) else
        match m2.payload c p src off (lbpLen e) with
        | (.stopped, m3) => (m3, [], off)
        | (.skip, m3) =>
          if first then (m3.mark 3, [none], off) else
          let r := Move.decodeInput c p src index first (m3.mark 3) (k + 1) (off + lbpLen e) n
          (r.1, List.replicate 256 none ++ r.2.1, r.2.2)
        | (.bytes l q, m3) =>
          let bad := q || p0 || p1
          let r := Move.decodeInput c p src index first (if bad then m3.mark 2 else m3) (k + 1) (off + lbpLen e) n
          (r.1, ((lbpBlock e (l.map BitVec.toNat)).map fun b => some (BitVec.ofNat 8 b, bad)) ++ r.2.1, r.2.2)
/-- R151, R158, R168: the output of ENCODE, block by block, each a chunk: the index entry, then the payload. The first
block with nothing in it ends the copy. -/
def encodeOutput (dst index : Nat) : Nat → Nat → List (List StageByte) → List OutByte
  | _, _, [] => []
  | k, off, u :: t =>
    if u.any Option.isNone then [] else
    let bad := u.any fun x => (x.map Prod.snd).getD false
    let r := lbpEncode (u.filterMap fun x => x.map fun b => b.1.toNat)
    ((leBytes 2 r.1).zipIdx.map fun x => ⟨true, k, (index + 2 * k) % 2 ^ 32 + x.2, x.1, false⟩)
      ++ (r.2.zipIdx.map fun x => ⟨false, k, dst + off + x.2, BitVec.ofNat 8 x.1, bad⟩)
      ++ encodeOutput dst index (k + 1) (off + r.2.length) t
/-- R168, R181: a stage's stream of n bytes as the rows of a packet's destination, in so many chunks. -/
def rowOutput (p : BitVec 512) (dst row n chunks : Nat) (l : List StageByte) : List OutByte :=
  let rows := u16At p 0x1C
  l.zipIdx.filterMap fun x => x.1.map fun b =>
    let r := x.2 / row
    ⟨false, x.2 * chunks / n, dst + r / rows * (u32At p 0x2C).toNat + r % rows * (u32At p 0x28).toNat + x.2 % row, b.1, b.2⟩

/-- R175, R180, R181: the page request that the pages of a chunk wait for, one byte of each page given: the first that one of
them has, or that is posted for it. A page whose tables cannot be read is left to the write that stops there. -/
def Move.chunkHold (c : Cmd) : Move → List Nat → Option Nat × Move
  | m, [] => (none, m)
  | m, va :: t =>
    match m.state.pageHeld (coreOf c.by_.g) c.by_.part va with
    | some r => (some r, m)
    | none =>
      let w := m.state.translate (coreOf c.by_.g) c.by_.part c.by_.supv true va
      match w.1 with
      | .request k => { m with state := w.2 }.request c va k true
      | .found _ => Move.chunkHold c { m with state := w.2 } t
      | .bad => Move.chunkHold c m t
/-- One address of each page of 4 KiB among the destination bytes of the chunk that a list of output begins with. -/
def chunkPages (l : List OutByte) : List Nat :=
  match l with
  | [] => []
  | o :: _ => ((l.takeWhile fun x => x.chunk == o.chunk && !x.param).foldl (fun r x =>
      let a := x.addr % 2 ^ 64
      if r.any fun b => b / 4096 == a / 4096 then r else r ++ [a]) [])
/-- R179, R181: output written to a space in order, up to a stop: a chunk of which one page faults goes into the side log
whole. `now` is the chunk being written and what it waits for. What a held command has not written stays with it. -/
def Move.putOut (c : Cmd) (space : Nat) (now : Option (Nat × Option Nat)) : Move → List OutByte → Move
  | m, [] => m
  | m, o :: t =>
    if !m.live then m else
    let fresh := space == 0 && !o.param && c.denied.isNone && now.map Prod.fst != some o.chunk
    let h := if fresh then Move.chunkHold c m (chunkPages (o :: t)) else ((now.bind Prod.snd), m)
    let m := h.2
    let n := if !m.live then m else
      if o.param then m.putParam c o.addr [o.byte] o.poison
      else match h.1 with
        | some r => (if o.poison then m.mark 2 else m).sideByte c (o.addr % 2 ^ 64) r o.byte o.poison
        | none => m.put c space o.addr o.byte o.poison
    if n.live then Move.putOut c space (if o.param then none else some (o.chunk, h.1)) n t
    else { n with kept := true, left := o :: t }

/-- R158: of a copy of n bytes whose last stage is ENCODE only the units before the first invalid one go on. -/
def cutUnits (unit n : Nat) (l : List StageByte) : List StageByte :=
  let k := (l.takeWhile Option.isSome).length / unit * unit
  l.take k ++ List.replicate (n - k) none
/-- R158, R168, R179: the input of a card's first stage, from where a held read left it: nothing that has been consumed is
read again. -/
def Move.cardInput (m : Move) (c : Cmd) (p : BitVec 512) (off : Word) (st : List (Nat × Nat)) (n : Nat) : Move × List StageByte :=
  let first := (st.getLast?.map Prod.fst) == some 2
  let r : Decoded := match st.head? with
    | some (1, ip) =>
      Move.decodeInput c p (cpyEnds p off).1 ip first m (c.taken.length / 256) c.pos (n / 256 - c.taken.length / 256)
    | _ =>
      let q := Move.readInput c p first m ((cpyMoves p off).drop c.taken.length)
      (q.1, q.2, 0)
  let l := c.taken ++ r.2.1
  ({ r.1 with taken := l, done := r.2.2 - c.pos }, l)
/-- R168: a copy with a legal job card. -/
def Move.cardCopy (m : Move) (c : Cmd) (p : BitVec 512) (off : Word) (card : BitVec 256) (out : Nat) : Move :=
  let st := cardStages card
  let rows := u16At p 0x1C * u16At p 0x1E
  let n := (u32At p 0x18).toNat * rows
  let dst := (cpyEnds p off).2
  let unit := ((st.head?.bind fun q => stageShape q.1 q.2).map fun x => x.2.2.1).getD 256
  let r0 := m.cardInput c p off st n
  if r0.1.hold.isSome || r0.1.full then { r0.1 with kept := true } else
  let input := if (st.getLast?.map Prod.fst) = some 2 then cutUnits unit n r0.2 else wholeUnits unit r0.2
  let mid := st.filter fun q => 3 ≤ q.1
  let r := mid.foldl (fun (a : Move × List StageByte) q => Move.stage c q a.1 a.2) ({ r0.1 with stop := none }, input)
  let done := Move.putOut c (u8At p 3) none r.1 (match st.getLast? with
    | some (2, ip) => encodeOutput dst ip 0 0 (unitsOf 256 r.2)
    | _ => rowOutput p dst (out / rows) out (n / unit) r.2)
  { done with stop := done.stop <|> r0.1.stop }

/-- R214: a command that the end of its task's write log has stopped, by the replay of a side-logged byte too. -/
def Cmd.logStopped (c : Cmd) : Bool := (c.fail.map Prod.fst) == some 0x0D
/-- R158, R165, R168, R169, R214: a copy's transfer: what is left to be written, then what has not been moved. The spec does
not say what the destination rows of a card without ENCODE are whose output does not divide into whole bytes of a row: the
model completes ILLCARD (log entry 35). -/
def State.runCopy (s : State) (c : Cmd) (p : BitVec 512) (off : Word) : Move :=
  if c.logStopped then { Move.start s with stop := c.fail } else
  let m := Move.putOut c (u8At p 3) none { Move.start s with status := c.status } c.left
  let cls := if u8At p 3 = 3 then some (u8At p 4, u8At p 5) else none
  let rows := u16At p 0x1C * u16At p 0x1E
  let n := (u32At p 0x18).toNat * rows
  let card := (u32At p 0x30).toNat
  if !m.live then m.land c cls else
  match c.card with
  | none => if card = 0 then (m.plainCopy c p off).land c cls else m.halt 0x0E card
  | some w =>
    match cardLength w n with
    | none => { m with status := 4 }
    | some out =>
      if n = 0 then m
      else if (cardStages w).isEmpty then (m.plainCopy c p off).land c cls
      else if !c.left.isEmpty then m.land c cls
      else if out % rows ≠ 0 ∧ ((cardStages w).getLast?.map Prod.fst) ≠ some 2 then { m with status := 4 }
      else (m.cardCopy c p off w out).land c cls

/-- R103: the core whose ring a copy appends to: that of the completion word. -/
def appendCore (g : Nat) (pair : Word) : Nat :=
  let a := pair.toNat % 2 ^ 32
  if a < 0x80000 then coreOf g else clusterOf g * 4 + (a - 0x1000000) / 0x80000
/-- R166, R213, R214, R246: the cause that a transfer reports, with the packet address as its detail. -/
def State.reportFail (s : State) (c : Cmd) (addr : BitVec 32) : State :=
  match c.fail with
  | none => s
  | some (code, a) => s.report c.by_ code (if code = 0x0C then 0 else addr) a
/-- R103, R166: the end of a copy: ring append, completion word, cause. -/
def State.endCopy (s : State) (c : Cmd) (p : BitVec 512) (addr : BitVec 32) : State :=
  let pair := u64At p 0x38
  let core := appendCore c.by_.g pair
  let ring := u8At p 6 % 8
  let s1 := if (u8At p 6).testBit 7 && (c.status == 0 || c.status == 2) then
      s.appendRing core ring else s
  ((s1.completionWord c.by_ (pair.truncate 32) (mretWord c.status pair)).finish c.id).reportFail c addr

/-- A transfer that was held or has run: it waits for its page, for room, or for its side-logged bytes; or it is over, and
`done` follows. -/
def State.settleMove (s : State) (c : Cmd) (m : Move) (done : Cmd → State → State) : State :=
  if (m.hold.isSome || m.full) && m.kept then m.pause c
  else if m.hold.isSome then s.holdCmd c m
  else if m.full then { s with choice := m.state.choice + 1 }
  else
    let s1 := m.keep c
    if s1.sideLogged c then s1
    else match s1.cmds.find? fun d => d.id == c.id with
      | some d => done d s1
      | none => s1

/-- R166, R182: COPY_COMPLETION of command n: its bytes move; its word follows when no byte of it is side-logged. -/
def execCopyCompletion (n : Nat) (s : State) : Res :=
  match s.cmds.find? fun c => c.id == n with
  | none => .next s
  | some c =>
    match c.op with
    | .cpy p addr off =>
      if !s.mayRun c then .next s
      else if c.prog = 1 then .next (s.endCopy c p addr)
      else .next (s.settleMove c (s.runCopy c p off) fun d t => t.endCopy d p addr)
    | _ => .next s

/-! Direct global accesses (R314, R315). -/

/-- R314: what an operation leaves in memory. -/
def dpathResult (fn z old opnd cmp : Nat) : Nat :=
  match fn with
  | 2 => (old + opnd) % 2 ^ (8 * z)
  | 3 => if old = cmp then opnd else old
  | 5 => if signed (8 * z) old < signed (8 * z) opnd then opnd else old
  | 6 => if signed (8 * z) opnd < signed (8 * z) old then opnd else old
  | _ => opnd
/-- R193, R314: the old value, or the one it reads as, written at the descriptor's address. -/
def Move.writeDesc (m : Move) (c : Cmd) (a : Nat) (old : Nat) (poison : Bool) : Move :=
  m.putList c 1 a (leBytes 8 old) poison
/-- R205, R314, R315: an access other than GST, at its place. An atomic to another device is performed there: it goes over
the link, and what it finds is a free value. -/
def Move.atHome (m : Move) (c : Cmd) (fn z a va : Nat) (p : Place) (opnd cmp : Nat) : Move :=
  let here := p.dev == m.state.edge.dev
  if fn = 0 then
    let r := (List.range z).foldl (fun (r : List Byte × Bool × State) i =>
      let b := r.2.2.placeByte c.by_ ⟨p.dev, p.pa + i⟩
      (r.1 ++ [b.1], r.2.1 || b.2.1, b.2.2)) ([], false, m.state)
    let m1 := { m with state := r.2.2 }
    (if r.2.1 then m1.mark 2 else m1).writeDesc c a (leNat r.1) r.2.1
  else if here then
    if m.state.poisonedRange (physKey p.pa) z then m.mark 2 else
    let old := readNat m.state.mem (physKey p.pa) z
    let new := (leBytes z (dpathResult fn z old opnd cmp)).zipIdx
    (new.foldl (fun m x => m.place c (va + x.2) ⟨p.dev, p.pa + x.2⟩ x.1 false) m).writeDesc c a old false
  else
    let ch := m.state.choose
    let m1 := { m with state := ch.2.sendLink ⟨p.dev, p.pa, .atomic fn z opnd cmp⟩ }
    if Config.remotePoison m.state.choice p.dev (p.pa / 64) then m1.mark 2 else
    m1.writeDesc c a (leNat ((List.range z).map fun i => Config.remoteByte m.state.choice p.dev (p.pa + i))) false
/-- R179, R180, R204: a store of a few bytes of one page through one translation. -/
def Move.putWord (m : Move) (c : Cmd) (va : Nat) (bytes : List Byte) : Move :=
  let side (m : Move) (r : Nat) : Move :=
    bytes.zipIdx.foldl (fun m x => if m.live then m.sideByte c (va + x.2) r x.1 false else m) m
  if c.denied = some (BitVec.ofNat 64 va) then m.halt 0x0E va else
  match m.state.pageHeld (coreOf c.by_.g) c.by_.part va with
  | some r => side m r
  | none =>
    let t := m.state.translate (coreOf c.by_.g) c.by_.part c.by_.supv true va
    let m := { m with state := t.2 }
    match t.1 with
    | .bad => m.halt 0x0E va
    | .found p => bytes.zipIdx.foldl (fun m x =>
        if m.live then m.place c (va + x.2) ⟨p.dev, p.pa + x.2⟩ x.1 false else m) m
    | .request k =>
      match m.request c va k true with
      | (some i, m1) => side m1 i
      | (none, m1) => m1
/-- R180, R314, R315: a D-path access: GST is side-logged on a page fault, the others hold. An atomic to a page with
side-logged bytes is held behind them. -/
def State.runDirect (s : State) (c : Cmd) (fn : Nat) (z8 : Bool) (d : BitVec 256) (addr : BitVec 32) (va : Word) : Move :=
  let z := if z8 then 8 else 4
  let a := va.toNat
  let opnd := (u64At d 0).toNat % 2 ^ (8 * z)
  let cmp := (u64At d 8).toNat % 2 ^ (8 * z)
  let m := Move.start s
  if a % z ≠ 0 then m.halt 0x0E a
  else if fn = 1 then (m.putWord c a (leBytes z opnd)).land c none
  else if c.denied = some va then m.halt 0x0E a
  else match (if 2 ≤ fn then s.pageHeld (coreOf c.by_.g) c.by_.part a else none) with
  | some r => { m with hold := some r }
  | none =>
    let t := s.translate (coreOf c.by_.g) c.by_.part c.by_.supv (decide (2 ≤ fn)) a
    let m := { m with state := t.2 }
    match t.1 with
    | .bad => m.halt 0x0E a
    | .request k =>
      let r := m.request c a k (decide (2 ≤ fn))
      { r.2 with hold := r.1 }
    | .found p => (m.atHome c fn z addr.toNat a p opnd cmp).land c none

/-! Record and replay of atomics (R233 to R235). -/

/-- R233: the entry of an ATOM decision. -/
def atomEntry (c : Cmd) (granule : Nat) : BitVec 128 :=
  BitVec.ofNat 128 (1 * 2 ^ 124 + c.by_.task.toNat * 2 ^ 110 + c.by_.segno.toNat * 2 ^ 102 + c.by_.spawn * 2 ^ 98
    + c.ord % 65536 * 2 ^ 82 + granule)
/-- R235: entries that a kernel's log area holds. -/
def Kernel.logCapacity (k : Kernel) : Nat := (u32At k.desc 0xA0).toNat / 16
/-- R233: the physical address of entry i of a log. -/
def Kernel.logEntry (k : Kernel) (i : Nat) : Nat := (u64At k.desc 0x98).toNat + 16 * i
/-- R235: a kernel records, and whether its log has no room for n entries. The spec does not say whether the host's read pointer
returns to 0 when a new recording kernel starts: the model keeps it (log entry 77). -/
def State.logFull (s : State) (k : Kernel) (n : Nat) : Bool :=
  k.records && !k.recStop && decide (k.logCapacity < k.recCount - (s.queue k.queue).logPtr.toNat + n)
/-- R235: a decision of n entries of a recording kernel waits for room: under STALL only. -/
def State.logStalls (s : State) (k : Kernel) (n : Nat) : Bool := s.logFull k n && !(u8At k.desc 0x23).testBit 3
/-- R233, R235: a decision enters the log; a full log under STOP ends recording. The spec does not say which field of the
LOGTRUNC entry holds the entries written: the model puts them into DETAIL0 (log entry 77). -/
def State.record (s : State) (kid : Nat) (k : Kernel) (e : BitVec 128) : State :=
  if !k.records || k.recStop then s
  else if s.logFull k 1 then
    (s.modKernel kid fun x => { x with recStop := true }).journal
      { kind := 0x83, state := 5, detail0 := BitVec.ofNat 64 k.recCount }
  else
    (s.writePhys (k.logEntry (k.recCount % k.logCapacity)) (leBytes 16 e.toNat)).modKernel kid fun x =>
      { x with recCount := x.recCount + 1 }
/-- R234: the entries of a replayed log, up to its end: their numbers and words. The spec does not say where a log ends: the
model ends it at the first entry of neither kind, or at the end of the area (log entry 77). -/
def State.replayEntries (s : State) (k : Kernel) : List (Nat × Nat) :=
  ((List.range k.logCapacity).map fun i => (i, readNat s.mem (physKey (k.logEntry i)) 16)).takeWhile fun e =>
    e.2 / 2 ^ 124 == 1 || e.2 / 2 ^ 124 == 2
/-- R234: the next ATOM entry of a granule, or the next PICK entry (kind 2, granule 0). -/
def State.nextEntry (s : State) (k : Kernel) (kind granule : Nat) : Option (Nat × Nat) :=
  (s.replayEntries k).find? fun e => e.2 / 2 ^ 124 == kind && !k.used.contains e.1 && e.2 % 2 ^ 64 == granule
/-- R234: the agent of an entry. -/
def entryAgent (e : Nat) : Nat := e / 2 ^ 110 % 1024 * 4096 + e / 2 ^ 102 % 256 * 16 + e / 2 ^ 98 % 16
/-- R233, R234: the 4-byte granules at which a command of z bytes is an ATOM decision of its kernel: an atomic whose home is
this device. -/
def State.atomAt (s : State) (c : Cmd) (z8 : Bool) (va : Nat) : List Nat :=
  match (s.translate (coreOf c.by_.g) c.by_.part c.by_.supv true va).1 with
  | .found p => if p.dev = s.edge.dev then va / 4 * 4 :: (if z8 then [va / 4 * 4 + 4] else []) else []
  | _ => []
/-- R234: an atomic of a replaying kernel waits for its turn at a granule. -/
def State.outOfTurn (s : State) (c : Cmd) (k : Kernel) (granule : Nat) : Bool :=
  k.replays && match s.nextEntry k 1 granule with
    | some e => entryAgent e.2 != c.by_.agent || e.2 / 2 ^ 82 % 65536 != c.ord % 65536
    | none => false
/-- R233 to R235: whether an atomic may be performed now as a decision at each of its granules. -/
def State.turnCome (s : State) (c : Cmd) (z8 : Bool) (va : Nat) : Bool :=
  match c.by_.kernel.bind s.kernel, s.atomAt c z8 va with
  | some k, g :: t => !((g :: t).any fun gr => s.outOfTurn c k gr) && !s.logStalls k (g :: t).length
  | _, _ => true
/-- R233, R234: an atomic that has arrived at a granule is logged, or uses up its entry. -/
def State.decidedAt (s : State) (c : Cmd) (gr : Nat) : State :=
  match c.by_.kernel, c.by_.kernel.bind s.kernel with
  | some kid, some k =>
    let s1 := if k.replays then match s.nextEntry k 1 gr with
      | some e => s.modKernel kid fun x => { x with used := x.used.add e.1 }
      | none => s else s
    match s1.kernel kid with
    | some k1 => s1.record kid k1 (atomEntry c gr)
    | none => s1
  | _, _ => s
/-- R233, R234: an atomic that has arrived is a decision at each of its granules. -/
def State.decided (s : State) (c : Cmd) (z8 : Bool) (va : Nat) : State :=
  (s.atomAt c z8 va).foldl (fun t gr => t.decidedAt c gr) s

/-- R314: the end of a D-path access. -/
def State.endDirect (s : State) (c : Cmd) (d : BitVec 256) (addr : BitVec 32) : State :=
  let pair := u64At d 16
  ((s.completionWord c.by_ (pair.truncate 32) (mretWord c.status pair)).finish c.id).reportFail c addr
/-- R314, R315: GLOBAL_ACCESS_COMPLETION of command n. An atomic that is not its log's next waits (R234). One that meets poison
performs nothing, but has arrived. -/
def execGlobalAccessCompletion (n : Nat) (s : State) : Res :=
  match s.cmds.find? fun c => c.id == n with
  | none => .next s
  | some c =>
    match c.op with
    | .dpath fn _ _ z d addr va =>
      if !s.mayRun c then .next s
      else if c.prog = 1 then .next (s.endDirect c d addr)
      else if decide (2 ≤ fn) && !s.turnCome c z va.toNat then
        .next (s.modCmd c.id fun x => { x with since := x.since <|> some s.cycle })
      else
        let m := s.runDirect c fn z d addr va
        let arrived := decide (2 ≤ fn) && m.stop.isNone
        .next (s.settleMove c m fun x t => (if arrived then t.decided c z va.toNat else t).endDirect x d addr)
    | _ => .next s

/-! Collectives (R264). -/

/-- R264: every rank but the own one has brought fields that agree with the packet. -/
def collAgree (p : BitVec 512) (table : List Nat) (parts : List CollPart) : Bool :=
  parts.all fun x => x.op == u8At p 0 && x.awin == u8At p 1 && x.ranks == u16At p 2 && x.n == (u64At p 0x18).toNat
    && x.table == table
/-- R264: all the other ranks have come. -/
def collComplete (p : BitVec 512) (parts : List CollPart) : Bool :=
  (List.range (u16At p 2)).all fun r => r == u16At p 4 || parts.any fun x => x.rank == r
/-- R264: source bytes of a rank. -/
def collBytes (p : BitVec 512) : Nat :=
  let n := (u64At p 0x18).toNat
  if u8At p 0 = 0 then 4 * n else if u8At p 0 = 1 then 4 * n * u16At p 2 else n
/-- R263: the rank table, in rank order; none where it cannot be read. -/
def State.collTable (s : State) (p : BitVec 512) : Option (List Nat) :=
  let pa := (u64At p 0x20).toNat
  let n := 2 * u16At p 2
  if !s.mappedRange pa n || s.poisonedRange (physKey pa) n then none
  else some ((List.range (u16At p 2)).map fun r => readNat s.mem (physKey (pa + 2 * r)) 2)
/-- R264: element e of a sum over the ranks. -/
def collSum (sources : List (List Byte)) (w at_ : Nat) : WSum :=
  windowSum (sources.map fun l => decodeF fp32 (leNat ((l.drop (4 * at_)).take 4))) w
/-- R94, R264, R299: the result of a collective at this rank, and its lsf and flushes. A lone FP32 term is exact and sets no
flag, but where R94 flushes it, as it does a subnormal one, UFL is set (log entry 79). -/
def collResult (p : BitVec 512) (sources : List (List Byte)) : List Byte × BitVec 4 :=
  let n := (u64At p 0x18).toNat
  let w := awinBits (u8At p 1)
  if u8At p 0 = 2 then (sources.flatten, 0)
  else
    let first := if u8At p 0 = 1 then u16At p 4 * n else 0
    let r := (List.range n).map fun e => collSum sources w (first + e)
    (r.flatMap fun x => leBytes 4 x.bits, flagsOf false false (r.any WSum.lsf) (r.any WSum.ufl))
/-- R299: when this COLL was released, one of its rank with its tag was in flight. -/
def Cmd.second (c : Cmd) : Bool := c.status == 1
/-- R262, R263: another rank of a collective lies at a device that is not configured in the domain, or behind a closed link. -/
def State.collAstray (s : State) (p : BitVec 512) : Bool :=
  match s.collTable p with
  | some table => table.zipIdx.any fun d => d.2 != u16At p 4 && d.1 != s.edge.dev
      && (s.edge.closed .link || !s.edge.domain.contains d.1)
  | none => false
/-- R262, R264, R299: a collective whose ranks have not all come may go on only to fail: its tag was in flight, a rank cannot be
reached, or a rank that has come disagrees. -/
def State.collFails (s : State) (c : Cmd) (p : BitVec 512) (parts : List CollPart) : Bool :=
  c.second || s.collAstray p || match s.collTable p with
    | some table => !collAgree p table parts
    | none => false
/-- R262, R264, R299: the transfer of a collective. Where its tag is in flight, a rank cannot be reached, the ranks disagree or
another one cannot read, no address of this rank fails: FADDR is then a free value. -/
def State.runColl (s : State) (c : Cmd) (p : BitVec 512) (parts : List CollPart) : Move × BitVec 4 :=
  let m := Move.start s
  let dst := (u64At p 0x10).toNat
  match s.collTable p with
  | none => (m.halt 0x0E (u64At p 0x20).toNat, 0)
  | some table =>
    let ch := s.choose
    let lost : Move := { m with state := ch.2 }
    if c.second || s.collAstray p || !collAgree p table parts then (lost.halt 0x0E ch.1, 0) else
    match { m with state := ch.2 }.getList c 0 (u64At p 8).toNat (collBytes p) with
    | (.bytes own bad, m1) =>
      if parts.any fun x => x.status == 1 then (lost.halt 0x0E ch.1, 0) else
      let sources := (List.range (u16At p 2)).map fun r =>
        if r = u16At p 4 then own else ((parts.find? fun x => x.rank == r).map CollPart.data).getD []
      let poison := bad || parts.any fun x => x.status == 2
      let r := collResult p sources
      ((Move.putOut c 0 none (if poison then m1.mark 2 else m1)
        (r.1.zipIdx.map fun x => ⟨false, x.2, dst + x.2, x.1, poison⟩)).land c none, r.2)
    | (_, m1) => (m1, 0)
/-- R264: the end of a collective. -/
def State.endColl (s : State) (c : Cmd) (p : BitVec 512) (addr : BitVec 32) : State :=
  let pair := u64At p 0x38
  let s1 := (s.completionWord c.by_ (pair.truncate 32) (mretWord c.status pair)).finish c.id
  (s1.gatherTo c.by_ c.flags).reportFail c addr
/-- R257, R264, R267: COLL_COMPLETION of command n with what the other ranks bring, while the link is open. A tied copy unit
takes one such step for each debug step; what is brought while it may take none is to be brought again (log entry 17). -/
def execCollCompletion (n : Nat) (brought : List CollPart) (s : State) : Res :=
  let parts := if s.edge.closed .link then [] else brought
  match s.cmds.find? fun c => c.id == n with
  | none => .next s
  | some c =>
    match c.op with
    | .coll p addr =>
      let core := coreOf c.by_.g
      if !s.mayRun c || !s.mayPace core 1 then .next s
      else if c.prog = 1 then .next ((s.spendPace core 1).endColl c p addr)
      else if !c.left.isEmpty then
        let s := s.spendPace core 1
        .next (s.settleMove c ((Move.putOut c 0 none { Move.start s with status := c.status } c.left).land c none) fun d t =>
          t.endColl d p addr)
      else if !collComplete p parts && !s.collFails c p parts then .next s
      else
        let s := s.spendPace core 1
        let r := s.runColl c p parts
        .next ((s.modCmd c.id fun x => { x with flags := r.2 }).settleMove c
          { r.1 with state := r.1.state.modCmd c.id fun x => { x with flags := r.2 } } fun d t => t.endColl d p addr)
    | _ => .next s

end Sys2Proof.Machine
end

