-- ==== Sys2Proof/Machine/Slide.lean ====
section
/-!
DEFINITION. Stack slides (R141, R142), and what follows the answer to a page request: the side log is replayed and held
reads go on (R180 to R182, R261).
-/

namespace Sys2Proof.Machine

/-! Slides. -/

/-- R141, R142: the slide that a stalled context waits for may be performed: every proof up to its bundle has sealed. -/
def State.slideDue (s : State) (g : Nat) (inverse : Bool) : Bool :=
  let c := s.ctx g
  c.state == .running && c.bracket == some (if inverse then .inverse else .slide) && c.unsealed.isEmpty
/-- The command of a context's slide. -/
def State.slideCmd (s : State) (g : Nat) : Option Cmd :=
  s.cmds.find? fun d => d.by_.g == g && d.by_.gen == (s.ctx g).gen && match d.op with
    | .slide _ _ _ _ => true
    | _ => false
/-- R141, R142: the global address of a slide: the overflow area's first free 4 KiB, or its last one in use. -/
def State.slideAt (s : State) (g : Nat) (inverse : Bool) : Word :=
  let x := s.ctx g
  x.stkovf + BitVec.ofNat 64 (4096 * (if inverse then x.arch.depth - 1 else x.arch.depth))
/-- R141: a slide is a K-path command of its context; the overflow area is not logged in phased mode. -/
def State.beginSlide (s : State) (g : Nat) (inverse : Bool) : State :=
  if (s.slideCmd g).isSome then s else
  let a := (s.ctx g).arch
  let i := ({ s with cur := g, iss := { Issue.reset with parcel := a.pc, rep := a.printRep } } : State).issuer
  s.releaseCmd { i with phased := false } (.slide inverse (s.slideAt g inverse) a.stkbase (a.stktop + 4096))
/-- R141: the near-store bytes from an address, as the context sees them, with their poison. -/
def State.stackBytes (s : State) (g a n : Nat) : List (Byte × Bool) :=
  (List.range n).map fun i => (s.nearByte g (a + i), s.poisoned (nearKey (coreOf g) (a + i)))
/-- Near-store bytes written directly. -/
def State.writeStack (s : State) (g a : Nat) (l : List (Byte × Bool)) : State :=
  let key := nearKey (coreOf g) a
  (s.mergeCells (l.zipIdx.map fun p => (key + p.2, p.1.1))).addPoison
    ((l.zipIdx.filter fun p => p.1.2).map fun p => (key + p.2) / 64)
/-- R141, R142, R237: the bracketing proof after a slide, sealed at once, in a handler as elsewhere (log entry 26). -/
def State.slideOver (s : State) (g id : Nat) : State :=
  ((s.sealNow g).modCtx g fun c => { c with bracket := none }).finish id
/-- R141, R182: a slide that a fault ends: the context takes COPYFLT. A slide has no packet, so DETAIL is a free value. -/
def State.slideFailed (s : State) (c : Cmd) : State :=
  let ch := s.choose
  let s1 := (ch.2.modCtx c.by_.g fun x => { x with bracket := none }).finish c.id
  match c.fail with
  | some f => s1.report c.by_ f.1 (BitVec.ofNat 32 ch.1) f.2
  | none => s1
/-- R141: the stack moves down by 4 KiB once its oldest 4 KiB has been written. -/
def State.slideDown (s : State) (c : Cmd) : State :=
  if c.status = 1 then s.slideFailed c else
  let g := c.by_.g
  let a := (s.ctx g).arch
  let base := a.stkbase.toNat
  let s1 := s.writeStack g base (s.stackBytes g (base + 4096) (a.stktop.toNat - 4096 - base))
  (s1.modArch g fun x => { x with stktop := x.stktop - 4096, depth := x.depth + 1 }).slideOver g c.id
/-- R141: the transfer of a slide: the oldest 4 KiB goes to the overflow area. -/
def State.runSlide (s : State) (c : Cmd) : Move :=
  let g := c.by_.g
  let x := s.ctx g
  let dst := (s.slideAt g false).toNat
  ((s.stackBytes g x.arch.stkbase.toNat 4096).zipIdx.foldl (fun m p =>
    if m.live then m.put c 0 (dst + p.2) p.1.1 p.1.2 else m) (Move.start s)).land c none
/-- R141: STACK_SLIDE of a context. -/
def execStackSlide (g : Nat) (s : State) : Res :=
  if !s.slideDue g false then .next s else
  let s1 := s.beginSlide g false
  match s1.slideCmd g with
  | none => .next s1
  | some c =>
    if !s1.mayRun c then .next s1
    else if c.prog = 1 then .next (s1.slideDown c)
    else .next (s1.settleMove c (s1.runSlide c) fun d t => t.slideDown d)

/-- Reads n global bytes one by one, with their poison, up to a stop. -/
def Move.getFlags (c : Cmd) : Move → Nat → Nat → Move × List (Byte × Bool)
  | m, _, 0 => (m, [])
  | m, a, n + 1 =>
    let r := m.get c 0 a
    match r.1 with
    | .byte b p =>
      let q := Move.getFlags c r.2 (a + 1) n
      (q.1, (b, p) :: q.2)
    | _ => (r.2, [])
/-- R142: the stack moves up by 4 KiB, and the youngest 4 KiB of the overflow area comes back under it. -/
def State.slideUp (s : State) (c : Cmd) (l : List (Byte × Bool)) : State :=
  let g := c.by_.g
  let a := (s.ctx g).arch
  let base := a.stkbase.toNat
  let s1 := (s.writeStack g (base + 4096) (s.stackBytes g base (a.stktop.toNat - base))).writeStack g base l
  (s1.modArch g fun x => { x with stktop := x.stktop + 4096, depth := x.depth - 1 }).slideOver g c.id
/-- R142: INVERSE_SLIDE of a context; its reads hold on a page fault (R179). -/
def execInverseSlide (g : Nat) (s : State) : Res :=
  if !s.slideDue g true then .next s else
  let s1 := s.beginSlide g true
  match s1.slideCmd g with
  | none => .next s1
  | some c =>
    if !s1.mayRun c then .next s1 else
    let r := Move.getFlags c (Move.start s1) (s1.slideAt g true).toNat 4096
    if r.1.hold.isSome then .next (s1.holdCmd c r.1)
    else if r.1.full then .next { s1 with choice := s1.choice + 1 }
    else match r.1.stop with
      | some f => .next (r.1.state.slideFailed { c with fail := some f })
      | none => .next (r.1.state.slideUp c r.2)

/-! Answers to page requests (R180 to R182, R261). -/

/-- R180: a logged byte is translated again. -/
def Move.replayByte (m : Move) (c : Cmd) (va : Nat) (b : Byte) (poison : Bool) : Move :=
  let t := m.state.translate (coreOf c.by_.g) c.by_.part c.by_.supv true va
  let m := { m with state := t.2 }
  match t.1 with
  | .bad => m.halt 0x0E va
  | .found p => m.place c va p b poison
  | .request k =>
    let r := m.request c va k true
    { r.2 with hold := r.1 }
/-- R182: a command's status and cause after a replay or a denial. -/
def State.markCmd (s : State) (id status : Nat) (fail : Option (Nat × Word)) : State :=
  s.modCmd id fun d =>
    if fail.isSome then { d with status := 1, fail := d.fail <|> fail }
    else { d with status := if d.status = 0 then status else d.status }
/-- R214: the side-logged bytes of a command that the end of its write log has stopped go: they come after the byte that
stopped it. -/
def State.dropStopped (s : State) (unit id : Nat) (fail : Option (Nat × Word)) : State :=
  if fail.map Prod.fst = some 0x0D then s.modUnit unit fun u => { u with side := u.side.filter fun e => e.cmd != id } else s
/-- R180, R214: entries of a page of a unit are replayed in order; one that faults again leaves those that are left waiting
for its new request. -/
def State.replayLogged (s : State) (unit : Nat) : List SideEntry → State
  | [] => s
  | e :: t =>
    let drop := fun (s : State) => s.modUnit unit fun u => { u with side := u.side.erase e }
    match s.cmds.find? fun d => d.id == e.cmd with
    | none => (drop s).replayLogged unit t
    | some c =>
      if !(s.unit unit).side.contains e then s.replayLogged unit t else
      let m := (e.bytes.foldl (fun m b => if m.live then m.replayByte c b.1 b.2.1 b.2.2 else m) (Move.start s))
      match m.hold with
      | some i => m.state.modUnit unit fun u => { u with
          side := u.side.map fun x => if (e :: t).contains x then { x with req := i } else x }
      | none =>
        let m1 := m.land c none
        let s1 := (drop m1.state).markCmd c.id (if e.bytes.any fun b => b.2.2 then 2 else m1.status) m1.stop
        (s1.dropStopped unit c.id m1.stop).replayLogged unit t
/-- R180: the side-logged entries of a unit that are replayed when a page request is resolved: those that wait for it, and all
others of its page as it then stands. -/
def State.resolvedEntries (s : State) (r : PageReq) (slot : Nat) : List SideEntry :=
  let p := s.pageOf r.part r.va.toNat
  (s.unit r.unit).side.filter fun e => e.req == slot
    || (e.part == r.part && decide (p.1 ≤ 256 * e.block % 2 ^ 57) && decide (256 * e.block % 2 ^ 57 < p.1 + p.2))
/-- R180, R182, R261: the answer to a page request takes effect. -/
def State.resolve (s : State) (slot : Nat) (r : PageReq) : State :=
  let ok := r.answer != some false
  let s1 : State := { s with cmds := s.cmds.map fun d => if d.hold = some slot then
      { d with hold := none, denied := if ok then d.denied else some r.va } else d }
  let logged := (s1.unit r.unit).side.filter fun e => e.req == slot
  if ok then s1.replayLogged r.unit (s1.resolvedEntries r slot)
  else
    let s2 := s1.modUnit r.unit fun u => { u with side := u.side.filter fun e => e.req != slot }
    logged.foldl (fun s e => s.markCmd e.cmd 1 (some (0x0E, r.va))) s2
/-- R180, R257, R261: a page request has been answered. The copy unit of a core that is tied replays its side log only in a
debug step. -/
def State.answer (s : State) (slot : Nat) : State :=
  match AMap.find s.edge.fq slot with
  | none => s
  | some r =>
    if r.answer != some false && s.tied r.unit && !(s.resolvedEntries r slot).isEmpty then
      s.modUnit r.unit fun u => { u with due := u.due ++ [(slot, r)] }
    else s.resolve slot r
/-- R180, R257: a copy unit makes the replay that has waited longest. -/
def State.replayDue (s : State) (unit : Nat) : State :=
  match (s.unit unit).due with
  | [] => s
  | p :: t => (s.modUnit unit fun u => { u with due := t }).resolve p.1 p.2
/-- R261: the host's read index moves on by one answered entry. -/
def State.takeAnswer (s : State) : State :=
  let slot := s.edge.fqRead % 2048
  ({ s with edge := { s.edge with fqRead := (s.edge.fqRead + 1) % 4096 } }).answer slot
/-- R261: n entries have been answered. -/
def State.takeAnswers (s : State) : Nat → State
  | 0 => s
  | n + 1 => s.takeAnswer.takeAnswers n
/-- R260, R261: FQPTR_WRITE: the host's read index. An index beyond the device's write index is not taken. -/
def execFqptrWrite (val : BitVec 64) (s : State) : Res :=
  let n := (fld val 11 0 + 4096 - s.edge.fqRead) % 4096
  .next (if s.edge.locked ∨ s.edge.closed .window ∨ s.faultCount < n then s else s.takeAnswers n)

end Sys2Proof.Machine
end

