-- ==== Sys2Proof/Machine/Streams.lean ====
section
/-!
DEFINITION. Read streams and the weight streamer: prefetch, decoding, tiles (R104, R143 to R150, R374).
-/

namespace Sys2Proof.Machine

/-! Read streams. -/

/-- R146: the STRB of a context's stream has been released. -/
def State.strbReleased (s : State) (g q : Nat) : Bool :=
  let c := s.ctx g
  !(c.gated.any fun e => match e.item with
    | .cmd (.strb i) _ => i == q
    | _ => false)
    && !(s.cmds.any fun d => d.by_.g == g && d.by_.gen == c.gen && match d.op with
      | .strb i => i == q
      | _ => false)
/-- R146: a read stream may fetch a unit. -/
def State.canFetch (s : State) (g q : Nat) : Bool :=
  let c := s.ctx g
  match AMap.find c.arch.streams q with
  | none => false
  | some st => !st.write && s.strbReleased g q && decide ((AMap.get [] c.units q).length < 16)
      && decide (256 * AMap.get 0 c.fetched q < streamTotal st.desc)
      && !((AMap.get [] c.units q).any fun u => u.bad.isSome)
/-- R146, R148, R198: STREAM_PREFETCH of one unit of a context's stream. -/
def execStreamPrefetch (g q : Nat) (s : State) : Res :=
  if !s.canFetch g q then .next s else
  let c := s.ctx g
  match AMap.find c.arch.streams q with
  | none => .next s
  | some st =>
    let k := AMap.get 0 c.fetched q
    let off := AMap.get 0 c.fetchOff q
    let u := s.fetchUnit g q st.desc k off
    let bytes := s.streamCells g (unitAddrs st.desc k off u.len)
    .next ((s.modCtx g fun x => x.rereadUnits bytes fun i => i != q).modCtx g fun x => { x with
      units := AMap.put x.units q (AMap.get [] x.units q ++ [u])
      fetched := AMap.put x.fetched q (k + 1)
      fetchOff := AMap.put x.fetchOff q (off + u.len) })

/-! The weight streamer (R374). -/

/-- R374: of two packets the one that has reached the streamer first: by its cycle, and in one cycle by its core. -/
def firstPacket (r : Option Cmd) (d : Cmd) : Option Cmd :=
  match r with
  | none => some d
  | some b => if d.ord < b.ord ∨ (d.ord = b.ord ∧ coreOf d.by_.g < coreOf b.by_.g) then some d else some b
/-- R374: the packet that a cluster's streamer works on: the first of those that have reached it before this cycle. -/
def State.streaming (s : State) (cl : Nat) : Option Cmd :=
  let here := s.cmds.filter fun d => d.op.isWstrm && clusterOf d.by_.g == cl && d.ord != 0 && decide (d.ord ≤ s.cycle)
  (here.find? fun d => d.prog != 0 || d.hold.isSome) <|> here.foldl firstPacket none
/-- R374: the cores that a packet names. -/
def wstrmCores (cl : Nat) (p : BitVec 512) : List Nat :=
  ((List.range 4).filter fun i => (u8At p 0).testBit i).map fun i => cl * 4 + i
/-- R374: every named core has room in its weight buffer. -/
def State.bufferRoom (s : State) (cl : Nat) (p : BitVec 512) (slots : Nat) : Bool :=
  (wstrmCores cl p).all fun k =>
    let c := s.core k
    decide ((AMap.get 0 c.tail 7 - AMap.get 0 c.head 7).toNat < slots)
/-- R150, R374: n decoded blocks of a tile: their bytes and the payload bytes read. -/
def Move.tileBlocks (c : Cmd) (src index : Nat) : Move → Nat → Nat → Nat → Move × List (Byte × Bool) × Nat
  | m, _, pos, 0 => (m, [], pos)
  | m, k, pos, n + 1 =>
    match m.getList c 0 (index + 2 * k) 2 with
    | (.bytes l p0, m1) =>
      let e := leNat l
      if (lbpCorrupt e).isSome then (m1.halt 0x0E (index + 2 * k), [], pos) else
      match m1.getList c 0 (src + pos) (lbpLen e) with
      | (.bytes b p1, m2) =>
        let r := Move.tileBlocks c src index m2 (k + 1) (pos + lbpLen e) n
        (r.1, ((lbpBlock e (b.map BitVec.toNat)).map fun x => (BitVec.ofNat 8 x, p0 || p1)) ++ r.2.1, r.2.2)
      | (_, m2) => (m2, [], pos)
    | (_, m1) => (m1, [], pos)
/-- R374: the bytes of the next tile of a packet, and the payload bytes read so far. -/
def State.tileBytes (s : State) (c : Cmd) (p : BitVec 512) : Move × List (Byte × Bool) × Nat :=
  let z := (u32At p 0x18).toNat
  let src := (u64At p 8).toNat
  if (u8At p 1).testBit 0 then
    Move.tileBlocks c src (u64At p 0x10).toNat (Move.start s) (c.prog * (z / 256)) c.pos (z / 256)
  else
    let r := Move.getFlags c (Move.start s) (src + c.prog * z) z
    (r.1, r.2, 0)
/-- R104, R374: a tile written into a core's weight buffer and appended; a poisoned source granule poisons all of it. -/
def State.bufferTile (s : State) (cfg : Word) (l : List (Byte × Bool)) (core : Nat) : State :=
  let slots := (wbSlots cfg).getD 1
  let j := (AMap.get 0 (s.core core).tail 7).toNat % slots
  let base := wbufKey core (if fld cfg 1 0 = 0 then j * fld cfg 23 8 * 256 else j * 65536)
  let s1 := (s.writeCells (l.zipIdx.map fun q => (base + q.2, q.1.1))).addPoison
    (if l.any Prod.snd then (List.range (l.length / 64)).map fun i => base / 64 + i else [])
  s1.appendRing core 7
/-- R374: the end of a packet. -/
def State.endWstrm (s : State) (c : Cmd) (p : BitVec 512) (addr : BitVec 32) : State :=
  let pair := u64At p 0x20
  ((s.completionWord c.by_ (pair.truncate 32) (mretWord c.status pair)).finish c.id).reportFail c addr
/-- R374: a packet that may go on: nothing holds it, and the next tile has room. -/
def State.canStream (s : State) (cl : Nat) : Bool :=
  match s.streaming cl with
  | none => false
  | some c => c.hold.isNone && match c.op with
    | .wstrm p _ cfg => if (u32At p 4).toNat ≤ c.prog then s.ready c else s.bufferRoom cl p ((wbSlots cfg).getD 1)
    | _ => false
/-- R374: WEIGHT_STREAM_TILE: the next tile of the packet that the streamer works on; after the last one, its word. -/
def execWeightStreamTile (cl : Nat) (s : State) : Res :=
  if !s.canStream cl then .next s else
  match s.streaming cl with
  | none => .next s
  | some c =>
    match c.op with
    | .wstrm p addr cfg =>
      if (u32At p 4).toNat ≤ c.prog then .next (s.endWstrm c p addr) else
      let r := s.tileBytes c p
      if r.1.hold.isSome then .next (s.holdCmd c r.1)
      else if r.1.full then .next { s with choice := s.choice + 1 }
      else match r.1.stop with
        | some f => .next (r.1.state.endWstrm { c with status := 1, fail := some f } p addr)
        | none =>
          let bad := r.2.1.any Prod.snd
          let status := if bad then 2 else c.status
          let s1 := (wstrmCores cl p).foldl (fun s k => s.bufferTile cfg r.2.1 k) r.1.state
          if c.prog + 1 = (u32At p 4).toNat then .next (s1.endWstrm { c with status := status } p addr)
          else .next (s1.modCmd c.id fun d => { d with prog := d.prog + 1, pos := r.2.2, status := status })
    | _ => .next s

end Sys2Proof.Machine
end

