-- ==== Sys2Proof/Machine/Lts.lean ====
section
/-!
DEFINITION. The lifetime store's ageing: age ticks, expiry and its notices, the refresh engine, LREF and LQRY (R152 to
R161, R260).
-/

namespace Sys2Proof.Machine

/-! Age ticks (R155, R156). -/

/-- R155: the lower bound of a band, in degrees. -/
def bandLow (b : Nat) : Int := -40 + 10 * b
/-- R155: the band moves up to the highest one whose lower bound the sensor has reached. -/
def bandUp (t : Int) : Nat → Nat → Nat
  | 0, b => b
  | n + 1, b => if b < 15 ∧ bandLow (b + 1) ≤ t then bandUp t n (b + 1) else b
/-- R155: the band moves down while the sensor is below its lower bound minus 2 degrees. -/
def bandDown (t : Int) : Nat → Nat
  | 0 => 0
  | b + 1 => if t < bandLow (b + 1) - 2 then bandDown t b else b + 1
/-- R155: the band that a sensor reading leads to. The spec does not say whether a band may pass over others at one age tick:
the model goes all the way (log entry 87). -/
def bandFor (t : Int) (b : Nat) : Nat := bandDown t (bandUp t 15 b)
/-- R154: a limit of the almanac; the entry of band b and class c lies at 16b + 2c (log entry 11). -/
def almanacAt (a : VWord) (b c : Nat) : Nat := u16At a (16 * b + 2 * c)
/-- R156: the limit of a row group of a cluster. -/
def State.limitOf (s : State) (cl r : Nat) : Nat :=
  almanacAt (s.cluster cl).almanac (s.cluster cl).band (s.row cl r).cls.toNat
/-- R156: a row group that ages. -/
def RowGroup.ages (r : RowGroup) : Bool := r.valid && r.cls != 7
/-- R156: a request for one row group, when its age has come within GUARD of its limit and the FIFO has room. -/
def State.requestRow (s : State) (cl r : Nat) : State :=
  let x := s.row cl r
  let c := s.cluster cl
  let guard := fld c.guards (8 * x.cls.toNat + 7) (8 * x.cls.toNat)
  if x.ages && x.action.getLsbD 0 && !x.queued && decide (s.limitOf cl r ≤ s.age cl r + guard)
      && decide (c.fifo.length < Config.refreshFifo) then
    (s.modRow cl r fun y => { y with queued := true }).modCluster cl fun c => { c with fifo := c.fifo ++ [r] }
  else s
/-- R154, R156: the background sweep of one row group of a cluster, at its n-th age tick. -/
def RowGroup.sweep (r : RowGroup) (cl row n : Nat) : RowGroup :=
  if r.valid && r.cls == 7 && Config.swept cl row n then { r with stamp := n } else r
/-- R154 to R156, R260: AGE_TICK of a cluster: what was written for it takes effect, the band follows the sensor, every row
group grows older, the background sweep refreshes row groups of LC7 (log entry 69), and refresh requests are made, in
rising order of row groups. -/
def execAgeTick (cl : Nat) (s : State) : Res :=
  let s1 := s.modCluster cl fun c =>
    let t := Config.temperature cl c.ages
    { c with
      sensor := t
      band := bandFor t c.band
      ages := c.ages + 1
      rows := c.rows.map fun p => (p.1, p.2.sweep cl p.1 (c.ages + 1))
      guards := AMap.get 0 s.edge.ltsg cl
      share := AMap.get 4 s.edge.ltsr cl
      almanac := s.edge.almanac }
  .next (((s1.cluster cl).rows.map Prod.fst).foldl (fun s r => s.requestRow cl r) s1)

/-! Expiry (R157). -/

/-- R156, R157: a row group has reached its limit. -/
def State.expired (s : State) (cl r : Nat) : Bool := (s.row cl r).ages && decide (s.limitOf cl r ≤ s.age cl r)
/-- R157, R253: a notice held in a save slot: the count, and the lowest row-group index. -/
def State.holdNotice (s : State) (part g r : Nat) : State :=
  let pa := s.slotBase part g + 0x90
  let n := readNat s.mem (physKey pa) 4
  let low := readNat s.mem (physKey (pa + 4)) 4
  s.writePhys pa (leBytes 4 (n + 1) ++ leBytes 4 (if n = 0 then r else min low r))
/-- R157: the notice of an expired row group, by the state of its owner. -/
def State.notify (s : State) (cl r : Nat) : State :=
  let x := s.row cl r
  let g := 8 * cl + x.owner.toNat
  if !(x.owned && x.action.getLsbD 1) then s else
  match x.okernel with
  | none => s
  | some kid =>
    let c := s.ctx g
    if c.kernel = some kid ∧ (c.state = .running ∨ c.state = .frozen) then
      if c.aevt.getLsbD 0 then s else
        s.modCtx g fun y => { y with
          aevt := BitVec.ofNat 32 r ++ (y.aevt.truncate 32 ||| (1 : BitVec 32))
          notice := true }
    else match (AMap.find s.ce.saved g).filter fun v => v.kernel == kid, s.kernel kid with
      | some _, some k => s.holdNotice k.part g r
      | _, _ => s
/-- R157: one row group expires. -/
def State.expireRow (s : State) (cl r : Nat) : State :=
  if !s.expired cl r then s else
    ((s.modRow cl r fun y => { y with valid := false, queued := false }).modCluster cl fun c =>
      { c with fifo := c.fifo.filter (· != r) }).notify cl r
/-- A row group of a cluster has reached its limit. -/
def State.anyExpired (s : State) (cl : Nat) : Bool := (s.cluster cl).rows.any fun p => s.expired cl p.1
/-- R157: LTS_EXPIRY of a cluster: the row groups at their limit expire, the lowest first. -/
def execLtsExpiry (cl : Nat) (s : State) : Res :=
  .next (((s.cluster cl).rows.map Prod.fst).foldl (fun s r => s.expireRow cl r) s)

/-! The refresh engine (R156, R160). -/

/-- R156: service slot n serves the FIFO. -/
def fifoSlot (share n : Nat) : Bool :=
  let i := n % 16
  decide (i * share / 16 < (i + 1) * share / 16)
/-- R156, R160: a served row group, if still valid, is young again. -/
def State.refreshRow (s : State) (cl r : Nat) : State :=
  if (s.row cl r).valid then
    (s.modRow cl r fun y => { y with stamp := (s.cluster cl).ages, queued := false }).modCluster cl fun c =>
      { c with fifo := c.fifo.filter (· != r) }
  else s
/-- R160, R257: the LREF that a cluster's refresh engine works on. -/
def State.lrefWork (s : State) (cl : Nat) : Option Cmd :=
  s.cmds.find? fun d => clusterOf d.by_.g == cl && s.ready d && s.mayPace (coreOf d.by_.g) 1 && match d.op with
    | .lref _ _ => true
    | _ => false
/-- R160: one row group of an LREF. -/
def State.serveLref (s : State) (cl : Nat) : State :=
  match s.lrefWork cl with
  | none => s
  | some c =>
    match c.op with
    | .lref first n =>
      let s1 := (s.spendPace (coreOf c.by_.g) 1).refreshRow cl (first + c.prog)
      if n ≤ c.prog + 1 then s1.finish c.id else s1.modCmd c.id fun d => { d with prog := d.prog + 1 }
    | _ => s
/-- R156: REFRESH_SERVICE_SLOT: the next slot of a cluster serves the FIFO's head or LREF work. -/
def execRefreshServiceSlot (cl : Nat) (s : State) : Res :=
  let c := s.cluster cl
  let s1 := s.modCluster cl fun c => { c with slots := c.slots + 1 }
  .next (match (if fifoSlot c.share c.slots then c.fifo.head? else none) with
    | some r => (s1.modCluster cl fun c => { c with fifo := c.fifo.tail }).refreshRow cl r
    | none => s1.serveLref cl)

/-! LQRY (R161). -/

/-- R161: the word of a row group. -/
def State.lqryWord (s : State) (cl r : Nat) : Word :=
  let x := s.row cl r
  BitVec.ofNat 64 (2 ^ 63 + (s.cluster cl).band * 2 ^ 48 + s.limitOf cl r * 2 ^ 32 + x.owned.toNat * 2 ^ 27
    + (if x.owned then x.owner.toNat else 0) * 2 ^ 24 + x.queued.toNat * 2 ^ 22 + x.valid.toNat * 2 ^ 21
    + x.action.toNat * 2 ^ 19 + x.cls.toNat * 2 ^ 16 + s.age cl r)
/-- R161: LQRY_SERVED of command n: the state is sampled and written. -/
def execLqryServed (n : Nat) (s : State) : Res :=
  match s.cmds.find? fun c => c.id == n with
  | none => .next s
  | some c =>
    match c.op with
    | .lqry row dst =>
      if !s.ready c then .next s else
      let bytes := leBytes 8 (s.lqryWord (clusterOf c.by_.g) row).toNat
      let w := s.engineWriteBytes c.by_ c.by_.lo.toNat c.by_.hi.toNat (bytes.zipIdx.map fun p => (dst.toNat + p.2, p.1))
      .next (w.state.finish c.id)
    | _ => .next s

end Sys2Proof.Machine
end

