-- ==== Sys2Proof/Machine/Queues.lean ====
section
/-!
DEFINITION. The command queues: acceptance and its checks, start, completion and fault, the timers, and the commands
other than LAUNCH and MIGRATE (R10, R216 to R218, R221, R222, R227, R229, R231, R259, R260).
-/

namespace Sys2Proof.Machine

/-! Queues and partitions (R10, R216). -/

/-- R10, R216: the partition that owns a queue. -/
def State.partOf (s : State) (q : Nat) : Option (Nat × Partition) := s.ce.parts.find? fun p => p.2.queues.getLsbD q
/-- R216: the queue is set up. -/
def Queue.setUp (q : Queue) : Bool := decide (4 ≤ q.log2) && decide (q.log2 ≤ 16)
/-- R216: the queue belongs to a configured partition, or is privileged. -/
def State.owned (s : State) (q : Nat) : Bool := (s.partOf q).isSome || (s.queue q).priv
/-- R216, R217, R230, R266, R267: the engine reads the queue: not while the device is in reset, nor while the interface of
commands is closed. -/
def State.readable (s : State) (q : Nat) : Bool :=
  let x := s.queue q
  !s.edge.locked && !s.edge.closed .command && x.running && x.setUp && match s.partOf q with
    | some p => p.2.drain.isNone
    | none => x.priv

/-! Commands: their journal entries and their ends (R217, R231). -/

/-- R231: a command's journal entry. -/
def State.journalCmd (s : State) (q : Nat) (c : Started) (state cause : Nat) (d0 d1 : Word) : State :=
  s.journal { seq := c.seq, queue := q, kind := c.op, state := state, cause := cause, accT := c.accT, startT := c.startT,
              detail0 := d0, detail1 := d1 }
/-- A started command leaves its queue. -/
def State.dropStarted (s : State) (q n : Nat) : State :=
  s.modQueue q fun x => x.setStarted (x.started.filter fun c => c.n != n) s.cycle
/-- R222, R229: a command completes. -/
def State.completeCmd (s : State) (q : Nat) (c : Started) (d0 : Word) : State :=
  ((s.dropStarted q c.n).journalCmd q c 2 0 d0 0).modQueue q fun x => x.restartTimer s.cycle
/-- R217: a started command ends faulted, and its queue stops. -/
def State.faultCmd (s : State) (q : Nat) (c : Started) (cause : Nat) (d0 d1 : Word) : State :=
  ((s.dropStarted q c.n).journalCmd q c 3 cause d0 d1).modQueue q fun x => { x with running := false, faulted := true }

/-! Acceptance (R218). -/

/-- R219, R221: the bytes that an opcode's layout uses, from the start; 0 for an unknown opcode. -/
def cmdBytes (op : Nat) : Nat :=
  match op with
  | 1 => 0x40 | 2 => 0x18 | 3 => 0x1D | 4 => 8 | 5 => 0x10 | 6 => 0x10 | 7 => 0x10 | 8 => 0x30
  | _ => 0
/-- R218, R221: an unknown opcode, a nonzero reserved field or flag, or a flag on the wrong opcode. -/
def cmdMalformed (w : BitVec 512) : Bool :=
  let op := u8At w 0
  cmdBytes op == 0 || u8At w 1 / 4 != 0 || (u8At w 1 != 0 && op != 1) || u16At w 2 != 0
    || (List.range (64 - cmdBytes op)).any (fun i => u8At w (cmdBytes op + i) != 0) || (op == 8 && u8At w 9 != 0)
/-- R216: the physical address of the slot at the head. -/
def Queue.headSlot (q : Queue) : Nat := q.base.toNat + 64 * (q.head.toNat % 2 ^ q.log2)
/-- R218: the slot at the head, unless it lies at an unmapped address or in a poisoned granule. -/
def State.headCommand (s : State) (q : Nat) : Option (BitVec 512) :=
  let pa := (s.queue q).headSlot
  if s.mappedRange pa 64 && !s.poisonedRange (physKey pa) 64 then some (BitVec.ofNat 512 (readNat s.mem (physKey pa) 64))
  else none
/-- The row of the opcode table that handles an opcode: its own, and LAUNCH for unknown opcodes and headers that cannot be
read. -/
def eventOp (op : Nat) : Nat := if 2 ≤ op ∧ op ≤ 8 then op else 1
/-- The row that handles the next command of a queue. -/
def State.nextOp (s : State) (q : Nat) : Option Nat :=
  let x := s.queue q
  match x.accepted with
  | some c => some (eventOp c.op)
  | none => if x.head = x.tail then none else some (eventOp (((s.headCommand q).map fun w => u8At w 0).getD 0))
/-- R217, R218: the command at the head is refused: it ends faulted, the head passes it, and the queue stops. -/
def State.rejectHead (s : State) (q : Nat) (c : Started) (cause : Nat) : State :=
  (s.journalCmd q c 3 cause 0 0).modQueue q fun x => { x with head := x.head + 1, running := false, faulted := true }
/-- R218, R231: the command at the head of a queue is accepted, and its header checked. The spec does not say whether one that
is refused has an entry of state accepted before its faulted one: the model writes it, also when the header could not be
read (log entry 91). -/
def State.acceptHead (s : State) (q : Nat) : State :=
  let x := s.queue q
  if x.accepted.isSome ∨ x.head = x.tail then s else
  let r := s.headCommand q
  let w := r.getD 0
  let c : Started := ⟨0, u32At w 4, u8At w 0, s.timeNs, 0, 0, w, none, none⟩
  let s1 := s.journalCmd q c 0 0 0 0
  if r.isNone || cmdMalformed w || (x.expect.map fun e => e != c.seq).getD false then s1.rejectHead q c 0x41
  else if 7 ≤ c.op ∧ !x.priv then s1.rejectHead q c 0x42
  else s1.modQueue q fun y => { y with accepted := some c, expect := some (c.seq + 1) }

/-! Start (R222, R227). -/

/-- R226: a TRIG of a task of a kernel has sealed, and waits for the accesses that it covers. -/
def State.trigWaits (s : State) (kid t : Nat) : Bool :=
  s.cmds.any fun d => d.op == .trig && d.by_.kernel == some kid && d.by_.task.toNat == t
/-- R215, R226, R227: every task of a kernel is triggered in its last phase. A task that has committed without a TRIG counts;
one whose TRIG has sealed counts when that is performed. -/
def State.allTriggered (s : State) (kid : Nat) (k : Kernel) : Bool :=
  decide ((u32At k.desc 0x24).toNat ≤ k.phase.toNat + 1)
    && (List.range Config.tasks).all fun t => k.triggered.contains t || (k.committed.contains t && !s.trigWaits kid t)
/-- R26: the spawn reservation mask that a LAUNCH brings. -/
def State.launchMask (s : State) (c : Started) : Nat :=
  (s.mem.read (physKey ((u64At c.slot 8).toNat + 0x22))).toNat
/-- R26, R222: kernels of a partition that have started and not ended. -/
def State.activeKernels (s : State) (part : Nat) : List (Nat × Kernel) :=
  s.ce.kernels.filter fun p => p.2.part == part && p.2.ended.isNone
/-- R227: of a LAUNCH's queue no kernel runs that is older than the command before it. -/
def State.queueRoom (s : State) (q : Nat) : Bool :=
  (s.queue q).started.all fun d => d.op != 1 || decide ((s.queue q).count ≤ d.n)
/-- R26, R222: a LAUNCH finds room in its partition: at most 16 kernels, and no shared reservation. -/
def State.partitionRoom (s : State) (q : Nat) (c : Started) : Bool :=
  match s.partOf q with
  | none => true
  | some p =>
    let ks := s.activeKernels p.1
    decide (ks.length < Config.partitionKernels) && ks.all fun k => u8At k.2.desc 0x22 &&& s.launchMask c == 0
/-- R26, R222, R227: a LAUNCH finds room. -/
def State.launchRoom (s : State) (q : Nat) (c : Started) : Bool := s.queueRoom q && s.partitionRoom q c
/-- R222, R227: an accepted command's turn in its own queue has come: the one before it has completed, or it is an EARLY
LAUNCH after a LAUNCH whose tasks are all triggered. The spec does not say whether a command that was refused is the one before
it: the model counts those that have started (log entry 91). -/
def State.turnInQueue (s : State) (q : Nat) (c : Started) : Bool :=
  let x := s.queue q
  match x.started.find? fun d => d.n == x.count with
  | none => true
  | some p => c.op == 1 && (u8At c.slot 1).testBit 0 && p.op == 1
      && (p.kernel.any fun kid => (s.kernel kid).any fun k => s.allTriggered kid k)
/-- R222: an accepted command may start. -/
def State.mayStart (s : State) (q : Nat) (c : Started) : Bool :=
  s.turnInQueue q c && (c.op != 1 || s.launchRoom q c)
/-- R26, R222: a queue whose LAUNCH waits for nothing but room in its partition, and so keeps its turn. -/
def State.heldLaunch (s : State) (q : Nat) : Bool :=
  s.readable q && match (s.queue q).accepted with
    | some c => c.op == 1 && s.turnInQueue q c && s.queueRoom q && !s.partitionRoom q c
    | none => false
/-- R222: the place of a queue in the order of starts: by priority, then those that have kept an earlier turn, then
round-robin from the queue started last. Before any has started the spec names no first queue: the model begins with queue 0
(log entry 89). -/
def State.startRank (s : State) (q : Nat) : Nat :=
  let p := (s.queue q).prio
  (7 - p) * 128 + match s.ce.passed.findIdx? (· == q) with
    | some i => i
    | none => 64 + (q + 64 - (AMap.get 63 s.ce.rrStart p + 1)) % 64
/-- R222: queues in the order of their turns. -/
def State.insertTurn (s : State) (q : Nat) : List Nat → List Nat
  | [] => [q]
  | r :: t => if s.startRank q < s.startRank r then q :: r :: t else r :: s.insertTurn q t
/-- R222: queue q starts a command: held LAUNCHes of its priority whose turn came before have passed it on and keep it, in
the order of their turns. -/
def State.noteTurn (s : State) (q : Nat) : State :=
  let p := (s.queue q).prio
  let later := ((s.ce.queues.map Prod.fst).filter fun r => (s.queue r).prio == p && s.heldLaunch r
    && !s.ce.passed.contains r && decide (s.startRank r < s.startRank q)).foldl (fun l r => s.insertTurn r l) []
  { s with ce := { s.ce with
      passed := s.ce.passed.filter (· != q) ++ later
      rrStart := if s.ce.passed.contains q then s.ce.rrStart else AMap.put s.ce.rrStart p q } }
/-- R222, R231: the accepted command starts; the head passes it. -/
def State.startCmd (s : State) (q : Nat) (c : Started) : Started × State :=
  let c1 := { c with n := (s.queue q).count + 1, startT := s.timeNs, cycle := s.cycle }
  let s1 := (s.noteTurn q).modQueue q fun x => { x.setStarted (x.started ++ [c1]) s.cycle with
    accepted := none, count := x.count + 1, head := x.head + 1 }
  (c1, s1.journalCmd q c1 1 0 0 0)
/-- R216 to R218, R222: the next command of a queue, if its row of the opcode table is `op`: accepted, and started once it
may be. -/
def State.runCommand (s : State) (q op : Nat) (act : Started → State → State) : State :=
  if !s.readable q || s.nextOp q != some op then s else
  let s1 := s.acceptHead q
  match (s1.queue q).accepted with
  | none => s1
  | some c => if s1.mayStart q c then
      let r := s1.startCmd q c
      act r.1 r.2
    else s1
/-- R222: a queue whose next command can be accepted or started. The spec does not say when a command is accepted: the model
accepts it, and checks its header, while the one before it still runs (log entry 91). -/
def State.commandDue (s : State) (q : Nat) : Bool :=
  let x := s.queue q
  s.readable q && match x.accepted with
    | none => x.head != x.tail
    | some c => s.mayStart q c
/-- R222: the queue whose turn it is: the highest priority first, then round-robin. -/
def State.nextQueue (s : State) : Option Nat :=
  (s.ce.queues.map Prod.fst).foldl (fun r q =>
    if !s.commandDue q then r else match r with
      | none => some q
      | some b => if s.startRank q < s.startRank b then some q else r) none

/-! The commands (R221). -/

/-- R221: an 8-byte word of installed memory, aligned. -/
def State.wordOk (s : State) (a : Nat) : Bool := a % 8 == 0 && s.mappedRange a 8
/-- R221: SEMSIG. -/
def execSemsig (q : Nat) (s : State) : Res :=
  .next (s.runCommand q 2 fun c s =>
    let a := (u64At c.slot 8).toNat
    if !s.wordOk a then s.faultCmd q c 0x41 0 0
    else if s.poisonedRange (physKey a) 8 then s.faultCmd q c 0x04 0 0
    else
      let v := readNat s.mem (physKey a) 8 + (u64At c.slot 0x10).toNat
      (s.mergeCells (physCells a (leBytes 8 v))).completeCmd q c 0)
/-- R221: SEMWAIT; a granule that reads poisoned ends it at once. -/
def execSemwait (q : Nat) (s : State) : Res :=
  .next (s.runCommand q 3 fun c s =>
    let a := (u64At c.slot 8).toNat
    if !s.wordOk a || 2 < u8At c.slot 0x1C then s.faultCmd q c 0x41 0 0
    else if s.poisonedRange (physKey a) 8 then s.faultCmd q c 0x04 0 0
    else s)
/-- R222: the SEMWAIT that a queue has started. -/
def State.waiting (s : State) (q : Nat) : Option Started := (s.queue q).started.find? fun c => c.op == 3
/-- R221: the condition of a SEMWAIT. -/
def semCondition (cond : Nat) (v w : Word) : Bool :=
  match cond with
  | 0 => decide (w.toNat ≤ v.toNat)
  | 1 => v == w
  | _ => (v &&& w) != 0
/-- R221: a SEMWAIT's word compares true, or reads poisoned. -/
def State.semMet (s : State) (c : Started) : Bool :=
  let a := (u64At c.slot 8).toNat
  s.poisonedRange (physKey a) 8
    || semCondition (u8At c.slot 0x1C) (BitVec.ofNat 64 (readNat s.mem (physKey a) 8)) (u64At c.slot 0x10)
/-- R221: SEMWAIT_CONDITION_MET. -/
def execSemwaitConditionMet (q : Nat) (s : State) : Res :=
  match s.waiting q with
  | none => .next s
  | some c =>
    .next (if !s.semMet c then s
      else if s.poisonedRange (physKey (u64At c.slot 8).toNat) 8 then s.faultCmd q c 0x04 0 0
      else s.completeCmd q c 0)
/-- R221: the timeout of a SEMWAIT has run out. -/
def State.semLate (s : State) (c : Started) : Bool :=
  let t := (u32At c.slot 0x18).toNat
  t != 0 && decide (c.cycle + t * 2 ^ 20 ≤ s.cycle)
/-- R221: SEMTMO. -/
def execSemtmo (q : Nat) (s : State) : Res :=
  match s.waiting q with
  | none => .next s
  | some c => .next (if s.semLate c then s.faultCmd q c 0x44 0 0 else s)
/-- R221: the QBARRIER of a queue that has nothing left to wait for. -/
def State.barrierDue (s : State) (q : Nat) : Option Started :=
  (s.queue q).started.find? fun c => c.op == 4 && (s.queue q).started.all fun d => decide (c.n ≤ d.n)
/-- R221: QBARRIER completes when every earlier command of its queue has. -/
def State.passBarrier (s : State) (q : Nat) : State :=
  match s.barrierDue q with
  | some c => s.completeCmd q c 0
  | none => s
/-- R221: QBARRIER. -/
def execQbarrier (q : Nat) (s : State) : Res :=
  .next (if (s.barrierDue q).isSome then s.passBarrier q else s.runCommand q 4 fun _ s => s.passBarrier q)
/-- R221: TIMESTAMP; a poisoned granule takes the bytes under R193. -/
def execTimestamp (q : Nat) (s : State) : Res :=
  .next (s.runCommand q 5 fun c s =>
    let a := (u64At c.slot 8).toNat
    if !s.wordOk a then s.faultCmd q c 0x41 0 0 else
    let cells := physCells a (leBytes 8 s.timeNs)
    (s.mergeCells cells).completeCmd q c 0)
/-- R221: JMARK. -/
def execJmark (q : Nat) (s : State) : Res :=
  .next (s.runCommand q 6 fun c s => s.completeCmd q c (u64At c.slot 8))

/-! PARTCFG (R221). -/

/-- R221: the partition that a PARTCFG describes. The spec does not say which queue is first in the order of pickups of a new
partition, or of one that is set again: the model begins with queue 0 (log entry 89). -/
def partFields (w : BitVec 512) : Partition :=
  ⟨BitVec.ofNat 16 (u16At w 0xA), BitVec.ofNat 16 (u16At w 0xC), u16At w 0xE, u64At w 0x10, u64At w 0x18, u64At w 0x20,
    u64At w 0x28, 63, none⟩
/-- R228: the bytes of a partition's save area: its highest context index has the last slot. -/
def saveBytes (clusters : BitVec 16) : Nat :=
  match (List.range 16).reverse.find? fun c => clusters.getLsbD c with
  | some c => Config.saveSlotBytes * (8 * c + 8)
  | none => 0
/-- R221: PARTCFG's BADCMD cases. -/
def State.partBad (s : State) (n : Nat) (p : Partition) : Bool :=
  decide (11 < n) || (p.clusters &&& ~~~(s.edge.clusters.zeroExtend 16)) != 0 || (p.groups == 0 && p.clusters != 0)
    || p.wdt == 0 || p.htbase.toNat % 0x400000 != 0 || p.rtroot.toNat % 4096 != 0 || p.save.toNat % 4096 != 0
    || !s.mappedRange p.save.toNat (saveBytes p.clusters)
/-- R221: PARTCFG's PARTBUSY cases; the PARTCFG itself does not count. -/
def State.partBusy (s : State) (q n : Nat) (c : Started) (p : Partition) : Bool :=
  (s.ce.queues.any fun x => (s.partOf x.1).map Prod.fst == some n
    && x.2.started.any fun d => !(x.1 == q && d.n == c.n))
  || s.ce.parts.any fun o => o.1 != n
    && ((o.2.clusters &&& p.clusters) != 0 || (o.2.groups &&& p.groups) != 0 || (o.2.queues &&& p.queues) != 0)
/-- R221: PARTCFG. -/
def execPartcfg (q : Nat) (s : State) : Res :=
  .next (s.runCommand q 8 fun c s =>
    let n := u8At c.slot 8
    let p := partFields c.slot
    if s.partBad n p then s.faultCmd q c 0x41 0 0
    else if s.partBusy q n c p then s.faultCmd q c 0x45 0 0
    else
      let parts := if p.clusters = 0 then AMap.del s.ce.parts n else AMap.put s.ce.parts n p
      ({ s with ce := { s.ce with parts := parts } } : State).completeCmd q c 0)

/-! The host's side of a queue (R216, R217, R235, R259, R260). -/

/-- R266, R267: the host reaches the device: it is not in reset, and the interface of the UCIe window is open. -/
def State.hostOpen (s : State) : Bool := !s.edge.locked && !s.edge.closed .window
/-- R270: the device leaves STANDBY. -/
def State.wake (s : State) : State :=
  { s with edge := { s.edge with pstate := if s.edge.pstate = 3 then 0 else s.edge.pstate } }
/-- R216, R259, R270: DOORBELL. A doorbell that is taken leaves STANDBY. -/
def execDoorbell (q : Nat) (tail : BitVec 32) (s : State) : Res :=
  let x := s.queue q
  .next (if !s.hostOpen ∨ 64 ≤ q ∨ !x.setUp ∨ !s.owned q then s
    else
      let s := s.wake
      if 2 ^ x.log2 < (tail - x.head).toNat then
        (s.modQueue q fun y => { y with running := false }).journal { queue := q, kind := 0, state := 3, cause := 0x41 }
      else s.modQueue q fun y => { y with tail := tail })
/-- R216: what a write to QBASE or QCFG does to its queue. -/
def Queue.setAgain (q : Queue) : Queue :=
  { q with head := 0, tail := 0, running := false, expect := some 1, faulted := false, accepted := none }
/-- R216, R222: a queue set up again keeps no turn. -/
def State.dropTurn (s : State) (q : Nat) : State :=
  { s with ce := { s.ce with passed := s.ce.passed.filter (· != q) } }
/-- R216, R260: QUEUE_CONFIG_WRITE: QBASE, or QCFG, by system firmware; a QCFG with another slot count is refused. -/
def execQueueConfigWrite (q : Nat) (cfg : Bool) (val : BitVec 64) (fw : Bool) (s : State) : Res :=
  let n := fld val 4 0
  .next (if !s.hostOpen ∨ 64 ≤ q ∨ !fw then s
    else if !cfg then (s.dropTurn q).modQueue q fun x => { x.setAgain with base := BitVec.ofNat 64 (fld val 51 6 * 64) }
    else if n ≠ 0 ∧ (n < 4 ∨ 16 < n) then s
    else (s.dropTurn q).modQueue q fun x => { x.setAgain with log2 := n, prio := fld val 10 8, priv := val.getLsbD 11 })
/-- R217, R218, R260, R270: QCTL_RESTART: a STOPPED queue runs; after a fault or a drain it takes any sequence number. No queue
is RUNNING in STANDBY: the restart leaves it, as a doorbell does (log entry 71). -/
def execQctlRestart (q : Nat) (s : State) : Res :=
  .next (if !s.hostOpen ∨ 64 ≤ q ∨ (s.queue q).running then s else s.wake.modQueue q fun x => { x with
    running := true
    expect := if x.faulted ∧ x.accepted.isNone then none else x.expect
    faulted := false })
/-- R247, R252: a context at work takes a pre-emption request; one that arises in a handler is held until the ERET. -/
def Ctx.request (c : Ctx) : Ctx :=
  match c.state with
  | .running | .sealing | .frozen => { c with preq := true, preqHeld := if c.preq then c.preqHeld else c.intrap }
  | _ => c
/-- R228, R260: QCTL_PREEMPT: PREQ in every context that runs a kernel started from the queue. -/
def execQctlPreempt (q : Nat) (s : State) : Res :=
  .next (if !s.hostOpen then s else s.ctxs.foldl (fun t p => if ((s.myKernel p.1).map Kernel.queue) = some q then t.modCtx p.1 Ctx.request else t) s)
/-- R235, R260: REPLAY_LOG_READ_POINTER: QCTL[63:32] of a queue. -/
def execReplayLogReadPointer (q : Nat) (val : BitVec 32) (s : State) : Res :=
  .next (if !s.hostOpen ∨ 64 ≤ q then s else s.modQueue q fun x => { x with logPtr := val })
/-- R231, R260: JCFG_WRITE by system firmware, refused whole when the ring is not in installed HBM frames. -/
def execJcfgWrite (val : BitVec 64) (fw : Bool) (s : State) : Res :=
  let j := fld val 4 0
  let base := fld val 51 12 * 4096
  let ok := j == 0 || (decide (8 ≤ j) && decide (j ≤ 20) && decide (base + 64 * 2 ^ j ≤ s.edge.frames * 0x200000))
  .next (if s.hostOpen ∧ fw ∧ ok then
    { s with ce := { s.ce with jcfg := BitVec.ofNat 64 (base + j) } } else s)

end Sys2Proof.Machine
end

