-- ==== Sys2Proof/Machine/Launch.lean ====
section
/-!
DEFINITION. LAUNCH: the checks of its descriptor, the images, and the kernel it starts (R16, R26, R30, R136, R140, R153,
R193, R218 to R220, R228).
-/

namespace Sys2Proof.Machine

/-! The tables that a descriptor names (R219, R220). -/

/-- R220: a structure of n bytes that the engine reads: in installed frames and not poisoned. -/
def State.structureOk (s : State) (pa n : Nat) : Bool :=
  n == 0 || (s.mappedRange pa n && !s.poisonedRange (physKey pa) n)
/-- An LTS map entry: source, destination, bytes, class, action. -/
structure LtsMap where
  src : Nat
  dst : Nat
  size : Nat
  cls : Nat
  act : Nat
  zero : Bool
  deriving DecidableEq, Repr
/-- R219: the entries of an LTS map. -/
def State.ltsMaps (s : State) (d : VWord) : List LtsMap :=
  (List.range (u32At d 0x88).toNat).map fun i =>
    let w : BitVec 256 := BitVec.ofNat 256 (readNat s.mem (physKey ((u64At d 0x80).toNat + 32 * i)) 32)
    ⟨(u64At w 0).toNat, (u32At w 8).toNat, (u32At w 0xC).toNat, u8At w 0x10, u8At w 0x11, fld w 255 0x90 == 0⟩
/-- R219: the region table: address, length, kind. -/
def State.regionTable (s : State) (d : VWord) : List (Nat × Nat × Nat) :=
  (List.range (u32At d 0x8C).toNat).map fun i =>
    let w : BitVec 128 := BitVec.ofNat 128 (readNat s.mem (physKey ((u64At d 0x90).toNat + 16 * i)) 16)
    ((u64At w 0).toNat, (u32At w 8).toNat, (u32At w 0xC).toNat)
/-- R48: the signature table: address, and whether the reserved half is zero. -/
def State.signatures (s : State) (d : VWord) : List (Nat × Bool) :=
  (List.range (u32At d 0x30).toNat).map fun i =>
    let a := physKey ((u64At d 0x28).toNat + 8 * i)
    (readNat s.mem a 4, readNat s.mem (a + 6) 2 == 0)
/-- The addresses rise. -/
def rising : List (Nat × Bool) → Bool
  | x :: y :: t => decide (x.1 < y.1) && rising (y :: t)
  | _ => true
/-- R219: bytes of a plate image. -/
def State.plateImageBytes (s : State) (addr : Nat) : Nat :=
  64 + 32 * ((List.range 512).filter fun n => (s.mem.read (physKey (addr + n / 8))).toNat.testBit (n % 8)).length
/-- R219: bytes of the stencil images of a mask. -/
def stencilBytes (mask : Nat) : Nat := 3584 * ((List.range 8).filter fun n => mask.testBit n).length

/-! The checks (R220). -/

/-- R135: n bytes lie in the cluster LTS range. -/
def rangeInLts (a n : Nat) : Bool := decide (0x10000000 ≤ a) && decide (a + n ≤ 0x14000000)
/-- R136, R140, R248: the window, stack and TSTK of context x. -/
def windowOk (d : VWord) (x : Nat) : Bool :=
  let lo := (u32At d (if x = 0 then 0x48 else 0x50)).toNat
  let hi := (u32At d (if x = 0 then 0x4C else 0x54)).toNat
  let base := (u32At d (if x = 0 then 0x58 else 0x60)).toNat
  let lim := (u32At d (if x = 0 then 0x5C else 0x64)).toNat
  let tstk := (u32At d (if x = 0 then 0x44 else 0xAC)).toNat
  lo % 256 == 0 && (hi + 1) % 256 == 0 && decide (lo ≤ hi) && decide (hi ≤ 0x7FFFF)
    && decide (base + 8192 ≤ lim) && (lim - base) % 4096 == 0 && decide (lo ≤ base) && decide (lim ≤ hi + 1)
    && tstk % 256 == 0 && decide (lo ≤ tstk) && decide (tstk + 255 ≤ hi)
/-- R44, R219, R220: the fields of a descriptor that need no memory. -/
def fieldsOk (d : VWord) : Bool :=
  let bytes := (u32At d 8).toNat
  let base := (u32At d 0xC).toNat
  let flags := u8At d 0x23
  let low := (u32At d 0x74).toNat
  let high := (u32At d 0x78).toNat
  let fmt := u32At d 0x34
  bytes % 2 == 0 && decide (2 ≤ bytes) && decide (bytes ≤ 0x100000) && base % 1024 == 0 && rangeInLts base bytes
    && decide (u8At d 0x21 ≤ 1) && decide (flags < 16)
    && (if u8At d 0x21 = 0 then u32At d 0x24 == 1 else u32At d 0x24 != 0)
    && fld fmt 31 21 == 0 && decide (fld fmt 12 10 < 6)
    && (u32At d 0x70).toNat % 4096 == 0 && decide (low ≤ high) && rangeInLts low (high + 1 - low)
    && (u64At d 0x98).toNat % 64 == 0 && (u32At d 0xA0).toNat % 64 == 0
    && (!flags.testBit 2 || (u32At d 0xA4 != 0 && decide (64 ≤ (u32At d 0xA0).toNat)))
    && fld d 2047 0x580 == 0 && windowOk d 0 && windowOk d 1
/-- R219, R220: an LTS map entry. -/
def LtsMap.ok (m : LtsMap) (base bytes : Nat) : Bool :=
  m.dst % 1024 == 0 && m.size % 1024 == 0 && decide (m.cls < 8) && decide (m.act < 4) && m.zero && rangeInLts m.dst m.size
    && (m.size == 0 || decide (m.dst + m.size ≤ base) || decide (base + bytes ≤ m.dst))
/-- R212, R219, R220: a region table entry. -/
def regionOk (r : Nat × Nat × Nat) : Bool := r.2.2 == 2 || (r.2.2 == 1 && r.1 % 4 == 0 && r.2.1 % 4 == 0)
/-- R48, R220: the signature table. -/
def State.signaturesOk (s : State) (d : VWord) : Bool :=
  let l := s.signatures d
  s.structureOk (u64At d 0x28).toNat (8 * (u32At d 0x30).toNat) && rising l && l.all Prod.snd
    && (l.any fun p => p.1 == (u32At d 0xA8).toNat) && l.any fun p => p.1 == (u32At d 0x40).toNat
/-- R219, R220: plate and stencil images. -/
def State.imagesOk (s : State) (d : VWord) : Bool :=
  let p := (u64At d 0x10).toNat
  (p == 0 || (s.structureOk p 64 && !(s.mem.read (physKey p)).getLsbD 0 && s.structureOk p (s.plateImageBytes p)))
    && s.structureOk (u64At d 0x18).toNat (stencilBytes (u8At d 0x20))
/-- R219, R220: the LTS map and the code image; image data is copied as it is, but must be there. -/
def State.ltsMapsOk (s : State) (d : VWord) : Bool :=
  s.structureOk (u64At d 0x80).toNat (32 * (u32At d 0x88).toNat)
    && ((s.ltsMaps d).all fun m => m.ok (u32At d 0xC).toNat (u32At d 8).toNat && s.mappedRange m.src m.size)
    && s.mappedRange (u64At d 0).toNat (u32At d 8).toNat
/-- R220: a descriptor at a physical address passes every check. -/
def State.descriptorOk (s : State) (pa : Nat) (d : VWord) : Bool :=
  pa % 256 == 0 && s.structureOk pa 256 && fieldsOk d && s.signaturesOk d && s.imagesOk d && s.ltsMapsOk d
    && s.structureOk (u64At d 0x90).toNat (16 * (u32At d 0x8C).toNat) && (s.regionTable d).all regionOk

/-! The start of a kernel. -/

/-- R153, R193, R219: n bytes of an image go into the LTS of a cluster, with their poison. -/
def State.loadLts (s : State) (cl src dst n cls act : Nat) : State :=
  let off := ltsKey cl (dst - 0x10000000)
  let cells := (List.range n).map fun i => (off + i, s.mem.read (physKey (src + i)))
  let bad := ((List.range n).filter fun i => s.poisoned (physKey (src + i))).map fun i => (off + i) / 64
  (s.store cells none (some (cls, act))).addPoison bad
/-- The clusters of a mask. -/
def clustersOf (m : BitVec 16) : List Nat := (List.range 12).filter fun c => m.getLsbD c
/-- The contexts of a mask of clusters. -/
def contextsOf (m : BitVec 16) : List Nat := (clustersOf m).flatMap fun c => (List.range 8).map fun k => 8 * c + k
/-- R30, R219: the code, in LC7, and the LTS map images, into every cluster of a partition. -/
def State.loadCluster (s : State) (d : VWord) (cl : Nat) : State :=
  (s.ltsMaps d).foldl (fun t m => t.loadLts cl m.src m.dst m.size m.cls m.act)
    (s.loadLts cl (u64At d 0).toNat (u32At d 0xC).toNat (u32At d 8).toNat 7 0)
/-- R16: the entry records of a phase of a kernel, in ascending task order. -/
def State.postPhase (s : State) (kid : Nat) : State :=
  match s.kernel kid with
  | none => s
  | some k =>
    let cl := ((AMap.find s.ce.parts k.part).bind fun p => (clustersOf p.clusters).head?).getD 0
    (List.range Config.tasks).foldl (fun t i => t.post
      ⟨kid, u32At k.desc 0xA8, k.phase, .any, BitVec.ofNat 10 i, true, 0, cl, 0, k.args, 0⟩) s
/-- R198, R210: the global memory that the tasks of a phase read. -/
def State.globalMemory (s : State) : Memory := s.mem.filter fun c => decide (0x100000000000 ≤ c.1)
/-- R210: the snapshot of a phase. -/
def State.takeSnapshot (s : State) (kid : Nat) : State :=
  s.modKernel kid fun k => if k.phased then
    { k with moves := [], snap := s.globalMemory, snapPoison := s.poison.filter fun g => decide (0x100000000000 ≤ 64 * g) } else k
/-- R26: idle contexts of the kernel's reservation become RESERVED. -/
def State.reserve (s : State) (m : BitVec 16) (mask : Nat) : State :=
  ((contextsOf m).filter fun g => mask.testBit (g % 8)).foldl (fun t g =>
    if (t.ctx g).state = .idle then t.modCtx g fun c => { c with state := .reserved } else t) s
/-- R228: a LAUNCH with PREEMPT: contexts of its partition that run a kernel of lower priority. A kernel has more tasks than
the device has contexts, so all that its records may use are asked. -/
def State.preemptLower (s : State) (m : BitVec 16) (prio : Nat) : State :=
  (contextsOf m).foldl (fun t g => match s.myKernel g with
    | some k => if k.prio < prio ∧ (s.reservedBy g).isNone then t.modCtx g Ctx.request else t
    | none => t) s
/-- R16, R219, R226, R233: the kernel that a LAUNCH starts. -/
def newKernel (q part prio order : Nat) (c : Started) (d : VWord) (regions : List (Nat × Nat × Nat)) : Kernel where
  queue := q
  seq := c.seq
  part := part
  args := (List.range 6).map fun i => u64At c.slot (0x10 + 8 * i)
  desc := d
  phase := 0
  committed := []
  triggered := []
  ended := none
  order := order
  prio := prio
  snap := []
  snapPoison := []
  moves := []
  logs := []
  ordinals := []
  recCount := 0
  recStop := false
  used := []
  waitSince := none
  regions := regions
/-- R219: a LAUNCH whose checks have passed. -/
def State.startKernel (s : State) (q part : Nat) (p : Partition) (c : Started) (d : VWord) : State :=
  let kid := s.ce.nextKernel
  let k := newKernel q part (s.queue q).prio s.ce.nextOrder c d (s.regionTable d)
  let s1 := (clustersOf p.clusters).foldl (fun t cl => t.loadCluster d cl) s
  let s2 : State := { s1 with ce := { s1.ce with
    kernels := AMap.put s1.ce.kernels kid k, nextKernel := kid + 1, nextOrder := s1.ce.nextOrder + 1 } }
  let s3 := s2.modQueue q fun x => { x with
    started := x.started.map fun y => if y.n = c.n then { y with kernel := some kid } else y }
  let s4 := ((s3.takeSnapshot kid).postPhase kid).reserve p.clusters (u8At d 0x22)
  if (u8At c.slot 1).testBit 1 then s4.preemptLower p.clusters k.prio else s4
/-- R216, R218 to R220: LAUNCH. -/
def execLaunch (q : Nat) (s : State) : Res :=
  .next (s.runCommand q 1 fun c s =>
    let pa := (u64At c.slot 8).toNat
    let d : VWord := BitVec.ofNat 2048 (readNat s.mem (physKey pa) 256)
    match s.partOf q with
    | none => s.faultCmd q c 0x41 0 0
    | some p =>
      if s.mapped (pa + 0x23) && (u8At d 0x23).testBit 0 && !(s.queue q).priv then s.faultCmd q c 0x42 0 0
      else if !s.descriptorOk pa d then s.faultCmd q c 0x43 0 0
      else s.startKernel q p.1 p.2 c d)

end Sys2Proof.Machine
end

