-- ==== Sys2Proof/Machine/Pool.lean ====
section
/-!
DEFINITION. The record pool: what an idle context is offered, pickup and resumption, record and replay of pickups, and the
faulted end of a kernel (R17, R18, R20, R26, R223, R225, R228, R233 to R235).
-/

namespace Sys2Proof.Machine

/-! The offer (R17, R18, R26, R223, R234). -/

/-- R17: a context satisfies a record's affinity. -/
def Record.fits (r : Record) (g : Nat) : Bool :=
  match r.aff with
  | .any => true
  | .cluster => clusterOf g == r.cluster
  | .core => clusterOf g == r.cluster && coreOf g % 4 == r.core
/-- R234: the agent that a record names. -/
def Record.agent (r : Record) : Nat := r.task.toNat * 4096 + r.segno.toNat * 16
/-- R234, R235: a record that its kernel's log lets the pool offer. -/
def State.mayOffer (s : State) (k : Kernel) (r : Record) : Bool :=
  (!k.replays || match s.nextEntry k 2 0 with
    | some e => entryAgent e.2 == r.agent
    | none => true) && !s.logStalls k 1
/-- R10: a context belongs to the partition of a kernel. -/
def State.inPartition (s : State) (g : Nat) (k : Kernel) : Bool :=
  ((AMap.find s.ce.parts k.part).map fun p => p.clusters.getLsbD (clusterOf g) && p.drain.isNone).getD false
/-- R13, R17, R18, R26, R109: a context may take a record, leaving its kernel's log aside. -/
def State.mayTake (s : State) (g : Nat) (r : Record) : Bool :=
  match s.kernel r.kernel with
  | none => false
  | some k => (s.ctx g).state == .idle && (s.reservedBy g).isNone && k.ended.isNone && s.inPartition g k && r.fits g
      && s.imagesFit g r.kernel && !s.loan (sibling g) (ownBank g)
/-- R17, R223, R234: a record qualifies for a context. -/
def State.qualifies (s : State) (g : Nat) (r : Record) : Bool :=
  s.mayTake g r && ((s.kernel r.kernel).map fun k => s.mayOffer k r).getD false
/-- R223: the rank of a kernel's records in a partition: priority, then round-robin. -/
def State.offerRank (s : State) (k : Kernel) : Nat :=
  let last := ((AMap.find s.ce.parts k.part).map Partition.lastPick).getD 63
  (7 - k.prio) * 64 + (k.queue + 64 - (last + 1)) % 64
/-- R223: the record that a context is offered, with its rank. Of two kernels of one queue that run at once the spec does not say
which is that queue's: the model takes the oldest record of either (log entry 90). -/
def State.bestRecord (s : State) (g : Nat) : Option (Nat × Record) :=
  s.ce.pool.foldl (fun b r =>
    if !s.qualifies g r then b else
    let n := ((s.kernel r.kernel).map s.offerRank).getD 0
    match b with
    | none => some (n, r)
    | some x => if n < x.1 ∨ (n = x.1 ∧ r.order < x.2.order) then some (n, r) else some x) none
/-- R228: the saved context that may resume on a context, with its rank. -/
def State.bestSaved (s : State) (g : Nat) : Option (Nat × Saved) :=
  match AMap.find s.ce.saved g with
  | none => none
  | some v =>
    match s.kernel v.kernel with
    | some k => if s.resumeFits g v && k.ended.isNone && s.inPartition g k then some (s.offerRank k, v) else none
    | none => none
/-- R223, R228: the saved context goes before the record. -/
def savedFirst (a : Nat × Saved) (b : Nat × Record) : Bool := decide (a.1 < b.1) || (a.1 == b.1 && decide (a.2.order < b.2.order))
/-- R223, R267: the record that an idle context takes next; none while the interface of records is closed. -/
def State.offered (s : State) (g : Nat) : Option Record :=
  if s.edge.closed .record then none else
  match s.bestRecord g, s.bestSaved g with
  | some r, none => some r.2
  | some r, some v => if savedFirst v r then none else some r.2
  | none, _ => none
/-- R223, R228: the saved context that resumes next on a context. -/
def State.offeredSaved (s : State) (g : Nat) : Option Saved :=
  if s.edge.closed .record then none else
  match s.bestSaved g, s.bestRecord g with
  | some v, none => some v.2
  | some v, some r => if savedFirst v r then some v.2 else none
  | none, _ => none

/-! Pickup and resumption. -/

/-- R223: the queue of the last record picked up in a partition. -/
def State.notePick (s : State) (k : Kernel) : State :=
  match AMap.find s.ce.parts k.part with
  | some p => { s with ce := { s.ce with parts := AMap.put s.ce.parts k.part { p with lastPick := k.queue } } }
  | none => s
/-- R233: the entry of a PICK decision. -/
def pickEntry (r : Record) : BitVec 128 := BitVec.ofNat 128 (2 * 2 ^ 124 + r.task.toNat * 2 ^ 110 + r.segno.toNat * 2 ^ 102)
/-- R233, R234: a pickup is logged, or uses up its entry. -/
def State.pickDecided (s : State) (kid : Nat) (k : Kernel) (r : Record) : State :=
  let s1 := if k.replays then match s.nextEntry k 2 0 with
    | some e => s.modKernel kid fun x => { x with used := x.used.add e.1, waitSince := none }
    | none => s else s
  match s1.kernel kid with
  | some k1 => s1.record kid k1 (pickEntry r)
  | none => s1
/-- R233: a segment of a task begins: its agents have released no atomic in it. A segment number that comes again after 256
segments names a new segment. -/
def Kernel.beginSegment (k : Kernel) (r : Record) : Kernel :=
  { k with ordinals := k.ordinals.filter fun p => p.1 / 16 != r.agent / 16 }
/-- R17, R18: a context takes a record. -/
def State.pickUp (s : State) (g : Nat) (r : Record) : State :=
  match s.kernel r.kernel with
  | none => s
  | some k =>
    let s1 := (if (s.core (coreOf g)).loaded = some r.kernel then s else s.loadImages (coreOf g) r.kernel).notePick k
    let s2 : State := { s1 with ce := { s1.ce with
      pool := s1.ce.pool.filter fun x => x.order != r.order, nextGen := s1.ce.nextGen + 1 } }
    ((s2.setCtx g ((s2.ctx g).start g k.desc r.kernel s1.ce.nextGen r.task r.phase r.segno 0 r.resume (u32At k.desc 0x34)
      r.args)).pickDecided r.kernel k r).modKernel r.kernel fun x => x.beginSegment r
/-- R17, R223: RECORD_PICKUP by a context. -/
def execRecordPickup (g : Nat) (s : State) : Res :=
  .next (match s.offered g with
    | some r => s.pickUp g r
    | none => s)
/-- R228, R252: CONTEXT_RESUME of a saved context. -/
def execContextResume (g : Nat) (s : State) : Res :=
  .next (match s.offeredSaved g with
    | some v => match s.kernel v.kernel with
      | some k => (s.notePick k).resume g v
      | none => s
    | none => s)

/-! The faulted end of a kernel (R211, R225, R234). -/

/-- The command that started a kernel. -/
def State.launchOf (s : State) (kid : Nat) (k : Kernel) : Option Started :=
  (s.queue k.queue).started.find? fun c => c.kernel == some kid
/-- R13, R26: a context RESERVED for a kernel that has ended is IDLE, or RESERVED for another. -/
def State.unreserve (s : State) : State :=
  (s.ctxs.map Prod.fst).foldl (fun t g =>
    if (t.ctx g).state = .reserved then t.modCtx g fun c => { c with state := t.restState g } else t) s
/-- R225, R324: what the unsealed segments of a context opened is undone. -/
def State.dropRun (s : State) (g : Nat) : State :=
  s.modCore (coreOf g) fun k => k.forgetKinds g (s.ctx g).gen (((s.ctx g).captured.map Capture.serial).getD 0)
/-- R225: a kernel ends faulted: its command is journalled, its queue stops, its records go, and its contexts stop without
committing. -/
def State.endKernel (s : State) (kid code : Nat) (d0 d1 : Word) : State :=
  match s.kernel kid with
  | none => s
  | some k =>
    let s1 := match s.launchOf kid k with
      | some c => s.faultCmd k.queue c code d0 d1
      | none => s
    let s2 : State := { (s1.modKernel kid fun x => { x with ended := some code, waitSince := none }) with
      ce := { (s1.modKernel kid fun x => { x with ended := some code, waitSince := none }).ce with
        pool := s1.ce.pool.filter fun r => r.kernel != kid
        saved := s1.ce.saved.filter fun v => v.2.kernel != kid } }
    let s2 := (s2.cmds.filter fun d => d.parked && d.by_.kernel == some kid).foldl (fun t d => t.finish d.id) s2
    ((s2.ctxs.map Prod.fst).foldl (fun t g =>
      if (t.ctx g).kernel = some kid ∧ (t.ctx g).state ≠ .halted then (t.dropRun g).endRun g else t) s2).unreserve

/-! Replay timeouts (R234). -/

/-- R234: the replay timeout of a kernel, in cycles. -/
def Kernel.timeout (k : Kernel) : Nat := (u32At k.desc 0xA4).toNat * 1024
/-- R234: the oldest record of a kernel that waits for the record its log names, while a context is free for it. -/
def State.waitingRecord (s : State) (kid : Nat) (k : Kernel) : Option Record :=
  if !k.replays || k.ended.isSome || (s.nextEntry k 2 0).isNone then none
  else if s.ce.pool.any fun r => r.kernel == kid && s.mayOffer k r then none
  else s.ce.pool.find? fun r => r.kernel == kid && (contextsOf (((AMap.find s.ce.parts k.part).map Partition.clusters).getD 0)).any
    fun g => s.mayTake g r
/-- R234: since when each replaying kernel has waited for the record that its log names. -/
def State.noteWaits (s : State) : State :=
  (s.ce.kernels.map Prod.fst).foldl (fun t kid => match t.kernel kid with
    | none => t
    | some k => if !k.replays then t else
        let w := (t.waitingRecord kid k).isSome
        t.modKernel kid fun x => { x with waitSince := if w then x.waitSince <|> some t.cycle else none }) s
/-- R234: an atomic of a kernel has waited out the timeout. The spec does not say from when it runs: the model counts from the
atomic's own arrival, though other logged agents take their turns meanwhile (log entry 98). -/
def State.lateAtomic (s : State) (kid : Nat) (k : Kernel) : Option Cmd :=
  s.cmds.find? fun c => c.by_.kernel == some kid && k.replays && match c.since with
    | some t => decide (t + k.timeout ≤ s.cycle)
    | none => false
/-- R234: a pickup of a kernel has waited out the timeout. -/
def State.latePick (s : State) (k : Kernel) : Bool :=
  match k.waitSince with
  | some t => k.ended.isNone && decide (t + k.timeout ≤ s.cycle)
  | none => false
/-- R234: CAUSE.DETAIL of REPLAYDIV: the logged agent. -/
def agentDetail (e : Nat) : BitVec 32 :=
  BitVec.ofNat 32 (e / 2 ^ 110 % 1024 + e / 2 ^ 102 % 256 * 2 ^ 10 + e / 2 ^ 98 % 16 * 2 ^ 18)
/-- R234: the granule at which an atomic is out of turn. -/
def State.lateGranule (s : State) (k : Kernel) (c : Cmd) : Option Nat :=
  match c.op with
  | .dpath _ _ _ z _ _ va => (s.atomAt c z va.toNat).find? fun gr => s.outOfTurn c k gr
  | _ => none
/-- R234: REPLAYDIV for an atomic that has waited too long. -/
def State.divergeAtomic (s : State) (k : Kernel) (c : Cmd) : State :=
  let s1 := s.modCmd c.id fun d => { d with since := none }
  match s.lateGranule k c with
  | none => s1
  | some gr => match s.nextEntry k 1 gr with
    | some e => s1.report c.by_ 0x14 (agentDetail e.2) (BitVec.ofNat 64 gr)
    | none => s1
/-- R231, R234: REPLAYDIV for a pickup: DETAIL1 names the tasks of the logged and of the oldest waiting record. -/
def State.divergePick (s : State) (kid : Nat) (k : Kernel) : State :=
  let logged := ((s.nextEntry k 2 0).map fun e => e.2 / 2 ^ 110 % 1024).getD 0
  let oldest := ((s.waitingRecord kid k).map fun r => r.task.toNat).getD 0
  s.endKernel kid 0x14 0 (BitVec.ofNat 64 (logged + oldest * 2 ^ 16))
/-- R234: REPLAYDIV of a kernel. -/
def execReplaydiv (k : Nat) (s : State) : Res :=
  .next (match s.kernel k with
    | none => s
    | some x => match s.lateAtomic k x with
      | some c => s.divergeAtomic x c
      | none => if s.latePick x then s.divergePick k x else s)

end Sys2Proof.Machine
end

