-- ==== Sys2Proof/Machine/Phases.lean ====
section
/-!
DEFINITION. The calends of a phase and the completion of a kernel (R16, R210 to R215, R222, R224, R225).
-/

namespace Sys2Proof.Machine

/-! The checks of the merge (R211, R212). -/

/-- R211, R212: the region of a byte: its kind and base. -/
def Kernel.regionOf (k : Kernel) (va : Nat) : Option (Nat × Nat) :=
  (k.regions.find? fun r => decide (r.1 ≤ va) && decide (va < r.1 + r.2.1)).map fun r => (r.2.2, r.1)
/-- R212: the first byte of the REDUCE element that a byte belongs to. -/
def elementOf (base va : Nat) : Nat := base + (va - base) / 4 * 4
/-- The tasks that wrote a byte, in ascending order. -/
def Kernel.writers (k : Kernel) (va : Nat) : List Nat := (k.logs.filter fun p => (AMap.find p.2 va).isSome).map Prod.fst
/-- R212: a task's log holds a whole element. -/
def wholeElement (log : AMap LogByte) (e : Nat) : Bool := (List.range 4).all fun i => (AMap.find log (e + i)).isSome
/-- R211, R212: the lowest failing pair of a byte. -/
def Kernel.failure (k : Kernel) (va : Nat) : Option (Nat × Nat) :=
  match k.regionOf va with
  | some (1, base) =>
    ((k.writers va).find? fun t => !wholeElement (AMap.get [] k.logs t) (elementOf base va)).map fun t => (t, t)
  | some _ => none
  | none => match k.writers va with
    | t1 :: t2 :: _ => some (t1, t2)
    | _ => none
/-- Every byte that some log of the phase holds. -/
def Kernel.loggedBytes (k : Kernel) : List Nat := (k.logs.flatMap fun p => p.2.map Prod.fst).eraseDups
/-- R211: the failing granule with the lowest address, and its lowest pair. -/
def Kernel.mismatch (k : Kernel) : Option (Nat × Nat × Nat) :=
  k.loggedBytes.foldl (fun b va => match k.failure va, b with
    | none, b => b
    | some p, none => some (va / 64 * 64, p.1, p.2)
    | some p, some x =>
      let g := va / 64 * 64
      if g < x.1 ∨ (g = x.1 ∧ (p.1 < x.2.1 ∨ (p.1 = x.2.1 ∧ p.2 < x.2.2))) then some (g, p.1, p.2) else some x) none

/-! The merge (R211, R212). -/

/-- The merge as it proceeds: the state, and the REDUCE elements so far with their poison. -/
structure MergeState where
  state : State
  sums : AMap (Nat × Bool)

/-- R187: where a logged byte belongs now. -/
def State.logPlace (s : State) (b : LogByte) : LogByte :=
  let q := s.forward ⟨b.dev, b.pa⟩
  { b with dev := q.dev, pa := q.pa }
/-- R187, R193, R262, R267: bytes of a log reach their places. Of bytes for another device that were logged before the link was
closed the spec says nothing more: they go nowhere (log entry 82). -/
def State.applyBytes (s : State) (logged : List LogByte) : State :=
  let l := logged.map s.logPlace
  let own := l.filter fun b => b.dev == s.edge.dev
  let cells := own.map fun b => (physKey b.pa, b.byte)
  let link := if s.edge.closed .link then s.edge.link else
    (l.filter fun b => b.dev != s.edge.dev).foldl (fun m b => sendByte m ⟨b.dev, b.pa⟩ b.byte b.poison) s.edge.link
  let s1 := (s.mergeCells cells).addPoison ((own.filter LogByte.poison).map fun b => physKey b.pa / 64)
  { s1 with edge := { s1.edge with link := link } }
/-- R210, R212: the snapshot value of an element, at the places where a log has it, as the tasks of the phase read it. -/
def Kernel.snapElement (k : Kernel) (home : Nat) (bytes : List LogByte) : Nat × Bool :=
  let r := bytes.map fun b => k.snapAt home ⟨b.dev, b.pa⟩
  (leNat (r.map Prod.fst), r.any Prod.snd)
/-- R212: one addend of an element. -/
def addElement (old v : Nat) : Nat := (roundF fp32 rneRnd (addFV .rne (decodeF fp32 old) (decodeF fp32 v))).bits
/-- R212: one element of a task's log, at its base. -/
def MergeState.reduce (m : MergeState) (k : Kernel) (log : AMap LogByte) (e : Nat) : MergeState :=
  let bytes := (List.range 4).filterMap fun i => AMap.find log (e + i)
  let start := (AMap.find m.sums e).getD (k.snapElement m.state.edge.dev bytes)
  let poison := start.2 || bytes.any LogByte.poison
  let v := addElement start.1 (leNat (bytes.map LogByte.byte))
  let out := (bytes.zip (leBytes 4 v)).map fun p => { p.1 with byte := p.2, poison := poison }
  ⟨m.state.applyBytes out, AMap.put m.sums e (v, poison)⟩
/-- R211, R212: the log of one task is applied: the bytes outside REDUCE regions, then its elements. -/
def MergeState.apply (m : MergeState) (k : Kernel) (log : AMap LogByte) : MergeState :=
  let inReduce := fun va => match k.regionOf va with
    | some (1, base) => some (elementOf base va)
    | _ => none
  let plain := (log.filter fun p => (inReduce p.1).isNone).map Prod.snd
  let elements := (log.filterMap fun p => inReduce p.1).eraseDups
  elements.foldl (fun m e => m.reduce k log e) { m with state := m.state.applyBytes plain }
/-- R211: the logs of a phase, in ascending task identifier. -/
def State.mergeLogs (s : State) (k : Kernel) : State := (k.logs.foldl (fun m p => m.apply k p.2) (MergeState.mk s [])).state

/-! The calends (R224). -/

/-- R224, R225: every engine command of a kernel's contexts has completed. -/
def State.enginesIdle (s : State) (kid : Nat) : Bool := !(s.cmds.any fun c => c.by_.kernel == some kid)
/-- R224, R225: every task of the phase has committed. -/
def Kernel.allCommitted (k : Kernel) : Bool := (List.range Config.tasks).all fun t => k.committed.contains t
/-- R215: the number of phases. -/
def Kernel.phases (k : Kernel) : BitVec 32 := u32At k.desc 0x24
/-- R188, R330: a byte of a phase's logs lies in a frame whose window is open here: its merge is held until the commit. The
spec does not say how it is held: the model lets the calends wait (log entry 82). -/
def State.mergeHeld (s : State) (k : Kernel) : Bool :=
  !s.edge.windows.isEmpty && k.logs.any fun p => p.2.any fun e =>
    let b := s.logPlace e.2
    b.dev == s.edge.dev && s.windowed b.pa
/-- R224: the calends of a kernel's phase may begin. -/
def State.calendsDue (s : State) (kid : Nat) : Bool :=
  match s.kernel kid with
  | some k => k.phased && k.ended.isNone && decide (k.phase.toNat < k.phases.toNat) && k.allCommitted && s.enginesIdle kid
    && !s.mergeHeld k
  | none => false
/-- R16, R210, R224: the next phase of a kernel begins: its snapshot and its records; after the last phase there are none. -/
def State.nextPhase (s : State) (kid : Nat) (k : Kernel) : State :=
  if k.phases.toNat ≤ k.phase.toNat + 1 then s.modKernel kid fun x => { x with phase := x.phase + 1, logs := [] }
  else ((s.modKernel kid fun x => { x with
    phase := x.phase + 1, logs := [], committed := [], triggered := [], ordinals := [] }).takeSnapshot kid).postPhase kid
/-- R211, R224, R229: CALENDS of a kernel: a progress event, whether its merge fails or not. -/
def execCalends (k : Nat) (s : State) : Res :=
  .next (match s.kernel k with
    | none => s
    | some x =>
      if !s.calendsDue k then s else
      match x.mismatch with
      | some (g, t1, t2) => (s.endKernel k 0x0B (BitVec.ofNat 64 g) (BitVec.ofNat 64 (t1 + t2 * 2 ^ 16))).progressOf (some k)
      | none => ((s.mergeLogs x).nextPhase k x).progressOf (some k))

/-! Completion (R225). -/

/-- R225: a kernel has come to its end. -/
def State.completionDue (s : State) (kid : Nat) : Bool :=
  match s.kernel kid with
  | some k => s.enginesIdle kid && (k.ended.isSome
      || if k.phased then decide (k.phases.toNat ≤ k.phase.toNat) else k.allCommitted)
  | none => false
/-- R152, R225: the code region of a kernel in a cluster is free: its row groups are as after cluster reset. -/
def State.freeCode (s : State) (k : Kernel) (cl : Nat) : State :=
  let first := (k.codeBase - 0x10000000) / 1024
  let n := (k.codeBytes + 1023) / 1024
  s.modCluster cl fun c => { c with
    rows := c.rows.filter fun p => !(decide (first ≤ p.1) && decide (p.1 < first + n))
    fifo := c.fifo.filter fun r => !(decide (first ≤ r) && decide (r < first + n)) }
/-- R18, R26, R225: a kernel that has ended leaves: its code regions, its plate residence, its reservation. -/
def State.releaseKernel (s : State) (kid : Nat) (k : Kernel) : State :=
  let m := ((AMap.find s.ce.parts k.part).map Partition.clusters).getD 0
  let s1 := (clustersOf m).foldl (fun t cl => t.freeCode k cl) s
  let s2 : State := { s1 with
    cores := s1.cores.map fun p => (p.1, if p.2.loaded = some kid then { p.2 with loaded := none } else p.2)
    ce := { s1.ce with
      kernels := AMap.del s1.ce.kernels kid
      pool := s1.ce.pool.filter fun r => r.kernel != kid } }
  s2.unreserve
/-- R222, R225, R231: KERNEL_COMPLETION. A kernel that has ended faulted has its journal entry already. -/
def execKernelCompletion (k : Nat) (s : State) : Res :=
  .next (match s.kernel k with
    | none => s
    | some x =>
      if !s.completionDue k then s else
      let s1 := match (if x.ended.isSome then none else s.launchOf k x) with
        | some c => s.completeCmd x.queue c 0
        | none => s
      s1.releaseKernel k x)

end Sys2Proof.Machine
end

