-- ==== Sys2Proof/Machine/Watchdog.lean ====
section
/-!
DEFINITION. The queue watchdog: its checks, and the drain of a partition (R111, R122, R166, R178, R229, R230, R361).
-/

namespace Sys2Proof.Machine

/-! The check (R229). -/

/-- R229: the timer of a queue has reached its partition's WDT. -/
def State.timerOut (s : State) (q : Nat) (p : Partition) : Bool :=
  let x := s.queue q
  x.timing && decide (x.progress + p.wdt * 2 ^ 20 ≤ s.cycle)
/-- R229: the queues of a partition, in rising order. -/
def Partition.queueList (p : Partition) : List Nat := (List.range 64).filter fun q => p.queues.getLsbD q
/-- R217, R230: the queues of a partition stop. -/
def State.stopQueues (s : State) (p : Partition) : State :=
  p.queueList.foldl (fun t q => t.modQueue q fun x => { x with running := false, faulted := true }) s
/-- R229, R230: one partition is checked; from the expiry onwards nothing starts on its queues. -/
def State.checkPartition (s : State) (n : Nat) : State :=
  match AMap.find s.ce.parts n with
  | none => s
  | some p =>
    match p.drain, p.queueList.find? fun q => s.timerOut q p with
    | none, some q =>
      let s1 := s.stopQueues p
      { s1 with ce := { s1.ce with parts := AMap.put s1.ce.parts n { p with drain := some q } } }
    | _, _ => s
/-- R229: WATCHDOG_CHECK. -/
def execWatchdogCheck (s : State) : Res := .next ((s.ce.parts.map Prod.fst).foldl State.checkPartition s)

/-! The drain (R230). -/

/-- R131, R230 step 2: the completion word of an aborted command. A gang's word has no such status, and a factor command that
stands in a save slot writes none. -/
def State.abortWord (s : State) (c : Cmd) : State :=
  if c.parked then s else
  let word (pair : Word) : State := s.completionWord c.by_ (pair.truncate 32) (mretWord 5 pair)
  match c.op with
  | .mret _ _ _ _ _ _ pair _ => word pair
  | .factor j => s.completionWord c.by_ (j.pair.truncate 32) (facWord 5 false (s.ctx c.by_.g).fprog.toNat j.pair)
  | .cpy p _ _ | .coll p _ => word (u64At p 0x38)
  | .wstrm p _ _ => word (u64At p 0x20)
  | .dpath _ _ _ _ d _ _ => word (u64At d 16)
  | .pmig _ _ pair => if c.by_.kernel.isSome then word pair else s
  | _ => s
/-- R186, R188: windows close, and what was parked for their frames lands, in order of arrival, at the frame's bytes from a
place on. -/
def State.shutWindows (s : State) (gone : Window → Bool) (dest : Window → Place) : State :=
  let at_ (p : Parked) : Option Window := s.edge.windows.find? fun w => gone w && s.frameOf w p.pa
  let s1 : State := { s with edge := { s.edge with
    windows := s.edge.windows.filter fun w => !gone w
    park := s.edge.park.filter fun p => (at_ p).isNone } }
  s.edge.park.foldl (fun t p => match at_ p with
    | some w => t.landSent ⟨(dest w).dev, (dest w).pa + (p.pa - w.old)⟩ p
    | none => t) s1
/-- R186, R230: the migrations of a partition end, and their windows close, here and at the homes of their frames; what was
parked reaches the old frame. The rules do not say so (log entry 78). -/
def State.closeWindows (s : State) (ids : List Nat) : State :=
  let gone (w : Window) : Bool := w.owner == s.edge.dev && ids.contains w.cmd
  let s1 := ((s.edge.windows.filter fun w => gone w && w.home != s.edge.dev).foldl (fun t w =>
    t.sendLink ⟨w.home, w.old, .close w.cmd⟩) s).shutWindows gone fun w => ⟨s.edge.dev, w.old⟩
  { s1 with edge := { s1.edge with shots := s1.edge.shots.filter fun p => !ids.contains p.1 } }
/-- R230 step 2: the engine commands of a partition abort. -/
def State.abortCmds (s : State) (n : Nat) : State :=
  let mine := s.cmds.filter fun c => c.by_.part == n
  let s1 := mine.foldl State.abortWord s
  { (s1.closeWindows (mine.map Cmd.id)) with cmds := s1.cmds.filter fun c => c.by_.part != n }
/-- R230 steps 3 and 4: a cluster: LTS scrubbed, near store zeroed, cores and copy units reset. -/
def State.resetCluster (s : State) (cl : Nat) : State :=
  let gone (key : Nat) : Bool :=
    (decide (ltsKey cl 0 ≤ key) && decide (key < ltsKey (cl + 1) 0))
      || (decide (nearKey (4 * cl) 0 ≤ key) && decide (key < nearKey (4 * cl + 4) 0))
  let cores := (List.range 4).map fun i => 4 * cl + i
  { s with
    mem := s.mem.filter fun c => !gone c.1
    poison := s.poison.filter fun g => !gone (64 * g)
    flawed := s.flawed.filter fun g => !gone (64 * g)
    cores := s.cores.filter fun p => !cores.contains p.1
    units := s.units.filter fun p => !cores.contains p.1
    clusters := s.clusters.map fun p => (p.1, if p.1 = cl then { p.2 with rows := [], fifo := [] } else p.2)
    ctxs := s.ctxs.map fun p => (p.1, if clusterOf p.1 = cl then
      { Ctx.reset with halt := p.2.halt, attach := p.2.attach, present := p.2.present, bps := p.2.bps } else p.2) }
/-- R230 step 5: a queue's started commands are journalled as aborted. -/
def State.abortQueue (s : State) (q : Nat) : State :=
  (s.queue q).started.foldl (fun t c => t.journalCmd q c 4 0 0 0) s
/-- R230 step 5: the WATCHDOG entry, for the oldest command of the expired queue. -/
def State.journalWatchdog (s : State) (q : Nat) (c : Option Started) : State :=
  match c with
  | some c => s.journalCmd q c 3 0x40 0 0
  | none => s.journal { queue := q, kind := 0, state := 3, cause := 0x40 }
/-- R178, R230: the drain of a partition whose queue q has expired. Its kernels are gone, its queues STOPPED. -/
def State.drainPartition (s : State) (n : Nat) (p : Partition) (q : Nat) : State :=
  let mine (kid : Nat) : Bool := ((s.kernel kid).map fun k => k.part == n).getD false
  let s1 := (clustersOf p.clusters).foldl State.resetCluster (s.abortCmds n)
  let s2 : State := { s1 with ce := { s1.ce with
    kernels := s1.ce.kernels.filter fun k => k.2.part != n
    pool := s1.ce.pool.filter fun r => !mine r.kernel
    saved := s1.ce.saved.filter fun v => !mine v.2.kernel
    parts := AMap.put s1.ce.parts n { p with drain := none } } }
  let s3 := (p.queueList.foldl State.abortQueue s2).journalWatchdog q (s.queue q).started.head?
  (p.queueList.foldl (fun t q => t.modQueue q fun x => { x with started := [], progress := 0 }) s3).stopQueues p
/-- R230: WATCHDOG_DRAIN of a partition with an expired queue. -/
def execWatchdogDrain (p : Nat) (s : State) : Res :=
  .next (match AMap.find s.ce.parts p with
    | none => s
    | some x => match x.drain with
      | some q => s.drainPartition p x q
      | none => s)

end Sys2Proof.Machine
end

