-- ==== Sys2Proof/Machine/Migrate.lean ====
section
/-!
DEFINITION. Page migration (MIGRATE, PMIG), remote accesses over Noleve Link, and shootdowns (R178, R185 to R188, R193,
R208, R221, R262, R314).
-/

namespace Sys2Proof.Machine

/-! The pages of a migration (R185, R186). -/

/-- R185: the global virtual address of page i of a packet. -/
def migPage (p : BitVec 512) (i : Nat) : Nat := ((u64At p 0).toNat + i * pageBytes (u8At p 0xC)) % 2 ^ 64
/-- R170, R186: its bits 56:0. -/
def migVa (p : BitVec 512) (i : Nat) : Nat := migPage p i % 2 ^ 57
/-- R175, R185: the radix leaf of the named size that maps a page. -/
def State.migLeaf (s : State) (part : Nat) (p : BitVec 512) (i : Nat) : Option Leaf :=
  let va := migVa p i
  match AMap.find s.ce.parts part with
  | none => none
  | some x => if !canonical (migPage p i) then none else
    match s.radixFrom va 4 x.rtroot.toNat true true with
    | .leaf l => if l.size = pageBytes (u8At p 0xC) then some l else none
    | _ => none
/-- R185: the target address of page i, where it can be read and names a frame of the target. -/
def State.migTarget (s : State) (p : BitVec 512) (i : Nat) : Option Nat :=
  let at_ := (u64At p 0x10).toNat + 8 * i
  let size := pageBytes (u8At p 0xC)
  if !s.mappedRange at_ 8 || s.poisonedRange (physKey at_) 8 then none else
  let pa := readNat s.mem (physKey at_) 8
  let tier := u8At p 0xD
  let ok := pa % size == 0 && decide (pa < 2 ^ 52) && (pa.testBit 51 == (tier == 1))
    && (if tier = 2 then s.reachable ⟨u16At p 0xE, pa⟩ && s.reachable ⟨u16At p 0xE, pa + size - 1⟩ else s.mappedRange pa size)
  if ok then some pa else none
/-- R186: sets MIG in the hashed entries of the pages of 2 MiB that a page touches. -/
def State.markHashed (s : State) (part va size : Nat) : State :=
  match AMap.find s.ce.parts part with
  | none => s
  | some x =>
    (List.range ((size + 0x1FFFFF) / 0x200000)).foldl (fun t i =>
      let v := va / 0x200000 * 0x200000 + i * 0x200000
      let h := hashVpn (BitVec.ofNat 36 (v / 0x200000))
      [(h.1, false), ((h.1 + 1) % 65536, true)].foldl (fun t b =>
        (List.range 8).foldl (fun t j =>
          let pa := x.htbase.toNat + 64 * b.1 + 8 * j
          let e := t.slot64 pa 0
          if hashMatch e b.2 h.2 then t.writePhys pa (leBytes 8 (e ||| 0x20).toNat) else t) t) t) s
/-- R178, R186: a migration asks every other device of the domain for a shootdown. -/
def State.shootDomain (s : State) (tag part : Nat) (range : Option (Nat × Nat)) : State :=
  let devs := if s.edge.closed .link then [] else s.edge.domain.filter (· != s.edge.dev)
  let s1 := devs.foldl (fun t d => t.sendLink ⟨d, 0, .shootdown tag part range⟩) s
  { s1 with edge := { s1.edge with shots := s1.edge.shots ++ devs.map fun d => (tag, d) } }
/-- R178: devices have yet to report a migration's shootdown. -/
def State.shooting (s : State) (tag : Nat) : Bool := s.edge.shots.any fun p => p.1 == tag

/-! The steps of one page (R186). -/

/-- The target device of a packet: PA is one of this device unless the tier is remote. -/
def State.migPlace (s : State) (p : BitVec 512) (pa : Nat) : Place :=
  ⟨if u8At p 0xD = 2 then u16At p 0xE else s.edge.dev, pa⟩
/-- R186: a command moves to the next step. -/
def State.migStep (s : State) (c : Cmd) (prog : Nat) : State := s.modCmd c.id fun d => { d with prog := prog }
/-- R262, R267: a frame of n bytes that can be reached: here or over the open link, at a device of the domain. -/
def State.frameReached (s : State) (p : Place) (n : Nat) : Bool := s.reachable p && s.reachable ⟨p.dev, p.pa + n - 1⟩
/-- R185: a page is skipped, with status FAULT. The spec does not say which status stands where one migration skips a page and
meets poison in another: the model lets FAULT stand (log entry 83). -/
def State.migSkip (s : State) (c : Cmd) : State :=
  s.modCmd c.id fun d => { d with prog := (d.prog / 4 + 1) * 4, status := 1 }
/-- R186, R188: the write-protect window of a command's migration opens at the home of the old frame. -/
def State.openWindow (s : State) (c : Cmd) (l : Leaf) : State :=
  let s1 : State := { s with edge := { s.edge with
    windows := s.edge.windows ++ [⟨l.dev, s.edge.dev, c.id, l.pbase, l.size⟩] } }
  if l.dev = s.edge.dev then s1 else s1.sendLink ⟨l.dev, l.pbase, .window c.id l.size⟩
/-- R186, R262, R267: a page whose window is open cannot be moved: its window closes, and it is skipped (log entry 78). -/
def State.migDrop (s : State) (c : Cmd) : State := (s.closeWindows [c.id]).migSkip c
/-- R186 step 1, R262: MIG is set, the page shot down in every device of the domain, and the write-protect window opens. -/
def State.migOpen (s : State) (c : Cmd) (p : BitVec 512) (i : Nat) : State :=
  match s.migLeaf c.by_.part p i, s.migTarget p i with
  | some l, some pa =>
    match l.entry with
    | none => s.migSkip c
    | some at_ =>
      if !s.frameReached ⟨l.dev, l.pbase⟩ l.size then s.migSkip c else
      let s1 := s.writePhys at_ (leBytes 8 (s.slot64 at_ 0 ||| ((1 : Word) <<< 52)).toNat)
      let s2 := (((s1.markHashed c.by_.part l.vbase l.size).shootdown c.by_.part (some (l.vbase, l.size))).openWindow c
        l).shootDomain c.id c.by_.part (some (l.vbase, l.size))
      s2.modCmd c.id fun d => { d with prog := d.prog + 1, pos := pa }
  | _, _ => s.migSkip c
/-- R193: the numbers from the first of the poisoned granules among n bytes at a place; at another device a free value each. -/
def State.poisonAt (s : State) (p : Place) (n : Nat) : NSet :=
  (List.range ((p.pa % 64 + n + 63) / 64)).filter fun i =>
    if p.dev = s.edge.dev then s.poison.contains (physKey p.pa / 64 + i) else Config.remotePoison s.choice p.dev (p.pa / 64 + i)
/-- The bytes at a place; those of another device are free values. -/
def State.bytesAt (s : State) (p : Place) (n : Nat) : List Byte :=
  if p.dev = s.edge.dev then readKeys s.mem (physKey p.pa) n
  else (List.range n).map fun i => Config.remoteByte s.choice p.dev (p.pa + i)
/-- R186, R262: a page that a command is about to copy or commit: its leaf, while both its frames can be reached. -/
def State.migReady (s : State) (c : Cmd) (p : BitVec 512) (i : Nat) : Option Leaf :=
  (s.migLeaf c.by_.part p i).filter fun l =>
    s.frameReached ⟨l.dev, l.pbase⟩ l.size && s.frameReached (s.migPlace p c.pos) l.size
/-- R186 step 2: the frame is copied; poison goes with it. A status of FAULT stays (log entry 83). -/
def State.migCopy (s : State) (c : Cmd) (p : BitVec 512) (i : Nat) : State :=
  match s.migReady c p i with
  | none => s.migDrop c
  | some l =>
    let src : Place := ⟨l.dev, l.pbase⟩
    let bad := s.poisonAt src l.size
    let s1 := if l.dev = s.edge.dev then s else s.choose.2
    (s1.putPlace (s.migPlace p c.pos) (s.bytesAt src l.size) bad).modCmd c.id fun d => { d with
      prog := d.prog + 1, status := if bad.isEmpty ∨ d.status ≠ 0 then d.status else 2 }
/-- R186 step 3: the leaf of the new frame. -/
def newLeaf (e : Word) (tier dev pa : Nat) : Word :=
  let keep := e &&& (BitVec.ofNat 64 0xFFF)
  keep ||| BitVec.ofNat 64 (pa / 4096 * 4096 + tier * 2 ^ 53 + dev * 2 ^ 55)
/-- R187, R210: a phased kernel sees the contents of a frame that has moved at their new place: its logs follow, and its
snapshot is read where they stood. -/
def Kernel.follow (k : Kernel) (f : Forward) : Kernel :=
  let log := fun (b : LogByte) =>
    let q := f.serve ⟨b.dev, b.pa⟩
    { b with dev := q.dev, pa := q.pa }
  if !k.phased then k else { k with
    logs := k.logs.map fun p => (p.1, p.2.map fun e => (e.1, log e.2))
    moves := ⟨f.dev, f.pa, f.size, f.home, f.old⟩ :: k.moves }
/-- R186 to R188, R210: at the home of an old frame the parked writes of a migration's window reach the new frame in order of
arrival, and the old frame forwards to it; phased kernels follow, whoever migrates it. -/
def State.moveFrame (s : State) (f : Forward) : State :=
  let s1 := s.shutWindows (fun w => w.owner == f.owner && w.cmd == f.cmd) fun _ => ⟨f.dev, f.pa⟩
  { s1 with
    edge := { s1.edge with forwards := s1.edge.forwards ++ [f] }
    ce := { s1.ce with kernels := s1.ce.kernels.map fun k => (k.1, k.2.follow f) } }
/-- R186: the forwarding entries of a migration go. -/
def State.dropForward (s : State) (owner cmd : Nat) : State :=
  { s with edge := { s.edge with forwards := s.edge.forwards.filter fun f => !(f.owner == owner && f.cmd == cmd) } }
/-- R186, R188 step 3: the leaf names the new frame, the old one forwards to it, and the parked writes are replayed. -/
def State.migCommit (s : State) (c : Cmd) (p : BitVec 512) (i : Nat) : State :=
  match s.migReady c p i with
  | none => s.migDrop c
  | some l =>
    let new := s.migPlace p c.pos
    let s1 := match l.entry with
      | some at_ => s.writePhys at_ (leBytes 8 (newLeaf (s.slot64 at_ 0) (u8At p 0xD) new.dev c.pos).toNat)
      | none => s
    let s3 := s1.moveFrame ⟨l.dev, s.edge.dev, c.id, l.pbase, l.size, new.dev, new.pa⟩
    (if l.dev = s.edge.dev then s3 else s3.sendLink ⟨l.dev, l.pbase, .forward c.id l.size new.dev new.pa⟩).modCmd c.id fun d => { d with prog := d.prog + 1, pos := l.pbase }
/-- R186: a migration has retired its last page: its word, or its queue's journal. -/
def State.migEnd (s : State) (c : Cmd) (pair : Word) : State :=
  match c.by_.kernel with
  | some _ => (s.completionWord c.by_ (pair.truncate 32) (mretWord c.status pair)).finish c.id
  | none =>
    let s1 := s.finish c.id
    match s.ce.queues.findSome? fun q => (q.2.started.find? fun d => d.cmd == some c.id).map fun d => (q.1, d) with
    | some (q, d) => s1.completeCmd q d (BitVec.ofNat 64 c.status)
    | none => s1
/-- R186 step 4: the page is shot down again throughout the domain; its forwarding entry goes once every other device has
reported. -/
def State.migRetire (s : State) (c : Cmd) (p : BitVec 512) (i : Nat) : State :=
  let range := some (migVa p i, pageBytes (u8At p 0xC))
  let s1 := if c.ord = 0 then (s.shootdown c.by_.part range).shootDomain c.id c.by_.part range else s
  if s1.shooting c.id then s1.modCmd c.id fun d => { d with ord := 1 } else
  let away := s1.edge.forwards.filter fun f => f.owner == s.edge.dev && f.cmd == c.id && f.home != s.edge.dev
  ((away.foldl (fun t f => t.sendLink ⟨f.home, f.old, .retire c.id⟩) s1).dropForward s.edge.dev c.id).modCmd c.id fun d =>
    { d with prog := d.prog + 1, ord := 0 }
/-- R186: PMIG_PAGE_MIGRATION of command n: its next step, and its completion after the last. -/
def execPmigPageMigration (n : Nat) (s : State) : Res :=
  match s.cmds.find? fun c => c.id == n with
  | none => .next s
  | some c =>
    match c.op with
    | .pmig p _ pair =>
      if !s.ready c then .next s else
      let i := c.prog / 4
      let s1 := match c.prog % 4 with
        | 0 => s.migOpen c p i
        | 1 => if s.shooting c.id then s else s.migCopy c p i
        | 2 => s.migCommit c p i
        | _ => s.migRetire c p i
      .next (match s1.cmds.find? fun c => c.id == n with
        | some d => if (u32At p 8).toNat ≤ d.prog / 4 then s1.migEnd d pair else s1
        | none => s1)
    | _ => .next s

/-- R221: the agent of a MIGRATE: its partition, on the copy unit of the partition's first core. -/
def migrateIssuer (part g : Nat) : Issuer where
  g := g
  gen := 0
  kernel := none
  part := part
  task := 0
  phase := 0
  segno := 0
  spawn := 0
  supv := true
  phased := false
  parcel := 0
  rep := 0
  tick := 0
  lo := 0
  hi := 0
/-- R221: MIGRATE: the migration of its packet on the roots of the queue's partition. -/
def execMigrate (q : Nat) (s : State) : Res :=
  .next (s.runCommand q 7 fun c s =>
    let pa := (u64At c.slot 8).toNat
    let pkt : BitVec 512 := BitVec.ofNat 512 (readNat s.mem (physKey pa) 64)
    match s.partOf q with
    | none => s.faultCmd q c 0x41 0 0
    | some p =>
      if !s.structureOk pa 64 || !pmigOk pkt s.edge.dev then s.faultCmd q c 0x41 0 0
      else
        let g := 8 * ((clustersOf p.2.clusters).head?.getD 0)
        let d := Cmd.new s.nextCmd (migrateIssuer p.1 g) (.pmig pkt 0 0) []
        ({ s with cmds := s.cmds ++ [d], nextCmd := s.nextCmd + 1 } : State).modQueue q fun x => { x with
          started := x.started.map fun y => if y.n = c.n then { y with cmd := some d.id } else y })

/-! Remote accesses (R187, R188, R208, R262). -/

/-- R187, R188: where the frames begin and end that have a window or a forwarding entry here, and, in a frame that forwards
to another of this device, the places that forward to such an edge. -/
def State.frameEdges (s : State) : List Nat :=
  let fs := s.edge.forwards.filter fun f => f.home == s.edge.dev
  let base := ((s.edge.windows.filter fun w => w.home == s.edge.dev).flatMap fun w => [w.old, w.old + w.size])
    ++ fs.flatMap fun f => [f.old, f.old + f.size]
  fs.foldr (fun f es => es ++ if f.dev = s.edge.dev then
    (es.filter fun e => decide (f.pa < e) && decide (e < f.pa + f.size)).map fun e => f.old + (e - f.pa) else []) base
/-- R187, R188: n bytes at an address, cut where a list of edges lies between them; a piece ends at an edge, so there are
at most `k` more than the first when the edges are k. -/
def cutAt (edges : List Nat) : Nat → Nat → Nat → List (Nat × Nat)
  | 0, pa, n => [(pa, n)]
  | k + 1, pa, n =>
    let m := (edges.filter (decide <| pa < ·)).foldl (fun m e => min m (e - pa)) n
    if n ≤ m then [(pa, n)] else (pa, m) :: cutAt edges k (pa + m) (n - m)
/-- R187, R188: the pieces of a remote access of n bytes: each lies in one frame, or outside those that migrate. -/
def State.pieces (s : State) (pa n : Nat) : List (Nat × Nat) := cutAt s.frameEdges s.frameEdges.length pa n
/-- R187, R188, R193: the pieces of a remote write. -/
def State.writePieces (s : State) (src pa : Nat) (bytes : List Byte) (poison : NSet) : List Parked :=
  (s.pieces pa bytes.length).map fun p => {
    pa := p.1
    bytes := (bytes.drop (p.1 - pa)).take p.2
    poison := ((poison.map (pa / 64 + ·)).filter fun g => decide (p.1 / 64 ≤ g) && decide (64 * g < p.1 + p.2)).map
      (· - p.1 / 64)
    src := src
    sent := p.1 }
/-- R187, R188: a write at an address reaches a frame of this device whose window is open. -/
def State.parks (s : State) (pa : Nat) : Bool :=
  let q := s.forward ⟨s.edge.dev, pa⟩
  q.dev == s.edge.dev && s.windowed q.pa
/-- R187, R188: a remote write: its pieces go to where their frame is now, and one that an open window holds up is parked. The
home refuses it when the park queue has no room. -/
def State.remoteWrite (s : State) (src pa : Nat) (bytes : List Byte) (poison : NSet) : State :=
  let ws := s.writePieces src pa bytes poison
  let held := ws.filter fun w => s.parks w.pa
  if Config.parkEntries < s.edge.park.length + held.length ∧ held ≠ [] then s else
  ws.foldl (fun t w => t.deliver ⟨s.edge.dev, w.pa⟩ w) s
/-- R187, R193, R262: a remote read: each piece from where its frame is now; without bytes when one lies outside the installed
frames, or at a device that is not configured in the domain. -/
def State.remoteRead (s : State) (src pa n : Nat) : State :=
  let ps := (s.pieces pa n).map fun p => (p.1, p.2, s.forward ⟨s.edge.dev, p.1⟩)
  if ps.any fun p => !s.serves p.2.2 p.2.1 then s.respond src pa [] [] else
  (if ps.all fun p => p.2.2.dev == s.edge.dev then s else s.choose.2).respond src pa
    (ps.flatMap fun p => s.bytesAt p.2.2 p.2.1)
    (ps.flatMap fun p => (s.poisonAt p.2.2 p.2.1).map (p.1 / 64 - pa / 64 + ·))
/-- R205, R262, R314: a remote atomic at its home; a poisoned granule is left as it is. -/
def State.remoteAtomic (s : State) (src : Nat) (p : Place) (op z operand compare : Nat) : State :=
  if s.poisonedRange (physKey p.pa) z then s.respond src p.pa [] [0] else
  let old := readNat s.mem (physKey p.pa) z
  (s.writePhys p.pa (leBytes z (dpathResult op z old (operand % 2 ^ (8 * z)) (compare % 2 ^ (8 * z))))).respond src p.pa
    (leBytes z old) []
/-- R187, R188, R262, R266: NOLEVE_REMOTE_ACCESS from a device of the domain; a device in reset takes none. A write into an
open window is parked, or refused when the park queue is full; an atomic waits. An address outside installed frames has no
effect; a read is answered without bytes. A frame that has moved to a third device of the domain is reached there. A shootdown is performed
and reported, and a report is taken (R178). The window of another device's migration opens here, and ends by its forwarding
entry (R186). -/
def execNoleveRemoteAccess (src pa : Nat) (op : RemoteOp) (s : State) : Res :=
  let p := s.forward ⟨s.edge.dev, pa⟩
  let here := p.dev == s.edge.dev
  .next (if s.edge.locked ∨ s.edge.closed .link ∨ !s.edge.domain.contains src then s else match op with
    | .read n => s.remoteRead src pa n
    | .write bytes poison => s.remoteWrite src pa bytes poison
    | .atomic o z a b =>
      if s.parks pa then s
      else if !s.serves p z then s.respond src pa [] []
      else if here then s.remoteAtomic src p o z a.toNat b.toNat
      else
        let ch := s.choose
        let old := leNat ((List.range z).map fun i => Config.remoteByte s.choice p.dev (p.pa + i))
        (ch.2.sendLink ⟨p.dev, p.pa, .atomic o z a.toNat b.toNat⟩).respond src pa (leBytes z old) []
    | .shootdown tag part range => (s.shootdown part range).sendLink ⟨src, 0, .report tag⟩
    | .report tag => { s with edge := { s.edge with shots := s.edge.shots.filter (· != (tag, src)) } }
    | .window tag size => { s with edge := { s.edge with windows := s.edge.windows ++ [⟨s.edge.dev, src, tag, pa, size⟩] } }
    | .forward tag size dev new => s.moveFrame ⟨s.edge.dev, src, tag, pa, size, dev, new⟩
    | .close tag => s.shutWindows (fun w => w.owner == src && w.cmd == tag) fun w => ⟨s.edge.dev, w.old⟩
    | .retire tag => s.dropForward src tag)

/-- R178: TLB_SHOOTDOWN of a partition: a range of addresses, or all but the G entries. -/
def execTlbShootdown (p : Nat) (range : Option (Nat × Nat)) (s : State) : Res := .next (s.shootdown p range)

end Sys2Proof.Machine
end

