-- ==== Sys2Proof/Machine/Debug.lean ====
section
/-!
DEFINITION. The boundary and the next bundle of a context, and what a debugger does (R13, R249, R256, R257).
-/

namespace Sys2Proof.Machine

/-! The next bundle. -/

/-- The next bundle of a context from its fetch position. -/
def State.issueNext (s : State) (g : Nat) : Res :=
  let s := { s with cur := g, slot := 0, iss := { Issue.reset with parcel := (s.ctx g).arch.pc } }
  match s.fetch with
  | .outside => .fault .fetchOutsideLts
  | .bad c => .next (s.raise c)
  | .instr (.print n k) => execPrint n k s
  | .instr (.fullBundleHeader e) => execFullBundleHeader e s
  | .instr _ => .next s
/-- R256, R257: after a debug step whose bundle has issued or trapped, the context is frozen again. -/
def State.afterStep (s : State) (g : Nat) : State :=
  if (s.ctx g).step && s.iss.verdict != .stall then
    s.modCtx g fun c => { c with
      step := false
      state := if c.state = .running then .frozen else c.state
      freeze := if c.state = .running then some .debug else c.freeze }
  else s
/-- R17, R131, R252: a context has not begun, waits for its bank's older commands, or waits for the reload of the factor
command that its resume brought back, unless a new pre-emption request stops that. -/
def State.notYet (s : State) (g : Nat) : Bool :=
  (s.ctx g).startSeg.isSome || ((s.ctx g).bankZero && s.olderWork g)
    || (!s.stopsFactors g && ((s.ctx g).reload.map fun id => s.cmds.any fun d => d.id == id).getD false)

/-! Debug controls (R256, R257). -/

/-- R256, R267: DBGCTL_HALT: the context freezes at its next boundary; a closed interface takes no new request. -/
def execDbgctlHalt (g : Nat) (s : State) : Res :=
  .next (if !s.hostOpen && !(s.ctx g).halt then s else s.modCtx g fun c =>
    if c.state = .running then { c with halt := true, state := .frozen, freeze := some .debug } else { c with halt := true })
/-- R13, R256, R267: DEBUG_RESUME. -/
def execDebugResume (g : Nat) (s : State) : Res :=
  .next (if s.hostOpen && (s.ctx g).debugFrozen then
    s.modCtx g fun c => { c with state := .running, freeze := none, halt := false, step := false } else s)
/-- R257, R267: DBGCTL_STEP: one bundle, or the trap that stands before it. A bundle that stalls keeps the step waiting. What
the bundle writes at issue takes effect with it. With ATTACH, each engine of the core may take one step. -/
def execDbgctlStep (g : Nat) (s : State) : Res :=
  if !s.hostOpen || !(s.ctx g).debugFrozen then .next s else
  let s0 := if (s.ctx g).attach then s.modCore (coreOf g) fun k => { k with pace := [0, 1, 2] } else s
  let s1 := s0.modCtx g fun c => { c with state := .running, freeze := none, step := true }
  if s1.notYet g then .next s1 else
  let s2 := s1.prepare g
  if (s2.ctx g).syncDue || s2.vigilLate g then
    match if (s2.ctx g).syncDue then execTrapEntry g s2 else execVigilto g s2 with
    | .next t => .next ({ t with iss := Issue.reset }.afterStep g)
    | r => r
  else match s2.issueNext g with
    | .next t => .next (t.afterStep g).landLate
    | r => r
/-- R256: a control register as a debugger writes it: what a CWR may write, FLAGS and AEVT with the value itself. -/
def Ctx.debugControl (c : Ctx) (r : Nat) (v : Word) : Ctx :=
  match r with
  | 0x01E => { c with arch := { c.arch with flags := v.truncate 4 } }
  | 0x022 => { c with aevt := (c.aevt &&& ~~~(3 : Word)) ||| (v &&& 3) }
  | _ => c.writeControl r v
/-- R256: a pending write with another value and another remaining delay. -/
def Arch.debugPending (a : Arch) (i : Nat) (v : VWord) (delay : Nat) : Arch :=
  { a with pend := a.pend.zipIdx.map fun p => if p.2 = i then { p.1 with val := v, tick := a.tick + delay } else p.1 }
/-- R256, R267: DEBUGGER_STATE_WRITE in a context that is frozen, or HALTED for its debugger. -/
def execDebuggerStateWrite (g : Nat) (target : DbgTarget) (s : State) : Res :=
  let st := (s.ctx g).state
  .next (if !s.hostOpen ∨ st ≠ .frozen ∧ st ≠ .halted then s else match target with
    | .scalar r v => s.modArch g fun a => a.setS r.toNat v
    | .vector r v => s.modArch g fun a => a.setV r.toNat v
    | .pred r v => s.modArch g fun a => a.setP r.toNat v
    | .control r v => s.modCtx g fun c => c.debugControl r.toNat v
    | .engine r v => s.engineWrite g r.toNat v
    | .pending i v d => s.modArch g fun a => a.debugPending i v d)
/-- R20, R249, R267: DEBUGGER_RELEASE: a HALTED context becomes IDLE and commits nothing; its spawner waits on for a DONE that
never seals. -/
def execDebuggerRelease (g : Nat) (s : State) : Res :=
  let c := s.ctx g
  .next (if s.hostOpen ∧ c.state = .halted then
    let s1 := (s.discard g ((c.captured.map Capture.serial).getD 0)).endRun g
    { s1 with ce := { s1.ce with lost := c.parent.toList ++ s1.ce.lost } } else s)

end Sys2Proof.Machine
end

