-- ==== Sys2Proof/Machine/Edges.lean ====
section
/-!
DEFINITION. Channels, rowhammer trackers, reset and start, power states, versions and attestation (R152, R154, R190 to
R192, R216, R265 to R268, R270).
-/

namespace Sys2Proof.Machine

/-! HBM (R190 to R192). -/

/-- A channel. -/
def State.channel (s : State) (ch : Nat) : Channel := AMap.get ⟨false, false⟩ s.edge.channels ch
/-- R191: CHANNEL_RETIREMENT: its contents are rebuilt, and a journal entry records it. -/
def execChannelRetirement (ch : Nat) (s : State) : Res :=
  .next (if 256 ≤ ch ∨ (s.channel ch).retired then s
    else ({ s with edge := { s.edge with
      channels := AMap.put s.edge.channels ch { s.channel ch with retired := true } } } : State).journal
        { kind := 0x81, state := 5, detail0 := BitVec.ofNat 64 ch })
/-- R189: HBM frame f of 2 MiB belongs to a partition that owns parity group f mod 16. -/
def Partition.owns (p : Partition) (frame : Nat) : Bool := p.groups.getLsbD (frame % 16)
/-- R192: the deferred granules of a group are rebuilt. -/
def State.rebuild (s : State) (grp : Nat) : State :=
  { s with deferred := s.deferred.filter fun g => groupOf (64 * g) != some grp }
/-- R189, R192: CHANNEL_RETRAIN: a retraining begins, or ends with its group's deferred granules rebuilt; a second failure in
its group poisons the granules of the group that cannot be reconstructed. -/
def execChannelRetrain (ch : Nat) (ev : RetrainEvent) (s : State) : Res :=
  let put (t : Bool) : State := { s with edge := { s.edge with
    channels := AMap.put s.edge.channels ch { s.channel ch with training := t } } }
  let mine (a : Nat) : Bool := decide (a / 0x200000 < s.edge.frames) && groupOf (physKey a) == some (channelGroup ch)
  .next (if 256 ≤ ch then s else match ev with
    | .start => put true
    | .finish => (put false).rebuild (channelGroup ch)
    | .secondFailure granules =>
      if !(s.channel ch).training then s else
      s.addPoison ((granules.filter mine).map fun a => physKey a / 64))
/-- R190: an activation of row r in a tracker of threshold th and radius br. -/
def Tracker.activate (t : Tracker) (r th br : Nat) : Tracker :=
  let hit (l : List (Nat × Nat)) (n : Nat) : Tracker :=
    if n < th then { t with rows := l.map fun p => if p.1 = r then (r, n) else p }
    else { t with
      rows := l.map fun p => if p.1 = r then (r, t.spill) else p
      refreshed := ((List.range (2 * br + 1)).map fun i => r + i - br).filter (· != r) }
  match t.rows.find? fun p => p.1 == r with
  | some p => hit t.rows (p.2 + 1)
  | none =>
    if t.rows.length < 16 ∧ t.spill = 0 then hit (t.rows ++ [(r, 0)]) 1
    else match t.rows.find? fun p => p.2 == t.spill with
      | some p => hit (t.rows.map fun q => if q.1 = p.1 then (r, t.spill) else q) (t.spill + 1)
      | none => { t with spill := t.spill + 1 }
/-- R190: ROW_ACTIVATION of a bank. -/
def execRowActivation (bank row : Nat) (s : State) : Res :=
  let t := (AMap.get ⟨[], 0, []⟩ s.edge.trackers bank).activate row (fld s.edge.hbmrh 15 0) (fld s.edge.hbmrh 18 16)
  .next { s with edge := { s.edge with trackers := AMap.put s.edge.trackers bank t } }
/-- R190: REFRESH_WINDOW of a bank. -/
def execRefreshWindow (bank : Nat) (s : State) : Res :=
  .next { s with edge := { s.edge with trackers := AMap.put s.edge.trackers bank ⟨[], 0, []⟩ } }

/-! Reset and start (R216, R268). -/

/-- R266: what a reset keeps of the edges: the configuration record. -/
def Edge.fresh (e : Edge) : Edge :=
  { Edge.reset with
    part := e.part, dev := e.dev, clusters := e.clusters, frames := e.frames, hostFrames := e.hostFrames, domain := e.domain }
/-- R152, R156: the clusters after a reset in a cycle: their age ticks and service slots count from it. -/
def freshClusters (cycle : Nat) : AMap Cluster :=
  if cycle = 0 then [] else (List.range 12).map fun c => (c, { Cluster.reset with since := cycle })
/-- R216, R260: DEVICE_RESET: every register is at its reset value; main memory, time and what the outside world has in
store for the device go on. -/
def execDeviceReset (s : State) : Res :=
  let main (l : NSet) : NSet := l.filter fun g => decide (0x100000000000 ≤ 64 * g)
  .next { State.reset with
    cycle := s.cycle
    clusters := freshClusters s.cycle
    mem := s.globalMemory
    poison := main s.poison
    flawed := main s.flawed
    deferred := main s.deferred
    edge := { s.edge.fresh with
      channels := s.edge.channels, boot := s.edge.boot, locked := s.edge.locked, measured := s.edge.measured }
    inbox := s.inbox
    choice := s.choice }
/-- R265: the end of the measurement chain over a boot ROM and firmware images. -/
def measurement (rom : List Byte) (images : List (List Byte)) : BitVec 512 :=
  images.foldl (fun m i => Config.sha512 (leBytes 64 m.toNat ++ leBytes 64 (Config.sha512 i).toNat))
    (Config.sha512 (leBytes 64 0 ++ rom))
/-- R265, R266, R268 step 1: COLD_START: the checks. A firmware image or a record that fails leaves the device in reset; else
the start goes on with step 2. -/
def execColdStart (checks : BootChecks) (s : State) : Res :=
  let up := checks.firmwareOk && checks.recordOk
  .next { State.reset with
    cycle := s.cycle
    clusters := freshClusters s.cycle
    edge := { s.edge.fresh with
      boot := if up then 2 else 1, locked := true, measured := if up then measurement checks.rom checks.images else 0 }
    inbox := s.inbox
    choice := s.choice }
/-- R268: the next step of a cold start may end: the base dies are warm, and after that each step at once. -/
def State.bootDue (s : State) : Bool :=
  decide (2 ≤ s.edge.boot) && decide (s.edge.boot < 5) && (s.edge.boot != 2 || Config.heated s.cycle)
/-- R191, R268: steps 2 to 4 of a cold start: heating; training, which retires the channels that do not pass; and the
lifetime stores cleared, in band 0. After step 4 the queues can be read. -/
def bootStep (s : State) : Res :=
  let enter (t : State) (n : Nat) : State := { t with edge := { t.edge with boot := n, locked := decide (n < 5) } }
  .next (match s.edge.boot with
    | 2 => enter s 3
    | 3 =>
      let bad := (List.range 256).filter fun ch => !Config.channelPasses s.cycle ch
      enter (bad.foldl (fun t ch => match execChannelRetirement ch t with
        | .next u => u
        | _ => t) s) 4
    | _ => enter { s with clusters := freshClusters s.cycle } 5)

/-! Power (R270). -/

/-- R154, R270: STANDBY_ENTRY, while no queue is RUNNING: every row group outside LC7 is invalidated, without a notice. -/
def execStandbyEntry (s : State) : Res :=
  .next (if s.edge.locked || s.ce.queues.any fun q => q.2.running then s
    else { s with
      edge := { s.edge with pstate := 3 }
      clusters := s.clusters.map fun p => (p.1, { p.2 with
        fifo := []
        rows := p.2.rows.map fun r => (r.1, if r.2.cls = 7 then r.2 else { r.2 with valid := false, queued := false }) }) })
/-- R270: CAPPED_STATE_CHANGE, between ACTIVE and CAPPED. -/
def execCappedStateChange (capped : Bool) (s : State) : Res :=
  .next (if 1 < s.edge.pstate then s else { s with edge := { s.edge with pstate := capped.toNat } })

/-! Versions and attestation (R265, R267). -/

/-- R267: the version that two partners settle on, when this one offers 1.0. -/
def settledVersion (partner : List (Nat × Nat)) : Option (Nat × Nat) :=
  (partner.find? fun v => v.1 == 1).map fun v => (1, min 0 v.2)
/-- R267: INTERFACE_NEGOTIATION of one of the five interfaces. R231 gives the event of a closed interface no kind: it is a
free value. -/
def execInterfaceNegotiation (iface : Nat) (partner : List (Nat × Nat)) (s : State) : Res :=
  let v := settledVersion partner
  let s1 : State := { s with edge := { s.edge with versions := AMap.put s.edge.versions iface v } }
  .next (if 5 ≤ iface then s else if v.isSome then s1 else
    let ch := s1.choose
    ch.2.journal { kind := ch.1 % 256, state := 5 })
/-- R265: ATTESTATION_QUOTE; a device in reset signs nothing. -/
def execAttestationQuote (nonce : BitVec 512) (s : State) : Res :=
  .next (if s.edge.locked then s else
    { s with edge := { s.edge with quote := some (Config.quoteSignature nonce s.edge.measured) } })

end Sys2Proof.Machine
end

