-- ==== Sys2Proof/Machine/Host.lean ====
section
/-!
DEFINITION. The UCIe window: management registers, the fault queue, and main memory (R154, R190, R258 to R261, R266).
-/

namespace Sys2Proof.Machine

/-! Management registers (R260). -/

/-- R154, R260: an almanac that keeps every class's budget, has no zero entry, and does not rise with the band. -/
def almanacOk (a : VWord) : Bool :=
  (List.range 16).all fun b => ([63, 250, 1000, 4000, 15625, 62500, 1, 1].zipIdx.all fun p =>
    decide ((p.1 : Nat) ≤ almanacAt a b p.2) && (b == 15 || decide (almanacAt a (b + 1) p.2 ≤ almanacAt a b p.2)))
/-- R260, R270: PSTATE; a device without work may show CLUSTER-IDLE. -/
def State.pstateWord (s : State) : Nat :=
  if s.edge.pstate = 0 ∧ s.cmds.isEmpty ∧ (s.ctxs.all fun p => p.2.state == .idle) ∧ Config.clusterIdle s.cycle = true then 2
  else s.edge.pstate
/-- R256, R260: DBGCTL of a context. -/
def State.dbgctl (s : State) (g : Nat) : Nat :=
  let c := s.ctx g
  c.halt.toNat + 2 * c.step.toNat + 4 * c.attach.toNat + 8 * c.present.toNat + 16 * (c.state == .frozen).toNat
/-- R216, R260: QCFG of a queue; the partition of a privileged queue of none reads 0xF. -/
def State.qcfg (s : State) (q : Nat) : Nat :=
  let x := s.queue q
  ((s.partOf q).map Prod.fst).getD (if x.priv then 0xF else 0) * 2 ^ 12 + x.priv.toNat * 2 ^ 11 + x.prio * 2 ^ 8 + x.log2
/-- R260: a management register, by its offset from 0x40000. Where the configuration record has failed, DEVID and JCFG
alone can be read (R266); in steps 2 to 4 of a cold start DEVID cannot either (R268). -/
def State.mgmtRead (s : State) (off : Nat) : Nat :=
  let e := s.edge
  if off = 0 then if e.locked && e.boot != 1 then 0 else e.part.toNat * 2 ^ 48 + e.dev * 2 ^ 16 + e.clusters.toNat
  else if off = 0x10 then s.ce.jcfg.toNat
  else if e.locked then 0
  else if off = 8 then e.frames
  else if off = 0x18 then e.fqWrite * 2 ^ 32 + e.fqRead
  else if off = 0x20 then e.pwrlim.toNat
  else if off = 0x28 then s.pstateWord
  else if off = 0x30 then e.hostFrames
  else if 0x100 ≤ off ∧ off < 0x900 then
    let q := (off - 0x100) / 32
    match (off - 0x100) % 32 with
    | 0 => (s.queue q).base.toNat
    | 8 => s.qcfg q
    | 16 => (s.queue q).head.toNat * 2 ^ 32 + (s.queue q).running.toNat
    | 24 => (s.queue q).logPtr.toNat * 2 ^ 32
    | _ => 0
  else if 0x1000 ≤ off ∧ off < 0x1300 then
    let c := (off - 0x1000) / 64
    match (off - 0x1000) % 64 with
    | 0 => (AMap.get 0 e.ltsg c).toNat
    | 8 => AMap.get 4 e.ltsr c
    | _ => 0
  else if 0x2000 ≤ off ∧ off < 0x2100 then (u64At e.almanac (off - 0x2000)).toNat
  else if off = 0x2100 then e.hbmrh.toNat
  else if 0x3000 ≤ off ∧ off < 0x4800 then
    let g := (off - 0x3000) / 64
    let i := (off - 0x3000) % 64 / 8
    if i = 0 then s.dbgctl g else if i ≤ 4 then (AMap.get 0 (s.ctx g).bps (i - 1)).toNat else 0
  else 0

/-- Goes on with the state of an outcome. -/
def onNext (r : Res) (f : State → Res) : Res :=
  match r with
  | .next t => f t
  | x => x
/-- R260: a write to a queue's registers: QBASE, QCFG, or QCTL with its three parts. -/
def State.queueWrite (s : State) (q r : Nat) (v : Word) (fw : Bool) : Res :=
  match r with
  | 0 => execQueueConfigWrite q false v fw s
  | 8 => execQueueConfigWrite q true v fw s
  | 24 =>
    onNext (execReplayLogReadPointer q (v.extractLsb' 32 32) s) fun t =>
      onNext (if v.getLsbD 1 then execQctlPreempt q t else .next t) fun t =>
        if v.getLsbD 0 then execQctlRestart q t else .next t
  | _ => .next s
/-- R256, R257, R260: a write to DBGCTL: HALT freezes, STEP issues one bundle, and HALT cleared resumes. -/
def State.dbgctlWrite (s : State) (g : Nat) (v : Word) : Res :=
  let s1 := s.modCtx g fun c => { c with halt := v.getLsbD 0, attach := v.getLsbD 2, present := v.getLsbD 3 }
  if v.getLsbD 1 then execDbgctlStep g s1
  else if v.getLsbD 0 then execDbgctlHalt g s1
  else execDebugResume g s1
/-- The low n bits of a register. -/
def lowBits (v : Word) (n : Nat) : Word := v &&& BitVec.ofNat 64 (2 ^ n - 1)
/-- R260: a write to an LTSG or LTSR register of a cluster by firmware. -/
def Edge.clusterWrite (e : Edge) (c r : Nat) (v : Word) : Edge :=
  match r with
  | 0 => { e with ltsg := AMap.put e.ltsg c (lowBits v 56) }
  | 8 => if 1 ≤ fld v 4 0 ∧ fld v 4 0 ≤ 16 then { e with ltsr := AMap.put e.ltsr c (fld v 4 0) } else e
  | _ => e
/-- R154, R260: the almanac with 8 of its bytes changed. -/
def almanacWith (a : VWord) (off : Nat) (v : Word) : VWord :=
  merge a ((v.zeroExtend 2048 : VWord) <<< (8 * off)) (((BitVec.allOnes 64).zeroExtend 2048 : VWord) <<< (8 * off))
/-- R154, R190, R260: a write to a register of the edges that only firmware writes. -/
def Edge.firmwareWrite (e : Edge) (off : Nat) (v : Word) : Edge :=
  if off = 0x20 then
    if 600 ≤ fld v 15 0 ∧ fld v 15 0 ≤ 2400 then { e with pwrlim := v.truncate 16 } else e
  else if 0x1000 ≤ off ∧ off < 0x1300 then e.clusterWrite ((off - 0x1000) / 64) ((off - 0x1000) % 64) v
  else if 0x2000 ≤ off ∧ off < 0x2100 then
    if almanacOk (almanacWith e.almanac (off - 0x2000) v) then { e with almanac := almanacWith e.almanac (off - 0x2000) v } else e
  else if off = 0x2100 then
    if 1 ≤ fld v 18 16 ∧ fld v 18 16 ≤ 4 ∧ 64 ≤ fld v 15 0 then { e with hbmrh := lowBits v 19 } else e
  else e
/-- R260: MGMT_REGISTER_WRITE at an offset from 0x40000. A register with a row of its own is written as that row says. -/
def execMgmtRegisterWrite (off : Nat) (val : BitVec 64) (fw : Bool) (s : State) : Res :=
  if off % 8 ≠ 0 ∨ !s.hostOpen then .next s
  else if off = 0x10 then execJcfgWrite val fw s
  else if off = 0x18 then execFqptrWrite val s
  else if 0x100 ≤ off ∧ off < 0x900 then s.queueWrite ((off - 0x100) / 32) ((off - 0x100) % 32) val fw
  else if 0x3000 ≤ off ∧ off < 0x4800 then
    let g := (off - 0x3000) / 64
    let i := (off - 0x3000) % 64 / 8
    if i = 0 then s.dbgctlWrite g val
    else if i ≤ 4 then .next (s.modCtx g fun c => { c with bps := AMap.put c.bps (i - 1) (val.truncate 33) })
    else .next s
  else if fw then .next { s with edge := s.edge.firmwareWrite off val }
  else .next s

/-! The fault queue (R261). -/

/-- R261: a page request as its 32 bytes. -/
def PageReq.bytes (r : PageReq) : List Byte :=
  leBytes 8 r.va.toNat ++ leBytes 1 r.part ++ leBytes 1 (r.unit / 4) ++ leBytes 1 (r.unit % 4) ++ leBytes 1 r.kind
    ++ leBytes 1 r.write.toNat ++ leBytes 18 0 ++ leBytes 1 (r.answer == some false).toNat
/-- R261: a byte of the fault queue. -/
def State.faultByte (s : State) (off : Nat) : Byte :=
  match AMap.find s.edge.fq (off / 32) with
  | some r => r.bytes.getD (off % 32) 0
  | none => 0
/-- R261: the host writes a byte of the fault queue: byte 31 of an entry is its answer. -/
def State.faultWrite (s : State) (off : Nat) (b : Byte) : State :=
  if off % 32 ≠ 31 then s else
  match AMap.find s.edge.fq (off / 32) with
  | some r => { s with edge := { s.edge with fq := AMap.put s.edge.fq (off / 32) { r with answer := some (b == 0) } } }
  | none => s

/-! The window (R258). -/

/-- R258, R266, R267: what the host reads: nothing but zero while the interface is closed. -/
def State.windowRead (s : State) (off n : Nat) : List Byte :=
  if s.edge.closed .window then leBytes n 0
  else if 0x40000 ≤ off ∧ off < 0x50000 then
    if off % 8 = 0 ∧ n = 8 then leBytes 8 (s.mgmtRead (off - 0x40000)) else leBytes n 0
  else if s.edge.locked then leBytes n 0
  else (List.range n).map fun i =>
    let a := off + i
    if 0x50000 ≤ a ∧ a < 0x60000 then s.faultByte (a - 0x50000)
    else if 0x10000000000 ≤ a ∧ a < 0x20000000000 ∧ s.mapped (a - 0x10000000000) then
      s.mem.read (physKey (a - 0x10000000000))
    else 0
/-- R258: HOST_WINDOW_ACCESS. -/
def execHostWindowAccess (off : Nat) (op : HostOp) (fw : Bool) (s : State) : Res :=
  match op with
  | .read n => .next { s with edge := { s.edge with hostRead := s.windowRead off n } }
  | .write bytes =>
    let v := leNat bytes
    if !s.hostOpen then .next s
    else if off < 0x40000 then
      if off % 0x1000 = 0 ∧ bytes.length = 4 then execDoorbell (off / 0x1000) (BitVec.ofNat 32 v) s else .next s
    else if off < 0x50000 then
      if bytes.length = 8 then execMgmtRegisterWrite (off - 0x40000) (BitVec.ofNat 64 v) fw s else .next s
    else if off < 0x60000 then .next (bytes.zipIdx.foldl (fun t p => t.faultWrite (off - 0x50000 + p.2) p.1) s)
    else if 0x10000000000 ≤ off ∧ off + bytes.length ≤ 0x20000000000 then .next (s.writePhys (off - 0x10000000000) bytes)
    else .next s

end Sys2Proof.Machine
end

