-- ==== Sys2Proof/Machine/Dispatch.lean ====
section
/-!
DEFINITION. One arm per instruction: the meaning it calls.
-/

namespace Sys2Proof.Machine

/-- The effect of one instruction or step of the device. -/
def exec (i : Instr) (s : State) : Host.Outcome State Fault Refusal :=
  match i with
  | .nop => Sys2Proof.Machine.execNop s
  | .illegalWord w => Sys2Proof.Machine.execIllegalWord w s
  | .print n k => Sys2Proof.Machine.execPrint n k s
  | .fullBundleHeader e => Sys2Proof.Machine.execFullBundleHeader e s
  | .add d a b => Sys2Proof.Machine.execAdd d a b s
  | .sub d a b => Sys2Proof.Machine.execSub d a b s
  | .and d a b => Sys2Proof.Machine.execAnd d a b s
  | .or d a b => Sys2Proof.Machine.execOr d a b s
  | .xor d a b => Sys2Proof.Machine.execXor d a b s
  | .sll d a b => Sys2Proof.Machine.execSll d a b s
  | .srl d a b => Sys2Proof.Machine.execSrl d a b s
  | .sra d a b => Sys2Proof.Machine.execSra d a b s
  | .slt d a b => Sys2Proof.Machine.execSlt d a b s
  | .sltu d a b => Sys2Proof.Machine.execSltu d a b s
  | .min d a b => Sys2Proof.Machine.execMin d a b s
  | .max d a b => Sys2Proof.Machine.execMax d a b s
  | .minu d a b => Sys2Proof.Machine.execMinu d a b s
  | .maxu d a b => Sys2Proof.Machine.execMaxu d a b s
  | .addi d a imm => Sys2Proof.Machine.execAddi d a imm s
  | .andi d a imm => Sys2Proof.Machine.execAndi d a imm s
  | .ori d a imm => Sys2Proof.Machine.execOri d a imm s
  | .xori d a imm => Sys2Proof.Machine.execXori d a imm s
  | .slti d a imm => Sys2Proof.Machine.execSlti d a imm s
  | .slli d a h => Sys2Proof.Machine.execSlli d a h s
  | .srli d a h => Sys2Proof.Machine.execSrli d a h s
  | .srai d a h => Sys2Proof.Machine.execSrai d a h s
  | .li d imm => Sys2Proof.Machine.execLi d imm s
  | .lih d imm => Sys2Proof.Machine.execLih d imm s
  | .lix d imm => Sys2Proof.Machine.execLix d imm s
  | .mul d a b => Sys2Proof.Machine.execMul d a b s
  | .mulh d a b => Sys2Proof.Machine.execMulh d a b s
  | .mulhu d a b => Sys2Proof.Machine.execMulhu d a b s
  | .div d a b => Sys2Proof.Machine.execDiv d a b s
  | .divu d a b => Sys2Proof.Machine.execDivu d a b s
  | .rem d a b => Sys2Proof.Machine.execRem d a b s
  | .remu d a b => Sys2Proof.Machine.execRemu d a b s
  | .clz d a => Sys2Proof.Machine.execClz d a s
  | .ctz d a => Sys2Proof.Machine.execCtz d a s
  | .popc d a => Sys2Proof.Machine.execPopc d a s
  | .brev d a => Sys2Proof.Machine.execBrev d a s
  | .bext d a b => Sys2Proof.Machine.execBext d a b s
  | .bins d a b => Sys2Proof.Machine.execBins d a b s
  | .lea d a b h => Sys2Proof.Machine.execLea d a b h s
  | .cmov d a b => Sys2Proof.Machine.execCmov d a b s
  | .fadd d a b => Sys2Proof.Machine.execFadd d a b s
  | .fsub d a b => Sys2Proof.Machine.execFsub d a b s
  | .fmul d a b => Sys2Proof.Machine.execFmul d a b s
  | .fmin d a b => Sys2Proof.Machine.execFmin d a b s
  | .fmax d a b => Sys2Proof.Machine.execFmax d a b s
  | .feq d a b => Sys2Proof.Machine.execFeq d a b s
  | .flt d a b => Sys2Proof.Machine.execFlt d a b s
  | .fle d a b => Sys2Proof.Machine.execFle d a b s
  | .fcvti d a => Sys2Proof.Machine.execFcvti d a s
  | .fcvtf d a => Sys2Proof.Machine.execFcvtf d a s
  | .ffma d a b => Sys2Proof.Machine.execFfma d a b s
  | .ldb t base off => Sys2Proof.Machine.execLdb t base off s
  | .ldbu t base off => Sys2Proof.Machine.execLdbu t base off s
  | .ldh t base off => Sys2Proof.Machine.execLdh t base off s
  | .ldhu t base off => Sys2Proof.Machine.execLdhu t base off s
  | .ldw t base off => Sys2Proof.Machine.execLdw t base off s
  | .ldwu t base off => Sys2Proof.Machine.execLdwu t base off s
  | .ldd t base off => Sys2Proof.Machine.execLdd t base off s
  | .stb t base off => Sys2Proof.Machine.execStb t base off s
  | .sth t base off => Sys2Proof.Machine.execSth t base off s
  | .stw t base off => Sys2Proof.Machine.execStw t base off s
  | .std t base off => Sys2Proof.Machine.execStd t base off s
  | .vld t base pg off => Sys2Proof.Machine.execVld t base pg off s
  | .vst t base pg off => Sys2Proof.Machine.execVst t base pg off s
  | .vlds d a b w => Sys2Proof.Machine.execVlds d a b w s
  | .vsts d a b w => Sys2Proof.Machine.execVsts d a b w s
  | .vgath d a b w => Sys2Proof.Machine.execVgath d a b w s
  | .vscat d a b w => Sys2Proof.Machine.execVscat d a b w s
  | .naadd d a b z => Sys2Proof.Machine.execNaadd d a b z s
  | .nacas d a b z => Sys2Proof.Machine.execNacas d a b z s
  | .naxch d a b z => Sys2Proof.Machine.execNaxch d a b z s
  | .spill d => Sys2Proof.Machine.execSpill d s
  | .fill d => Sys2Proof.Machine.execFill d s
  | .vspill d => Sys2Proof.Machine.execVspill d s
  | .vfill d => Sys2Proof.Machine.execVfill d s
  | .stackSlide g => Sys2Proof.Machine.execStackSlide g s
  | .inverseSlide g => Sys2Proof.Machine.execInverseSlide g s
  | .vadd vd va vb pg w => Sys2Proof.Machine.execVadd vd va vb pg w s
  | .vsub vd va vb pg w => Sys2Proof.Machine.execVsub vd va vb pg w s
  | .vmul vd va vb pg w => Sys2Proof.Machine.execVmul vd va vb pg w s
  | .vmulh vd va vb pg w => Sys2Proof.Machine.execVmulh vd va vb pg w s
  | .vmin vd va vb pg w => Sys2Proof.Machine.execVmin vd va vb pg w s
  | .vmax vd va vb pg w => Sys2Proof.Machine.execVmax vd va vb pg w s
  | .vabs vd va pg w => Sys2Proof.Machine.execVabs vd va pg w s
  | .vadds vd va vb pg w => Sys2Proof.Machine.execVadds vd va vb pg w s
  | .vand vd va vb pg w => Sys2Proof.Machine.execVand vd va vb pg w s
  | .vor vd va vb pg w => Sys2Proof.Machine.execVor vd va vb pg w s
  | .vxor vd va vb pg w => Sys2Proof.Machine.execVxor vd va vb pg w s
  | .vandn vd va vb pg w => Sys2Proof.Machine.execVandn vd va vb pg w s
  | .vshl vd va vb pg w => Sys2Proof.Machine.execVshl vd va vb pg w s
  | .vshr vd va vb pg w => Sys2Proof.Machine.execVshr vd va vb pg w s
  | .vsra vd va vb pg w => Sys2Proof.Machine.execVsra vd va vb pg w s
  | .vrotl vd va vb pg w => Sys2Proof.Machine.execVrotl vd va vb pg w s
  | .vceq pd va vb pg w => Sys2Proof.Machine.execVceq pd va vb pg w s
  | .vcne pd va vb pg w => Sys2Proof.Machine.execVcne pd va vb pg w s
  | .vclt pd va vb pg w => Sys2Proof.Machine.execVclt pd va vb pg w s
  | .vcle pd va vb pg w => Sys2Proof.Machine.execVcle pd va vb pg w s
  | .vcltu pd va vb pg w => Sys2Proof.Machine.execVcltu pd va vb pg w s
  | .vcleu pd va vb pg w => Sys2Proof.Machine.execVcleu pd va vb pg w s
  | .vaddx vd va vb pg w => Sys2Proof.Machine.execVaddx vd va vb pg w s
  | .vsubx vd va vb pg w => Sys2Proof.Machine.execVsubx vd va vb pg w s
  | .vmulx vd va vb pg w => Sys2Proof.Machine.execVmulx vd va vb pg w s
  | .vshlx vd va vb pg w => Sys2Proof.Machine.execVshlx vd va vb pg w s
  | .vshrx vd va vb pg w => Sys2Proof.Machine.execVshrx vd va vb pg w s
  | .vsrax vd va vb pg w => Sys2Proof.Machine.execVsrax vd va vb pg w s
  | .vminx vd va vb pg w => Sys2Proof.Machine.execVminx vd va vb pg w s
  | .vmaxx vd va vb pg w => Sys2Proof.Machine.execVmaxx vd va vb pg w s
  | .vmov vd va pg w => Sys2Proof.Machine.execVmov vd va pg w s
  | .vbcast vd va pg w => Sys2Proof.Machine.execVbcast vd va pg w s
  | .vsel vd va vb pg w => Sys2Proof.Machine.execVsel vd va vb pg w s
  | .vextr vd va vb w => Sys2Proof.Machine.execVextr vd va vb w s
  | .vins vd va vb w => Sys2Proof.Machine.execVins vd va vb w s
  | .viota vd pg w => Sys2Proof.Machine.execViota vd pg w s
  | .vpopc vd va pg w => Sys2Proof.Machine.execVpopc vd va pg w s
  | .vclz vd va pg w => Sys2Proof.Machine.execVclz vd va pg w s
  | .vperm vd va vb pg w => Sys2Proof.Machine.execVperm vd va vb pg w s
  | .vrot vd va vb pg w => Sys2Proof.Machine.execVrot vd va vb pg w s
  | .vrev vd va pg w => Sys2Proof.Machine.execVrev vd va pg w s
  | .vfadd vd va vb pg w zi zo => Sys2Proof.Machine.execVfadd vd va vb pg w zi zo s
  | .vfsub vd va vb pg w zi zo => Sys2Proof.Machine.execVfsub vd va vb pg w zi zo s
  | .vfmul vd va vb pg w zi zo => Sys2Proof.Machine.execVfmul vd va vb pg w zi zo s
  | .vfmin vd va vb pg w zi zo => Sys2Proof.Machine.execVfmin vd va vb pg w zi zo s
  | .vfmax vd va vb pg w zi zo => Sys2Proof.Machine.execVfmax vd va vb pg w zi zo s
  | .vfabs vd va pg w zi zo => Sys2Proof.Machine.execVfabs vd va pg w zi zo s
  | .vfneg vd va pg w zi zo => Sys2Proof.Machine.execVfneg vd va pg w zi zo s
  | .vfcps vd va vb pg w zi zo => Sys2Proof.Machine.execVfcps vd va vb pg w zi zo s
  | .vfma vd va vb pg w zi zo => Sys2Proof.Machine.execVfma vd va vb pg w zi zo s
  | .vfms vd va vb pg w zi zo => Sys2Proof.Machine.execVfms vd va vb pg w zi zo s
  | .vfeq pd va vb pg w zi => Sys2Proof.Machine.execVfeq pd va vb pg w zi s
  | .vfne pd va vb pg w zi => Sys2Proof.Machine.execVfne pd va vb pg w zi s
  | .vflt pd va vb pg w zi => Sys2Proof.Machine.execVflt pd va vb pg w zi s
  | .vfle pd va vb pg w zi => Sys2Proof.Machine.execVfle pd va vb pg w zi s
  | .vfun pd va vb pg w zi => Sys2Proof.Machine.execVfun pd va vb pg w zi s
  | .vrsum vd va pg w => Sys2Proof.Machine.execVrsum vd va pg w s
  | .vrmax vd va pg w => Sys2Proof.Machine.execVrmax vd va pg w s
  | .vrmin vd va pg w => Sys2Proof.Machine.execVrmin vd va pg w s
  | .vfrsum vd va pg w zi zo => Sys2Proof.Machine.execVfrsum vd va pg w zi zo s
  | .vfrmax vd va pg w zi zo => Sys2Proof.Machine.execVfrmax vd va pg w zi zo s
  | .vfrmin vd va pg w zi zo => Sys2Proof.Machine.execVfrmin vd va pg w zi zo s
  | .vdot vd va vb pg w zi zo => Sys2Proof.Machine.execVdot vd va vb pg w zi zo s
  | .vdota vd va vb pg w zi zo => Sys2Proof.Machine.execVdota vd va vb pg w zi zo s
  | .vrcp vd va pg w zi zo => Sys2Proof.Machine.execVrcp vd va pg w zi zo s
  | .vrsq vd va pg w zi zo => Sys2Proof.Machine.execVrsq vd va pg w zi zo s
  | .vsqrt vd va pg w zi zo => Sys2Proof.Machine.execVsqrt vd va pg w zi zo s
  | .vexp2 vd va pg w zi zo => Sys2Proof.Machine.execVexp2 vd va pg w zi zo s
  | .vlog2 vd va pg w zi zo => Sys2Proof.Machine.execVlog2 vd va pg w zi zo s
  | .vtanh vd va pg w zi zo => Sys2Proof.Machine.execVtanh vd va pg w zi zo s
  | .vsinpi vd va pg w zi zo => Sys2Proof.Machine.execVsinpi vd va pg w zi zo s
  | .verf vd va pg w zi zo => Sys2Proof.Machine.execVerf vd va pg w zi zo s
  | .vbnet vd va vb k => Sys2Proof.Machine.execVbnet vd va vb k s
  | .pand pd pa pb => Sys2Proof.Machine.execPand pd pa pb s
  | .por pd pa pb => Sys2Proof.Machine.execPor pd pa pb s
  | .pxor pd pa pb => Sys2Proof.Machine.execPxor pd pa pb s
  | .pandn pd pa pb => Sys2Proof.Machine.execPandn pd pa pb s
  | .pnot pd pa => Sys2Proof.Machine.execPnot pd pa s
  | .pcnt d pa w => Sys2Proof.Machine.execPcnt d pa w s
  | .pfirst d pa w => Sys2Proof.Machine.execPfirst d pa w s
  | .planes pd b w => Sys2Proof.Machine.execPlanes pd b w s
  | .xcvt vd va dfmt sfmt rm sat part => Sys2Proof.Machine.execXcvt vd va dfmt sfmt rm sat part s
  | .xexp vd va kind part => Sys2Proof.Machine.execXexp vd va kind part s
  | .xpack vd va kind part => Sys2Proof.Machine.execXpack vd va kind part s
  | .xtrn vd va shape => Sys2Proof.Machine.execXtrn vd va shape s
  | .xscl vd va b => Sys2Proof.Machine.execXscl vd va b s
  | .xqnt vd va b => Sys2Proof.Machine.execXqnt vd va b s
  | .beq a b off => Sys2Proof.Machine.execBeq a b off s
  | .bne a b off => Sys2Proof.Machine.execBne a b off s
  | .blt a b off => Sys2Proof.Machine.execBlt a b off s
  | .bge a b off => Sys2Proof.Machine.execBge a b off s
  | .bltu a b off => Sys2Proof.Machine.execBltu a b off s
  | .bgeu a b off => Sys2Proof.Machine.execBgeu a b off s
  | .jmp d imm => Sys2Proof.Machine.execJmp d imm s
  | .jmpr d a => Sys2Proof.Machine.execJmpr d a s
  | .loop x b => Sys2Proof.Machine.execLoop x b s
  | .setfmt x => Sys2Proof.Machine.execSetfmt x s
  | .proof code => Sys2Proof.Machine.execProof code s
  | .vigil x vid => Sys2Proof.Machine.execVigil x vid s
  | .waita x y scope wide cond => Sys2Proof.Machine.execWaita x y scope wide cond s
  | .fence after before scope order => Sys2Proof.Machine.execFence after before scope order s
  | .spawn x y n k => Sys2Proof.Machine.execSpawn x y n k s
  | .susp x y aff => Sys2Proof.Machine.execSusp x y aff s
  | .done => Sys2Proof.Machine.execDone s
  | .trig => Sys2Proof.Machine.execTrig s
  | .trap code => Sys2Proof.Machine.execTrap code s
  | .eret => Sys2Proof.Machine.execEret s
  | .crd x r => Sys2Proof.Machine.execCrd x r s
  | .cwr x r => Sys2Proof.Machine.execCwr x r s
  | .bkpt code => Sys2Proof.Machine.execBkpt code s
  | .engrave x y c => Sys2Proof.Machine.execEngrave x y c s
  | .bnset x k => Sys2Proof.Machine.execBnset x k s
  | .ewr r a => Sys2Proof.Machine.execEwr r a s
  | .ewrErhtTail idx a => Sys2Proof.Machine.execEwrErhtTail idx a s
  | .erd a r => Sys2Proof.Machine.execErd a r s
  | .mma ar br bank clr a => Sys2Proof.Machine.execMma ar br bank clr a s
  | .mzero bank => Sys2Proof.Machine.execMzero bank s
  | .mret bank lsf layout a b => Sys2Proof.Machine.execMret bank lsf layout a b s
  | .mgang mask bank clr a b => Sys2Proof.Machine.execMgang mask bank clr a b s
  | .flu variant a b => Sys2Proof.Machine.execFlu variant a b s
  | .fchol variant a b => Sys2Proof.Machine.execFchol variant a b s
  | .fqr a b => Sys2Proof.Machine.execFqr a b s
  | .ftrsm right upper tr unit a b => Sys2Proof.Machine.execFtrsm right upper tr unit a b s
  | .cpy a b => Sys2Proof.Machine.execCpy a b s
  | .coll a => Sys2Proof.Machine.execColl a s
  | .gld order scope z a b => Sys2Proof.Machine.execGld order scope z a b s
  | .gst order scope z a b => Sys2Proof.Machine.execGst order scope z a b s
  | .gaadd order scope z a b => Sys2Proof.Machine.execGaadd order scope z a b s
  | .gacas order scope z a b => Sys2Proof.Machine.execGacas order scope z a b s
  | .gaxch order scope z a b => Sys2Proof.Machine.execGaxch order scope z a b s
  | .gamax order scope z a b => Sys2Proof.Machine.execGamax order scope z a b s
  | .gamin order scope z a b => Sys2Proof.Machine.execGamin order scope z a b s
  | .wstrm a => Sys2Proof.Machine.execWstrm a s
  | .strb dir q a => Sys2Proof.Machine.execStrb dir q a s
  | .stru q => Sys2Proof.Machine.execStru q s
  | .lref a b => Sys2Proof.Machine.execLref a b s
  | .lqry a b => Sys2Proof.Machine.execLqry a b s
  | .phint access tier a b => Sys2Proof.Machine.execPhint access tier a b s
  | .pmig a b => Sys2Proof.Machine.execPmig a b s
  | .launch q => Sys2Proof.Machine.execLaunch q s
  | .semsig q => Sys2Proof.Machine.execSemsig q s
  | .semwait q => Sys2Proof.Machine.execSemwait q s
  | .semwaitConditionMet q => Sys2Proof.Machine.execSemwaitConditionMet q s
  | .semtmo q => Sys2Proof.Machine.execSemtmo q s
  | .qbarrier q => Sys2Proof.Machine.execQbarrier q s
  | .timestamp q => Sys2Proof.Machine.execTimestamp q s
  | .jmark q => Sys2Proof.Machine.execJmark q s
  | .migrate q => Sys2Proof.Machine.execMigrate q s
  | .partcfg q => Sys2Proof.Machine.execPartcfg q s
  | .recordPickup g => Sys2Proof.Machine.execRecordPickup g s
  | .spawnedContextStart g => Sys2Proof.Machine.execSpawnedContextStart g s
  | .proofSeal g => Sys2Proof.Machine.execProofSeal g s
  | .strikeReport core => Sys2Proof.Machine.execStrikeReport core s
  | .trapEntry g => Sys2Proof.Machine.execTrapEntry g s
  | .preemptFreeze g => Sys2Proof.Machine.execPreemptFreeze g s
  | .preemptSave g => Sys2Proof.Machine.execPreemptSave g s
  | .contextResume g => Sys2Proof.Machine.execContextResume g s
  | .calends k => Sys2Proof.Machine.execCalends k s
  | .kernelCompletion k => Sys2Proof.Machine.execKernelCompletion k s
  | .watchdogCheck => Sys2Proof.Machine.execWatchdogCheck s
  | .watchdogDrain p => Sys2Proof.Machine.execWatchdogDrain p s
  | .ageTick c => Sys2Proof.Machine.execAgeTick c s
  | .ltsExpiry c => Sys2Proof.Machine.execLtsExpiry c s
  | .refreshServiceSlot c => Sys2Proof.Machine.execRefreshServiceSlot c s
  | .matrixKstep core bank => Sys2Proof.Machine.execMatrixKstep core bank s
  | .mretDrain core bank => Sys2Proof.Machine.execMretDrain core bank s
  | .gangCompletion n => Sys2Proof.Machine.execGangCompletion n s
  | .factorStop n => Sys2Proof.Machine.execFactorStop n s
  | .copyCompletion n => Sys2Proof.Machine.execCopyCompletion n s
  | .globalAccessCompletion n => Sys2Proof.Machine.execGlobalAccessCompletion n s
  | .collCompletion n parts => Sys2Proof.Machine.execCollCompletion n parts s
  | .weightStreamTile c => Sys2Proof.Machine.execWeightStreamTile c s
  | .streamPrefetch g q => Sys2Proof.Machine.execStreamPrefetch g q s
  | .vigilCompletion g => Sys2Proof.Machine.execVigilCompletion g s
  | .vigilto g => Sys2Proof.Machine.execVigilto g s
  | .replaydiv k => Sys2Proof.Machine.execReplaydiv k s
  | .pmigPageMigration n => Sys2Proof.Machine.execPmigPageMigration n s
  | .noleveRemoteAccess src pa op => Sys2Proof.Machine.execNoleveRemoteAccess src pa op s
  | .tlbShootdown p range => Sys2Proof.Machine.execTlbShootdown p range s
  | .doorbell q tail => Sys2Proof.Machine.execDoorbell q tail s
  | .queueConfigWrite q cfg val fw => Sys2Proof.Machine.execQueueConfigWrite q cfg val fw s
  | .qctlRestart q => Sys2Proof.Machine.execQctlRestart q s
  | .qctlPreempt q => Sys2Proof.Machine.execQctlPreempt q s
  | .replayLogReadPointer q val => Sys2Proof.Machine.execReplayLogReadPointer q val s
  | .jcfgWrite val fw => Sys2Proof.Machine.execJcfgWrite val fw s
  | .fqptrWrite val => Sys2Proof.Machine.execFqptrWrite val s
  | .dbgctlHalt g => Sys2Proof.Machine.execDbgctlHalt g s
  | .dbgctlStep g => Sys2Proof.Machine.execDbgctlStep g s
  | .debuggerStateWrite g target => Sys2Proof.Machine.execDebuggerStateWrite g target s
  | .debuggerRelease g => Sys2Proof.Machine.execDebuggerRelease g s
  | .parcelBreakpoint g => Sys2Proof.Machine.execParcelBreakpoint g s
  | .mgmtRegisterWrite off val fw => Sys2Proof.Machine.execMgmtRegisterWrite off val fw s
  | .hostWindowAccess off op fw => Sys2Proof.Machine.execHostWindowAccess off op fw s
  | .channelRetirement ch => Sys2Proof.Machine.execChannelRetirement ch s
  | .channelRetrain ch ev => Sys2Proof.Machine.execChannelRetrain ch ev s
  | .rowActivation bank row => Sys2Proof.Machine.execRowActivation bank row s
  | .refreshWindow bank => Sys2Proof.Machine.execRefreshWindow bank s
  | .coldStart checks => Sys2Proof.Machine.execColdStart checks s
  | .deviceReset => Sys2Proof.Machine.execDeviceReset s
  | .standbyEntry => Sys2Proof.Machine.execStandbyEntry s
  | .interfaceNegotiation iface partner => Sys2Proof.Machine.execInterfaceNegotiation iface partner s
  | .attestationQuote nonce => Sys2Proof.Machine.execAttestationQuote nonce s
  | .debugResume g => Sys2Proof.Machine.execDebugResume g s
  | .lqryServed n => Sys2Proof.Machine.execLqryServed n s
  | .cappedStateChange capped => Sys2Proof.Machine.execCappedStateChange capped s

end Sys2Proof.Machine
end

