-- ==== Sys2Proof/Machine/Schedule.lean ====
section
/-!
DEFINITION. When the steps of the device happen: what is due, what may happen, the order of the contexts of a core, the end
of a cycle, and where the first instruction of a program stands (R11, R156, R157, R222, R229, R240; log entry 5). A step is
named by its meaning, the one that exec's arm calls.
-/

namespace Sys2Proof.Machine

/-! Steps that are due (log entry 5). -/

/-- The steps that the outside world takes; the others follow from the state. -/
def isOutside (i : Instr) : Bool :=
  match i with
  | .strikeReport _ | .collCompletion _ _ | .noleveRemoteAccess _ _ _ | .tlbShootdown _ _ | .doorbell _ _
  | .queueConfigWrite _ _ _ _ | .qctlRestart _ | .qctlPreempt _ | .replayLogReadPointer _ _ | .jcfgWrite _ _
  | .fqptrWrite _ | .dbgctlHalt _ | .dbgctlStep _ | .debuggerStateWrite _ _ | .debuggerRelease _ | .debugResume _
  | .mgmtRegisterWrite _ _ _ | .hostWindowAccess _ _ _ | .channelRetirement _ | .channelRetrain _ _
  | .rowActivation _ _ | .refreshWindow _ | .coldStart _ | .deviceReset | .standbyEntry | .interfaceNegotiation _ _
  | .attestationQuote _ | .cappedStateChange _ => true
  | _ => false
/-- R230, R234, R240, R359, R221: a step of the device that is due now. -/
def State.dueStep (s : State) : Option (State → Res) :=
  ((s.ctxs.find? fun p => s.vigilMet p.1).map fun p => execVigilCompletion p.1)
    <|> ((s.ce.parts.find? fun p => p.2.drain.isSome).map fun p => execWatchdogDrain p.1)
    <|> ((s.ctxs.find? fun p => s.sealDue p.1).map fun p => execProofSeal p.1)
    <|> ((s.ce.queues.find? fun p => ((s.waiting p.1).map s.semLate).getD false).map fun p => execSemtmo p.1)
    <|> ((s.ce.kernels.find? fun p => s.latePick p.2 || (s.lateAtomic p.1 p.2).isSome).map fun p => execReplaydiv p.1)
/-- A step of the outside world whose cycle has come. -/
def State.inboxDue (s : State) : Option Instr :=
  match s.inbox with
  | [] => none
  | p :: _ => if p.1 ≤ s.cycle then some p.2 else none
/-- The step leaves the inbox. -/
def State.takeInbox (s : State) : State := { s with inbox := s.inbox.tail }

/-! Steps that may happen (log entry 5). -/

/-- The row of the opcode table for a queue command. -/
def commandStep (q op : Nat) : State → Res :=
  match op with
  | 2 => execSemsig q
  | 3 => execSemwait q
  | 4 => execQbarrier q
  | 5 => execTimestamp q
  | 6 => execJmark q
  | 7 => execMigrate q
  | 8 => execPartcfg q
  | _ => execLaunch q
/-- R222: the queue whose turn it is, and commands that have been waiting. -/
def State.queueSteps (s : State) : List (State → Res) :=
  (match s.nextQueue with
    | some q => ((s.nextOp q).map (commandStep q)).toList
    | none => [])
  ++ (s.ce.queues.filter fun p => ((s.waiting p.1).map s.semMet).getD false).map (fun p => execSemwaitConditionMet p.1)
  ++ (s.ce.queues.filter fun p => (s.barrierDue p.1).isSome).map fun p => execQbarrier p.1
/-- R23, R223 to R225, R228: the contexts that take a record or come back from their slots. This happens at the end of a
cycle, so that a SPAWN of the same cycle claims its target first. -/
def State.pickupSteps (s : State) : List (State → Res) :=
  (if s.ce.pool.isEmpty then [] else
    ((List.range 96).filter fun g => (s.offered g).isSome).map fun g => execRecordPickup g)
  ++ (s.ce.saved.filter fun p => (s.offeredSaved p.1).isSome).map (fun p => execContextResume p.1)
/-- R229, R235: kernels. -/
def State.kernelSteps (s : State) : List (State → Res) :=
  (s.ce.kernels.filter fun p => s.calendsDue p.1).map (fun p => execCalends p.1)
  ++ (s.ce.kernels.filter fun p => s.completionDue p.1).map fun p => execKernelCompletion p.1
/-- R257: a step of an engine of a core (0 the array, 1 the copy unit, 2 the streams). Of a tied core each engine takes at
most one step for each debug step (log entry 17). -/
def State.paced (s : State) (core engine : Nat) (f : State → Res) : List (State → Res) :=
  if s.mayPace core engine then [fun t => f (t.spendPace core engine)] else []
/-- R23, R141, R142, R146, R252: what contexts wait for. -/
def State.contextSteps (s : State) : List (State → Res) :=
  s.ctxs.flatMap fun p =>
    (if s.spawnReady p.1 then [execSpawnedContextStart p.1] else [])
    ++ (if s.saveDue p.1 then [execPreemptSave p.1] else [])
    ++ (if s.slideDue p.1 false then s.paced (coreOf p.1) 1 (execStackSlide p.1) else [])
    ++ (if s.slideDue p.1 true then s.paced (coreOf p.1) 1 (execInverseSlide p.1) else [])
    ++ ((List.range 8).filter fun q => s.canFetch p.1 q).flatMap fun q => s.paced (coreOf p.1) 2 (execStreamPrefetch p.1 q)
/-- The step that works on an engine command. -/
def State.cmdSteps (s : State) (c : Cmd) : List (State → Res) :=
  let core := coreOf c.by_.g
  match c.op with
  | .mma j => s.paced core 0 (execMatrixKstep core j.bank)
  | .mret bank _ _ _ _ _ _ _ => s.paced core 0 (execMretDrain core bank)
  | .gang _ j _ =>
    let members := (List.range 4).map fun m => clusterOf c.by_.g * 4 + m
    members.flatMap (fun m => s.paced m 0 (execMatrixKstep m j.bank)) ++ s.paced core 0 (execGangCompletion c.id)
  | .factor _ => s.paced core 0 (execFactorStop c.id)
  | .cpy _ _ _ => s.paced core 1 (execCopyCompletion c.id)
  | .coll p _ =>
    if c.second ∨ s.collAstray p = true ∨ u16At p 2 = 1 ∨ c.prog = 1 ∨ !c.left.isEmpty then
      (if s.mayPace core 1 then [execCollCompletion c.id []] else [])
    else []
  | .dpath _ _ _ _ _ _ _ => s.paced core 1 (execGlobalAccessCompletion c.id)
  | .wstrm _ _ _ => s.paced core 1 (execWeightStreamTile (clusterOf c.by_.g))
  | .lqry _ _ => s.paced core 1 (execLqryServed c.id)
  | .pmig _ _ _ => s.paced core 1 (execPmigPageMigration c.id)
  | o => match o.releaseEngine with
    | some e => if s.releaseDue c && s.mayPace core e then [fun t => .next t.settle] else []
    | none => []
/-- R180, R257: replays that an answer has left to a debug step. -/
def State.unitSteps (s : State) : List (State → Res) :=
  (s.units.filter fun p => !p.2.due.isEmpty).flatMap fun p => s.paced p.1 1 fun t => .next (t.replayDue p.1)
/-- Everything that may happen next, beside the next turn or the end of the cycle. -/
def State.options (s : State) : List (State → Res) :=
  if 96 < s.turn then [] else if s.turn = 96 then s.pickupSteps else
  (if s.bootDue then [bootStep] else []) ++ s.queueSteps ++ s.kernelSteps ++ s.contextSteps ++ s.cmds.flatMap s.cmdSteps
    ++ s.unitSteps

/-! The turns of a cycle (R11). -/

/-- R11: the context of a turn: of each core, the one that holds priority comes first. -/
def State.turnContext (s : State) : Nat :=
  let first := if (s.core (s.turn / 2)).prioB then 1 else 0
  s.turn / 2 * 2 + (if s.turn % 2 = 0 then first else 1 - first)
/-- R11: the slots that the bundle in issue occupies. -/
def Issue.occupied (i : Issue) : List Nat := (List.range 8).filter fun k => i.words.getD k 0 != 0
/-- R12: after the turns of both contexts of a core, what they have written at issue takes effect. -/
def State.closeTurn (s : State) (turn : Nat) : State := if turn % 2 = 1 then s.landLate else s
/-- R12: the first of a core's contexts has written at issue, and the second has yet to take its turn: nothing comes between. -/
def State.midPair (s : State) : Bool := !s.late.isEmpty && s.turn % 2 == 1 && decide (s.turn < 96)
/-- R11: what a turn has come to: a stalled bundle occupies nothing, and a bundle that meets an occupied slot does not
issue: its context takes priority. -/
def State.endTurn (before after : State) (g : Nat) : State :=
  let slots := if after.iss.verdict = .stall then [] else after.iss.occupied
  if before.turn % 2 = 1 ∧ slots.any before.busy.contains then
    ({ before.modCore (coreOf g) (fun c => { c with prioB := g % 2 = 1 }) with turn := before.turn + 1, busy := [] } : State).closeTurn
      before.turn
  else ({ after.afterStep g with
    turn := before.turn + 1, busy := if before.turn % 2 = 0 then slots else [] } : State).closeTurn before.turn
/-- The context whose turn it is has nothing to do. -/
def State.idleTurn (s : State) : State := ({ s with turn := s.turn + 1, busy := [] } : State).closeTurn s.turn
/-- R17, R246, R247, R252, R256, R257, R361: what stands at the boundary of a context before its next bundle. -/
def State.boundary (s : State) (g : Nat) : Option (State → Res) :=
  let c := s.ctx g
  if c.syncDue then some (execTrapEntry g)
  else if s.vigilLate g then some (execVigilto g)
  else if c.step then none
  else if c.atBreakpoint then some (execParcelBreakpoint g)
  else if c.expiryDue then some (execTrapEntry g)
  else if s.freezeAsked g then some (if s.freezeDue g then execPreemptFreeze g else fun t => .next t)
  else if c.halt then some (execDbgctlHalt g)
  else none
/-- A context that issues: RUNNING, with nothing to wait for before its next bundle. -/
def State.issues (s : State) (g : Nat) : Bool := (s.ctx g).state == .running && !s.notYet g
/-- The context whose turn it is, at its boundary. -/
def State.atTurn (s : State) : State :=
  let g := s.turnContext
  { s.prepare g with cur := g, slot := 0, iss := { Issue.reset with parcel := (s.ctx g).arch.pc } }

/-! The end of a cycle (R155 to R157, R229, R295, R306, R361). -/

/-- R155: age tick n of a cluster is 268.8 n cycles after its reset. -/
def State.ageDue (s : State) (cl : Nat) : Bool := decide ((((s.cluster cl).ages + 1) * 2688 + 10 * (s.cluster cl).since) ≤ 10 * s.cycle)
/-- R156: service slot n of a cluster begins 64 n cycles after its first age tick. -/
def State.slotDue (s : State) (cl : Nat) : Bool := decide ((s.cluster cl).since + 269 + Config.serviceSlot * (s.cluster cl).slots ≤ s.cycle)
/-- What the end of a cycle still has to do: the watchdog check; of each cluster its age tick, then expiries, then its
service slot. -/
def State.endStep (s : State) : Option (State → Res) :=
  let cls := List.range 12
  if s.turn = 96 ∧ s.cycle % Config.watchdogPeriod = 0 then some execWatchdogCheck
  else ((cls.find? s.ageDue).map execAgeTick)
    <|> ((cls.find? s.anyExpired).map execLtsExpiry)
    <|> ((cls.find? s.slotDue).map execRefreshServiceSlot)
/-- R295, R306: what a core's registers and stencils take at the end of a cycle. -/
def Core.closeCycle (k : Core) (cycle : Nat) : Core :=
  let done := k.bnWrites.filter fun w => decide (w.2.2.2.1 ≤ cycle)
  { k with
    erng := k.erngNext.foldl (fun m p => AMap.put m p.1 p.2) k.erng
    erngNext := []
    appended := []
    stencils := done.foldl (fun m w => AMap.put m w.2.1 w.2.2.2.2) k.stencils
    bnWrites := k.bnWrites.filter fun w => !decide (w.2.2.2.1 ≤ cycle) }
/-- R59: the value of an ERD of asynchronous status that has not landed: the one it has, or the register's at the end of
this cycle, by choice n. What the register holds beside its status stays as at issue. -/
def State.resample (s : State) (g n : Nat) (p : Pending) : Pending :=
  match p.sample, p.sample.bind (s.engineRead g) with
  | some r, some v =>
    if Config.pick n % 2 = 0 ∨ p.tick < (s.ctx g).arch.tick then p
    else { p with val := (merge (p.val.truncate 64) v (asyncBits r)).zeroExtend 2048 }
  | _, _ => p
/-- R59: the pending ERDs of a context. -/
def State.resampleCtx (s : State) (g : Nat) : State :=
  let c := s.ctx g
  if (c.arch.pend ++ (c.entry.bind EntryRec.pend).getD []).any fun p => p.sample.isSome then s.mapPending g (s.resample g)
  else s
/-- R113, R129, R189, R191: an error that ECC cannot correct arises (log entry 50). In HBM, parity corrects it but in a
group with a retired channel, where the granule is poisoned; in scratch memory it carries no poison mark. -/
def State.strikeGranule (s : State) (g : Nat) : State :=
  if s.poison.contains g then s else
  match groupOf (64 * g) with
  | some grp =>
    if s.edge.groupHas grp Channel.retired && decide (64 * g < physKey (s.edge.frames * 0x200000)) then s.addPoison [g] else s
  | none =>
    if 64 * g < 0x100000000000 then { s with poison := NSet.add s.poison g, flawed := NSet.add s.flawed g } else s
/-- The error of this cycle, if there is one. -/
def State.softErrors (s : State) : State := ((Config.softError s.cycle).map s.strikeGranule).getD s
/-- R361: a vigil's timer is held while its context is frozen. -/
def Ctx.holdVigil (c : Ctx) : Ctx :=
  if c.state = .frozen then
    { c with arrival := c.arrival.map fun a => { a with since := a.since + 1 } } else c
/-- R361: the timer of a saved context is held. -/
def Saved.holdVigil (v : Saved) : Saved := { v with arrival := v.arrival.map fun a => { a with since := a.since + 1 } }
/-- What a context takes at the end of a cycle: an event of AEVT is no longer of this cycle (R302). -/
def Ctx.closeCycle (c : Ctx) : Ctx := { c.holdVigil with aevtNew := 0 }
/-- The cycle ends. -/
def State.closeCycle (s0 : State) : State :=
  let s := (s0.ctxs.foldl (fun t p => t.resampleCtx p.1) s0).softErrors
  let s1 : State := { s with
    cores := s.cores.map fun p => (p.1, p.2.closeCycle s.cycle)
    ctxs := s.ctxs.map fun p => (p.1, p.2.closeCycle)
    ce := { s.ce with saved := s.ce.saved.map fun p => (p.1, p.2.holdVigil) } }
  { s1.noteWaits with cycle := s.cycle + 1, turn := 0, busy := [] }

/-! The first instruction of a program (log entry 4). -/

/-- R64: a slot that may hold a major opcode. -/
def slotOfMajor (m : Nat) : Nat :=
  if m ≤ 0x10 then 1 else if m ≤ 0x21 then 3 else if m ≤ 0x38 then 5 else if m ≤ 0x44 then 6 else if m ≤ 0x68 then 0 else 7
/-- R32: the eight words of a bundle with one slot word, in a slot that may hold it. -/
def oneSlot (w : Nat) : List SlotWord :=
  (List.range 8).map fun k => if k = slotOfMajor (w / 2 ^ 25) then BitVec.ofNat 32 w else 0
/-- R31, R32: an instruction as its program's bytes: a parcel of its own, or a full bundle that engraves nothing with the
word in one slot. -/
def programBytes (nbits w : Nat) : List Byte :=
  if nbits = 16 then leBytes 2 w else leBytes 2 0xC000 ++ (oneSlot w).flatMap fun x => leBytes 4 x.toNat
/-- R47: the signature of the program's first block. -/
def programSignature (nbits w : Nat) : Nat := if nbits = 16 then 0 else (crcWords 0xFFFF (oneSlot w)).toNat
/-- R219: a descriptor of a free-mode supervisor kernel: code at the start of the LTS, its signature table at physical
address 0, windows of the whole near store, and an initial FMT as at core reset. -/
def programDesc : VWord :=
  let w := leBytes 4
  BitVec.ofNat 2048 (leNat (
    leBytes 8 0 ++ w 34 ++ w 0x10000000 ++ leBytes 16 0 ++ leBytes 3 0 ++ leBytes 1 1 ++ w 1 ++ leBytes 8 0
    ++ w 1 ++ w 0xC000 ++ leBytes 8 0 ++ w 0 ++ w 0 ++ w 0 ++ w 0x7FFFF ++ w 0 ++ w 0x7FFFF
    ++ w 0x40000 ++ w 0x48000 ++ w 0x50000 ++ w 0x58000 ++ leBytes 8 0 ++ w 0x1000 ++ w 0x10000000
    ++ w 0x13FFFFFF ++ w 0 ++ leBytes 44 0 ++ w 0x100))
/-- The command that launched the program. -/
def programCommand : Started := ⟨0, 1, 1, 0, 0, 0, 0, none, none⟩
/-- A program is in the machine: its code and signature table, its kernel, and a pickup of its first record by context 0,
whose turn it is. -/
def State.placeProgram (s : State) (bytes : List Byte) (signature : Nat) : State :=
  let kid := s.ce.nextKernel
  let k := newKernel 0 0 0 s.ce.nextOrder programCommand programDesc []
  let code := bytes.zipIdx.map fun p => (ltsKey 0 p.2, p.1)
  let table := (leBytes 4 0 ++ leBytes 4 signature).zipIdx.map fun p => (physKey p.2, p.1)
  let s1 := (s.store code none (some (7, 0))).writeCells table
  let s2 : State := { s1 with
    turn := 0
    busy := []
    ce := { s1.ce with
      kernels := AMap.put s1.ce.kernels kid k
      nextKernel := kid + 1
      nextOrder := s1.ce.nextOrder + 1
      nextGen := s1.ce.nextGen + 1 } }
  (s2.modCore 0 fun c => { c with prioB := false, loaded := some kid }).setCtx 0
    ((s.ctx 0).start 0 programDesc kid s1.ce.nextGen 0 0 0 0 0 0xC000 [])

end Sys2Proof.Machine
end

