-- ==== Sys2Proof/Machine/Step.lean ====
section
/-!
DEFINITION. One step of the machine: what is due, what the outside world does, what may happen, or the next turn of a
context (log entry 5).
-/

namespace Sys2Proof.Machine

/-- R11, R17, R30, R246: the turn of a context that issues: what stands at its boundary, or the instruction at its fetch
position. -/
def State.issueTurn (s : State) (g : Nat) : Host.Outcome State Fault Refusal :=
  let t := s.atTurn
  match t.boundary g with
  | some f => match f t with
    | .next u => .next (u.afterStep g).idleTurn
    | r => r
  | none => match t.fetch with
    | .outside => .fault .fetchOutsideLts
    | .bad c => .next (t.endTurn (t.raise c) g)
    | .instr i => match exec i t with
      | .next u => .next (t.endTurn u g)
      | r => r
/-- R11: the turn of one context of a core. -/
def State.takeTurn (s : State) : Host.Outcome State Fault Refusal :=
  if s.issues s.turnContext then s.issueTurn s.turnContext else .next s.idleTurn
/-- The end of a cycle: what is due at it, then the next cycle. -/
def State.endCycle (s : State) : Host.Outcome State Fault Refusal :=
  match s.endStep with
  | some f => f { s with turn := 97 }
  | none => .next s.closeCycle
/-- What follows when nothing else happens: the next turn, or the end of the cycle. -/
def State.proceed (s : State) : Host.Outcome State Fault Refusal :=
  if 96 ≤ s.turn then s.endCycle else s.takeTurn
/-- One of the steps that may happen, or what follows: a free choice. -/
def State.chooseStep (s : State) (l : List (State → Res)) : Host.Outcome State Fault Refusal :=
  match l[s.choose.1 % (l.length + 1)]? with
  | some f => f s.choose.2
  | none => s.choose.2.proceed
/-- What follows when nothing is due. -/
def State.goOn (s : State) : Host.Outcome State Fault Refusal :=
  match s.options with
  | [] => s.proceed
  | l => s.chooseStep l
/-- One step of the machine. -/
def step (s : State) : Host.Outcome State Fault Refusal :=
  if s.midPair then s.proceed else
  match s.dueStep with
  | some f => f s
  | none => match s.inboxDue with
    | some i => if isOutside i then exec i s.takeInbox else .next s.takeInbox
    | none => s.goOn

/-- The state with an instruction's word stored where the next step fetches (log entry 4): a parcel, or a full bundle with
the word in a slot that may hold it. -/
def State.withFetchWord (s : State) (nbits w : Nat) : State :=
  s.placeProgram (programBytes nbits w) (programSignature nbits w)

end Sys2Proof.Machine
end

