-- ==== Sys2Proof/Laws/Encoding.lean ====
section
/-!
SUPPORT. The fields of encoded slot words, and the major of a word as the decoder's choice: what the round trips of
Laws/PerInstr.lean rest on.
-/

namespace Sys2Proof.Laws.Encoding

theorem bits_A_op (op d a b fn lo len) (h1 : 25 ≤ lo) :
    bits (encA op d a b fn) lo len = op.extractLsb' (lo - 25) len := by
  show (op ++ d ++ a ++ b ++ fn : BitVec (7 + 5 + 5 + 5 + 10)).extractLsb' lo len = _
  rw [BitVec.extractLsb'_append_eq_of_le (by omega),
    BitVec.extractLsb'_append_eq_of_le (by omega),
    BitVec.extractLsb'_append_eq_of_le (by omega),
    BitVec.extractLsb'_append_eq_of_le (by omega)]
  simp only [Nat.sub_sub, Nat.reduceAdd]
theorem bits_A_d (op d a b fn lo len) (h1 : 20 ≤ lo) (h2 : lo + len ≤ 25) :
    bits (encA op d a b fn) lo len = d.extractLsb' (lo - 20) len := by
  show (op ++ d ++ a ++ b ++ fn : BitVec (7 + 5 + 5 + 5 + 10)).extractLsb' lo len = _
  rw [BitVec.extractLsb'_append_eq_of_le (by omega),
    BitVec.extractLsb'_append_eq_of_le (by omega),
    BitVec.extractLsb'_append_eq_of_le (by omega),
    BitVec.extractLsb'_append_eq_of_add_le (by omega)]
  simp only [Nat.sub_sub, Nat.reduceAdd]
theorem bits_A_a (op d a b fn lo len) (h1 : 15 ≤ lo) (h2 : lo + len ≤ 20) :
    bits (encA op d a b fn) lo len = a.extractLsb' (lo - 15) len := by
  show (op ++ d ++ a ++ b ++ fn : BitVec (7 + 5 + 5 + 5 + 10)).extractLsb' lo len = _
  rw [BitVec.extractLsb'_append_eq_of_le (by omega),
    BitVec.extractLsb'_append_eq_of_le (by omega),
    BitVec.extractLsb'_append_eq_of_add_le (by omega)]
  simp only [Nat.sub_sub, Nat.reduceAdd]
theorem bits_A_b (op d a b fn lo len) (h1 : 10 ≤ lo) (h2 : lo + len ≤ 15) :
    bits (encA op d a b fn) lo len = b.extractLsb' (lo - 10) len := by
  show (op ++ d ++ a ++ b ++ fn : BitVec (7 + 5 + 5 + 5 + 10)).extractLsb' lo len = _
  rw [BitVec.extractLsb'_append_eq_of_le (by omega),
    BitVec.extractLsb'_append_eq_of_add_le (by omega)]
theorem bits_A_fn (op d a b fn lo len) (h2 : lo + len ≤ 10) :
    bits (encA op d a b fn) lo len = fn.extractLsb' lo len := by
  show (op ++ d ++ a ++ b ++ fn : BitVec (7 + 5 + 5 + 5 + 10)).extractLsb' lo len = _
  rw [BitVec.extractLsb'_append_eq_of_add_le (by omega)]
theorem flag_A_fn (op d a b fn i) (h2 : i < 10) :
    flag (encA op d a b fn) i = fn.getLsbD i := by
  show (op ++ d ++ a ++ b ++ fn : BitVec (7 + 5 + 5 + 5 + 10)).getLsbD i = _
  rw [BitVec.getLsbD_append, if_pos (by omega)]
theorem bits_B_op (op d a imm lo len) (h1 : 25 ≤ lo) :
    bits (encB op d a imm) lo len = op.extractLsb' (lo - 25) len := by
  show (op ++ d ++ a ++ imm : BitVec (7 + 5 + 5 + 15)).extractLsb' lo len = _
  rw [BitVec.extractLsb'_append_eq_of_le (by omega),
    BitVec.extractLsb'_append_eq_of_le (by omega),
    BitVec.extractLsb'_append_eq_of_le (by omega)]
  simp only [Nat.sub_sub, Nat.reduceAdd]
theorem bits_B_d (op d a imm lo len) (h1 : 20 ≤ lo) (h2 : lo + len ≤ 25) :
    bits (encB op d a imm) lo len = d.extractLsb' (lo - 20) len := by
  show (op ++ d ++ a ++ imm : BitVec (7 + 5 + 5 + 15)).extractLsb' lo len = _
  rw [BitVec.extractLsb'_append_eq_of_le (by omega),
    BitVec.extractLsb'_append_eq_of_le (by omega),
    BitVec.extractLsb'_append_eq_of_add_le (by omega)]
  simp only [Nat.sub_sub, Nat.reduceAdd]
theorem bits_B_a (op d a imm lo len) (h1 : 15 ≤ lo) (h2 : lo + len ≤ 20) :
    bits (encB op d a imm) lo len = a.extractLsb' (lo - 15) len := by
  show (op ++ d ++ a ++ imm : BitVec (7 + 5 + 5 + 15)).extractLsb' lo len = _
  rw [BitVec.extractLsb'_append_eq_of_le (by omega),
    BitVec.extractLsb'_append_eq_of_add_le (by omega)]
theorem bits_B_imm (op d a imm lo len) (h2 : lo + len ≤ 15) :
    bits (encB op d a imm) lo len = imm.extractLsb' lo len := by
  show (op ++ d ++ a ++ imm : BitVec (7 + 5 + 5 + 15)).extractLsb' lo len = _
  rw [BitVec.extractLsb'_append_eq_of_add_le (by omega)]
theorem flag_B_imm (op d a imm i) (h2 : i < 15) :
    flag (encB op d a imm) i = imm.getLsbD i := by
  show (op ++ d ++ a ++ imm : BitVec (7 + 5 + 5 + 15)).getLsbD i = _
  rw [BitVec.getLsbD_append, if_pos (by omega)]
theorem bits_C_op (op d imm lo len) (h1 : 25 ≤ lo) :
    bits (encC op d imm) lo len = op.extractLsb' (lo - 25) len := by
  show (op ++ d ++ imm : BitVec (7 + 5 + 20)).extractLsb' lo len = _
  rw [BitVec.extractLsb'_append_eq_of_le (by omega),
    BitVec.extractLsb'_append_eq_of_le (by omega)]
  simp only [Nat.sub_sub, Nat.reduceAdd]
theorem bits_C_d (op d imm lo len) (h1 : 20 ≤ lo) (h2 : lo + len ≤ 25) :
    bits (encC op d imm) lo len = d.extractLsb' (lo - 20) len := by
  show (op ++ d ++ imm : BitVec (7 + 5 + 20)).extractLsb' lo len = _
  rw [BitVec.extractLsb'_append_eq_of_le (by omega),
    BitVec.extractLsb'_append_eq_of_add_le (by omega)]
theorem bits_C_imm (op d imm lo len) (h2 : lo + len ≤ 20) :
    bits (encC op d imm) lo len = imm.extractLsb' lo len := by
  show (op ++ d ++ imm : BitVec (7 + 5 + 20)).extractLsb' lo len = _
  rw [BitVec.extractLsb'_append_eq_of_add_le (by omega)]
theorem bits_V_op (op vd va vb pg ty zi zo fn lo len) (h1 : 25 ≤ lo) :
    bits (encV op vd va vb pg ty zi zo fn) lo len = op.extractLsb' (lo - 25) len := by
  show (op ++ vd ++ va ++ vb ++ pg ++ ty ++ BitVec.ofBool zi ++ BitVec.ofBool zo ++ fn : BitVec (7 + 5 + 5 + 5 + 3 + 2 + 1 + 1 + 3)).extractLsb' lo len = _
  rw [BitVec.extractLsb'_append_eq_of_le (by omega),
    BitVec.extractLsb'_append_eq_of_le (by omega),
    BitVec.extractLsb'_append_eq_of_le (by omega),
    BitVec.extractLsb'_append_eq_of_le (by omega),
    BitVec.extractLsb'_append_eq_of_le (by omega),
    BitVec.extractLsb'_append_eq_of_le (by omega),
    BitVec.extractLsb'_append_eq_of_le (by omega),
    BitVec.extractLsb'_append_eq_of_le (by omega)]
  simp only [Nat.sub_sub, Nat.reduceAdd]
theorem bits_V_vd (op vd va vb pg ty zi zo fn lo len) (h1 : 20 ≤ lo) (h2 : lo + len ≤ 25) :
    bits (encV op vd va vb pg ty zi zo fn) lo len = vd.extractLsb' (lo - 20) len := by
  show (op ++ vd ++ va ++ vb ++ pg ++ ty ++ BitVec.ofBool zi ++ BitVec.ofBool zo ++ fn : BitVec (7 + 5 + 5 + 5 + 3 + 2 + 1 + 1 + 3)).extractLsb' lo len = _
  rw [BitVec.extractLsb'_append_eq_of_le (by omega),
    BitVec.extractLsb'_append_eq_of_le (by omega),
    BitVec.extractLsb'_append_eq_of_le (by omega),
    BitVec.extractLsb'_append_eq_of_le (by omega),
    BitVec.extractLsb'_append_eq_of_le (by omega),
    BitVec.extractLsb'_append_eq_of_le (by omega),
    BitVec.extractLsb'_append_eq_of_le (by omega),
    BitVec.extractLsb'_append_eq_of_add_le (by omega)]
  simp only [Nat.sub_sub, Nat.reduceAdd]
theorem bits_V_va (op vd va vb pg ty zi zo fn lo len) (h1 : 15 ≤ lo) (h2 : lo + len ≤ 20) :
    bits (encV op vd va vb pg ty zi zo fn) lo len = va.extractLsb' (lo - 15) len := by
  show (op ++ vd ++ va ++ vb ++ pg ++ ty ++ BitVec.ofBool zi ++ BitVec.ofBool zo ++ fn : BitVec (7 + 5 + 5 + 5 + 3 + 2 + 1 + 1 + 3)).extractLsb' lo len = _
  rw [BitVec.extractLsb'_append_eq_of_le (by omega),
    BitVec.extractLsb'_append_eq_of_le (by omega),
    BitVec.extractLsb'_append_eq_of_le (by omega),
    BitVec.extractLsb'_append_eq_of_le (by omega),
    BitVec.extractLsb'_append_eq_of_le (by omega),
    BitVec.extractLsb'_append_eq_of_le (by omega),
    BitVec.extractLsb'_append_eq_of_add_le (by omega)]
  simp only [Nat.sub_sub, Nat.reduceAdd]
theorem bits_V_vb (op vd va vb pg ty zi zo fn lo len) (h1 : 10 ≤ lo) (h2 : lo + len ≤ 15) :
    bits (encV op vd va vb pg ty zi zo fn) lo len = vb.extractLsb' (lo - 10) len := by
  show (op ++ vd ++ va ++ vb ++ pg ++ ty ++ BitVec.ofBool zi ++ BitVec.ofBool zo ++ fn : BitVec (7 + 5 + 5 + 5 + 3 + 2 + 1 + 1 + 3)).extractLsb' lo len = _
  rw [BitVec.extractLsb'_append_eq_of_le (by omega),
    BitVec.extractLsb'_append_eq_of_le (by omega),
    BitVec.extractLsb'_append_eq_of_le (by omega),
    BitVec.extractLsb'_append_eq_of_le (by omega),
    BitVec.extractLsb'_append_eq_of_le (by omega),
    BitVec.extractLsb'_append_eq_of_add_le (by omega)]
  simp only [Nat.sub_sub, Nat.reduceAdd]
theorem bits_V_pg (op vd va vb pg ty zi zo fn lo len) (h1 : 7 ≤ lo) (h2 : lo + len ≤ 10) :
    bits (encV op vd va vb pg ty zi zo fn) lo len = pg.extractLsb' (lo - 7) len := by
  show (op ++ vd ++ va ++ vb ++ pg ++ ty ++ BitVec.ofBool zi ++ BitVec.ofBool zo ++ fn : BitVec (7 + 5 + 5 + 5 + 3 + 2 + 1 + 1 + 3)).extractLsb' lo len = _
  rw [BitVec.extractLsb'_append_eq_of_le (by omega),
    BitVec.extractLsb'_append_eq_of_le (by omega),
    BitVec.extractLsb'_append_eq_of_le (by omega),
    BitVec.extractLsb'_append_eq_of_le (by omega),
    BitVec.extractLsb'_append_eq_of_add_le (by omega)]
  simp only [Nat.sub_sub, Nat.reduceAdd]
theorem bits_V_ty (op vd va vb pg ty zi zo fn lo len) (h1 : 5 ≤ lo) (h2 : lo + len ≤ 7) :
    bits (encV op vd va vb pg ty zi zo fn) lo len = ty.extractLsb' (lo - 5) len := by
  show (op ++ vd ++ va ++ vb ++ pg ++ ty ++ BitVec.ofBool zi ++ BitVec.ofBool zo ++ fn : BitVec (7 + 5 + 5 + 5 + 3 + 2 + 1 + 1 + 3)).extractLsb' lo len = _
  rw [BitVec.extractLsb'_append_eq_of_le (by omega),
    BitVec.extractLsb'_append_eq_of_le (by omega),
    BitVec.extractLsb'_append_eq_of_le (by omega),
    BitVec.extractLsb'_append_eq_of_add_le (by omega)]
  simp only [Nat.sub_sub, Nat.reduceAdd]
theorem flag_V_zi (op vd va vb pg ty zi zo fn) : flag (encV op vd va vb pg ty zi zo fn) 4 = zi := by
  show (op ++ vd ++ va ++ vb ++ pg ++ ty ++ BitVec.ofBool zi ++ BitVec.ofBool zo ++ fn : BitVec (7 + 5 + 5 + 5 + 3 + 2 + 1 + 1 + 3)).getLsbD 4 = zi
  rw [BitVec.getLsbD_append, if_neg (by decide)]
  rw [BitVec.getLsbD_append, if_neg (by decide)]
  rw [BitVec.getLsbD_append, if_pos (by decide)]
  cases zi <;> rfl

theorem flag_V_zo (op vd va vb pg ty zi zo fn) : flag (encV op vd va vb pg ty zi zo fn) 3 = zo := by
  show (op ++ vd ++ va ++ vb ++ pg ++ ty ++ BitVec.ofBool zi ++ BitVec.ofBool zo ++ fn : BitVec (7 + 5 + 5 + 5 + 3 + 2 + 1 + 1 + 3)).getLsbD 3 = zo
  rw [BitVec.getLsbD_append, if_neg (by decide)]
  rw [BitVec.getLsbD_append, if_pos (by decide)]
  cases zo <;> rfl

theorem bits_V_fn (op vd va vb pg ty zi zo fn lo len) (h2 : lo + len ≤ 3) :
    bits (encV op vd va vb pg ty zi zo fn) lo len = fn.extractLsb' lo len := by
  show (op ++ vd ++ va ++ vb ++ pg ++ ty ++ BitVec.ofBool zi ++ BitVec.ofBool zo ++ fn : BitVec (7 + 5 + 5 + 5 + 3 + 2 + 1 + 1 + 3)).extractLsb' lo len = _
  rw [BitVec.extractLsb'_append_eq_of_add_le (by omega)]
theorem bits_M_op (op t base pg off lo len) (h1 : 25 ≤ lo) :
    bits (encM op t base pg off) lo len = op.extractLsb' (lo - 25) len := by
  show (op ++ t ++ base ++ pg ++ off : BitVec (7 + 5 + 5 + 3 + 12)).extractLsb' lo len = _
  rw [BitVec.extractLsb'_append_eq_of_le (by omega),
    BitVec.extractLsb'_append_eq_of_le (by omega),
    BitVec.extractLsb'_append_eq_of_le (by omega),
    BitVec.extractLsb'_append_eq_of_le (by omega)]
  simp only [Nat.sub_sub, Nat.reduceAdd]
theorem bits_M_t (op t base pg off lo len) (h1 : 20 ≤ lo) (h2 : lo + len ≤ 25) :
    bits (encM op t base pg off) lo len = t.extractLsb' (lo - 20) len := by
  show (op ++ t ++ base ++ pg ++ off : BitVec (7 + 5 + 5 + 3 + 12)).extractLsb' lo len = _
  rw [BitVec.extractLsb'_append_eq_of_le (by omega),
    BitVec.extractLsb'_append_eq_of_le (by omega),
    BitVec.extractLsb'_append_eq_of_le (by omega),
    BitVec.extractLsb'_append_eq_of_add_le (by omega)]
  simp only [Nat.sub_sub, Nat.reduceAdd]
theorem bits_M_base (op t base pg off lo len) (h1 : 15 ≤ lo) (h2 : lo + len ≤ 20) :
    bits (encM op t base pg off) lo len = base.extractLsb' (lo - 15) len := by
  show (op ++ t ++ base ++ pg ++ off : BitVec (7 + 5 + 5 + 3 + 12)).extractLsb' lo len = _
  rw [BitVec.extractLsb'_append_eq_of_le (by omega),
    BitVec.extractLsb'_append_eq_of_le (by omega),
    BitVec.extractLsb'_append_eq_of_add_le (by omega)]
  simp only [Nat.sub_sub, Nat.reduceAdd]
theorem bits_M_pg (op t base pg off lo len) (h1 : 12 ≤ lo) (h2 : lo + len ≤ 15) :
    bits (encM op t base pg off) lo len = pg.extractLsb' (lo - 12) len := by
  show (op ++ t ++ base ++ pg ++ off : BitVec (7 + 5 + 5 + 3 + 12)).extractLsb' lo len = _
  rw [BitVec.extractLsb'_append_eq_of_le (by omega),
    BitVec.extractLsb'_append_eq_of_add_le (by omega)]
theorem bits_M_off (op t base pg off lo len) (h2 : lo + len ≤ 12) :
    bits (encM op t base pg off) lo len = off.extractLsb' lo len := by
  show (op ++ t ++ base ++ pg ++ off : BitVec (7 + 5 + 5 + 3 + 12)).extractLsb' lo len = _
  rw [BitVec.extractLsb'_append_eq_of_add_le (by omega)]
theorem bits_E_op (op eop a b lo len) (h1 : 25 ≤ lo) :
    bits (encE op eop a b) lo len = op.extractLsb' (lo - 25) len := by
  show (op ++ eop ++ a ++ b ++ (0 : BitVec 5) : BitVec (7 + 10 + 5 + 5 + 5)).extractLsb' lo len = _
  rw [BitVec.extractLsb'_append_eq_of_le (by omega),
    BitVec.extractLsb'_append_eq_of_le (by omega),
    BitVec.extractLsb'_append_eq_of_le (by omega),
    BitVec.extractLsb'_append_eq_of_le (by omega)]
  simp only [Nat.sub_sub, Nat.reduceAdd]
theorem bits_E_eop (op eop a b lo len) (h1 : 15 ≤ lo) (h2 : lo + len ≤ 25) :
    bits (encE op eop a b) lo len = eop.extractLsb' (lo - 15) len := by
  show (op ++ eop ++ a ++ b ++ (0 : BitVec 5) : BitVec (7 + 10 + 5 + 5 + 5)).extractLsb' lo len = _
  rw [BitVec.extractLsb'_append_eq_of_le (by omega),
    BitVec.extractLsb'_append_eq_of_le (by omega),
    BitVec.extractLsb'_append_eq_of_le (by omega),
    BitVec.extractLsb'_append_eq_of_add_le (by omega)]
  simp only [Nat.sub_sub, Nat.reduceAdd]
theorem bits_E_a (op eop a b lo len) (h1 : 10 ≤ lo) (h2 : lo + len ≤ 15) :
    bits (encE op eop a b) lo len = a.extractLsb' (lo - 10) len := by
  show (op ++ eop ++ a ++ b ++ (0 : BitVec 5) : BitVec (7 + 10 + 5 + 5 + 5)).extractLsb' lo len = _
  rw [BitVec.extractLsb'_append_eq_of_le (by omega),
    BitVec.extractLsb'_append_eq_of_le (by omega),
    BitVec.extractLsb'_append_eq_of_add_le (by omega)]
  simp only [Nat.sub_sub, Nat.reduceAdd]
theorem bits_E_b (op eop a b lo len) (h1 : 5 ≤ lo) (h2 : lo + len ≤ 10) :
    bits (encE op eop a b) lo len = b.extractLsb' (lo - 5) len := by
  show (op ++ eop ++ a ++ b ++ (0 : BitVec 5) : BitVec (7 + 10 + 5 + 5 + 5)).extractLsb' lo len = _
  rw [BitVec.extractLsb'_append_eq_of_le (by omega),
    BitVec.extractLsb'_append_eq_of_add_le (by omega)]
theorem bits_E_fl (op eop a b lo len) (h2 : lo + len ≤ 5) :
    bits (encE op eop a b) lo len = (0 : BitVec 5).extractLsb' lo len := by
  show (op ++ eop ++ a ++ b ++ (0 : BitVec 5) : BitVec (7 + 10 + 5 + 5 + 5)).extractLsb' lo len = _
  rw [BitVec.extractLsb'_append_eq_of_add_le (by omega)]
theorem flag_E_eop (op eop a b i) (h1 : 15 ≤ i) (h2 : i < 25) :
    flag (encE op eop a b) i = eop.getLsbD (i - 15) := by
  show (op ++ eop ++ a ++ b ++ (0 : BitVec 5) : BitVec (7 + 10 + 5 + 5 + 5)).getLsbD i = _
  rw [BitVec.getLsbD_append, if_neg (by omega)]
  rw [BitVec.getLsbD_append, if_neg (by omega)]
  rw [BitVec.getLsbD_append, if_neg (by omega)]
  rw [BitVec.getLsbD_append, if_pos (by omega)]
  simp only [Nat.sub_sub, Nat.reduceAdd]
/-- A word whose major is not zero is not the all-zero word. -/
theorem word_ne_zero (w : BitVec 32) (op : BitVec 7) (h : bits w 25 7 = op) (ho : op ≠ 0) : w ≠ 0 := fun e =>
  ho (by rw [← h, e]; decide)

/-- R71: what a word with a major decodes to. -/
theorem decodeWord_of (w : BitVec 32) (i : Instr) (h : w ≠ 0) (hw : i.wf = true) (hr : decodeRaw w = some i) :
    decodeWord w = some i := by
  rw [decodeWord, if_neg h, hr]
  show (if i.wf then some i else none) = some i
  rw [if_pos hw]

theorem raw_01 (w : BitVec 32) (h : bits w 25 7 = (0x01 : BitVec 7)) : decodeRaw w = decOp01 w := by
  unfold decodeRaw flOk; rw [h]; rfl

theorem raw_02 (w : BitVec 32) (h : bits w 25 7 = (0x02 : BitVec 7)) : decodeRaw w = decOp02 w := by
  unfold decodeRaw flOk; rw [h]; rfl

theorem raw_03 (w : BitVec 32) (h : bits w 25 7 = (0x03 : BitVec 7)) : decodeRaw w = decOp03 w := by
  unfold decodeRaw flOk; rw [h]; rfl

theorem raw_04 (w : BitVec 32) (h : bits w 25 7 = (0x04 : BitVec 7)) : decodeRaw w = decOp04 w := by
  unfold decodeRaw flOk; rw [h]; rfl

theorem raw_05 (w : BitVec 32) (h : bits w 25 7 = (0x05 : BitVec 7)) : decodeRaw w = decOp05 w := by
  unfold decodeRaw flOk; rw [h]; rfl

theorem raw_06 (w : BitVec 32) (h : bits w 25 7 = (0x06 : BitVec 7)) : decodeRaw w = decOp06 w := by
  unfold decodeRaw flOk; rw [h]; rfl

theorem raw_07 (w : BitVec 32) (h : bits w 25 7 = (0x07 : BitVec 7)) : decodeRaw w = decOp07 w := by
  unfold decodeRaw flOk; rw [h]; rfl

theorem raw_08 (w : BitVec 32) (h : bits w 25 7 = (0x08 : BitVec 7)) : decodeRaw w = decOp08 w := by
  unfold decodeRaw flOk; rw [h]; rfl

theorem raw_09 (w : BitVec 32) (h : bits w 25 7 = (0x09 : BitVec 7)) : decodeRaw w = decOp09 w := by
  unfold decodeRaw flOk; rw [h]; rfl

theorem raw_0A (w : BitVec 32) (h : bits w 25 7 = (0x0A : BitVec 7)) : decodeRaw w = decOp0A w := by
  unfold decodeRaw flOk; rw [h]; rfl

theorem raw_0B (w : BitVec 32) (h : bits w 25 7 = (0x0B : BitVec 7)) : decodeRaw w = decOp0B w := by
  unfold decodeRaw flOk; rw [h]; rfl

theorem raw_0C (w : BitVec 32) (h : bits w 25 7 = (0x0C : BitVec 7)) : decodeRaw w = decOp0C w := by
  unfold decodeRaw flOk; rw [h]; rfl

theorem raw_0D (w : BitVec 32) (h : bits w 25 7 = (0x0D : BitVec 7)) : decodeRaw w = decOp0D w := by
  unfold decodeRaw flOk; rw [h]; rfl

theorem raw_0E (w : BitVec 32) (h : bits w 25 7 = (0x0E : BitVec 7)) : decodeRaw w = decOp0E w := by
  unfold decodeRaw flOk; rw [h]; rfl

theorem raw_0F (w : BitVec 32) (h : bits w 25 7 = (0x0F : BitVec 7)) : decodeRaw w = decOp0F w := by
  unfold decodeRaw flOk; rw [h]; rfl

theorem raw_10 (w : BitVec 32) (h : bits w 25 7 = (0x10 : BitVec 7)) : decodeRaw w = decOp10 w := by
  unfold decodeRaw flOk; rw [h]; rfl

theorem raw_11 (w : BitVec 32) (h : bits w 25 7 = (0x11 : BitVec 7)) : decodeRaw w = decOp11 w := by
  unfold decodeRaw flOk; rw [h]; rfl

theorem raw_12 (w : BitVec 32) (h : bits w 25 7 = (0x12 : BitVec 7)) : decodeRaw w = decOp12 w := by
  unfold decodeRaw flOk; rw [h]; rfl

theorem raw_13 (w : BitVec 32) (h : bits w 25 7 = (0x13 : BitVec 7)) : decodeRaw w = decOp13 w := by
  unfold decodeRaw flOk; rw [h]; rfl

theorem raw_14 (w : BitVec 32) (h : bits w 25 7 = (0x14 : BitVec 7)) : decodeRaw w = decOp14 w := by
  unfold decodeRaw flOk; rw [h]; rfl

theorem raw_15 (w : BitVec 32) (h : bits w 25 7 = (0x15 : BitVec 7)) : decodeRaw w = decOp15 w := by
  unfold decodeRaw flOk; rw [h]; rfl

theorem raw_16 (w : BitVec 32) (h : bits w 25 7 = (0x16 : BitVec 7)) : decodeRaw w = decOp16 w := by
  unfold decodeRaw flOk; rw [h]; rfl

theorem raw_17 (w : BitVec 32) (h : bits w 25 7 = (0x17 : BitVec 7)) : decodeRaw w = decOp17 w := by
  unfold decodeRaw flOk; rw [h]; rfl

theorem raw_18 (w : BitVec 32) (h : bits w 25 7 = (0x18 : BitVec 7)) : decodeRaw w = decOp18 w := by
  unfold decodeRaw flOk; rw [h]; rfl

theorem raw_19 (w : BitVec 32) (h : bits w 25 7 = (0x19 : BitVec 7)) : decodeRaw w = decOp19 w := by
  unfold decodeRaw flOk; rw [h]; rfl

theorem raw_1A (w : BitVec 32) (h : bits w 25 7 = (0x1A : BitVec 7)) : decodeRaw w = decOp1A w := by
  unfold decodeRaw flOk; rw [h]; rfl

theorem raw_1B (w : BitVec 32) (h : bits w 25 7 = (0x1B : BitVec 7)) : decodeRaw w = decOp1B w := by
  unfold decodeRaw flOk; rw [h]; rfl

theorem raw_1C (w : BitVec 32) (h : bits w 25 7 = (0x1C : BitVec 7)) : decodeRaw w = decOp1C w := by
  unfold decodeRaw flOk; rw [h]; rfl

theorem raw_1D (w : BitVec 32) (h : bits w 25 7 = (0x1D : BitVec 7)) : decodeRaw w = decOp1D w := by
  unfold decodeRaw flOk; rw [h]; rfl

theorem raw_1E (w : BitVec 32) (h : bits w 25 7 = (0x1E : BitVec 7)) : decodeRaw w = decOp1E w := by
  unfold decodeRaw flOk; rw [h]; rfl

theorem raw_1F (w : BitVec 32) (h : bits w 25 7 = (0x1F : BitVec 7)) : decodeRaw w = decOp1F w := by
  unfold decodeRaw flOk; rw [h]; rfl

theorem raw_20 (w : BitVec 32) (h : bits w 25 7 = (0x20 : BitVec 7)) : decodeRaw w = decOp20 w := by
  unfold decodeRaw flOk; rw [h]; rfl

theorem raw_21 (w : BitVec 32) (h : bits w 25 7 = (0x21 : BitVec 7)) : decodeRaw w = decOp21 w := by
  unfold decodeRaw flOk; rw [h]; rfl

theorem raw_28 (w : BitVec 32) (h : bits w 25 7 = (0x28 : BitVec 7)) : decodeRaw w = decOp28 w := by
  unfold decodeRaw flOk; rw [h]; rfl

theorem raw_29 (w : BitVec 32) (h : bits w 25 7 = (0x29 : BitVec 7)) : decodeRaw w = decOp29 w := by
  unfold decodeRaw flOk; rw [h]; rfl

theorem raw_2A (w : BitVec 32) (h : bits w 25 7 = (0x2A : BitVec 7)) : decodeRaw w = decOp2A w := by
  unfold decodeRaw flOk; rw [h]; rfl

theorem raw_2B (w : BitVec 32) (h : bits w 25 7 = (0x2B : BitVec 7)) : decodeRaw w = decOp2B w := by
  unfold decodeRaw flOk; rw [h]; rfl

theorem raw_2C (w : BitVec 32) (h : bits w 25 7 = (0x2C : BitVec 7)) : decodeRaw w = decOp2C w := by
  unfold decodeRaw flOk; rw [h]; rfl

theorem raw_2D (w : BitVec 32) (h : bits w 25 7 = (0x2D : BitVec 7)) : decodeRaw w = decOp2D w := by
  unfold decodeRaw flOk; rw [h]; rfl

theorem raw_30 (w : BitVec 32) (h : bits w 25 7 = (0x30 : BitVec 7)) : decodeRaw w = decOp30 w := by
  unfold decodeRaw flOk; rw [h]; rfl

theorem raw_31 (w : BitVec 32) (h : bits w 25 7 = (0x31 : BitVec 7)) : decodeRaw w = decOp31 w := by
  unfold decodeRaw flOk; rw [h]; rfl

theorem raw_32 (w : BitVec 32) (h : bits w 25 7 = (0x32 : BitVec 7)) : decodeRaw w = decOp32 w := by
  unfold decodeRaw flOk; rw [h]; rfl

theorem raw_33 (w : BitVec 32) (h : bits w 25 7 = (0x33 : BitVec 7)) : decodeRaw w = decOp33 w := by
  unfold decodeRaw flOk; rw [h]; rfl

theorem raw_34 (w : BitVec 32) (h : bits w 25 7 = (0x34 : BitVec 7)) : decodeRaw w = decOp34 w := by
  unfold decodeRaw flOk; rw [h]; rfl

theorem raw_35 (w : BitVec 32) (h : bits w 25 7 = (0x35 : BitVec 7)) : decodeRaw w = decOp35 w := by
  unfold decodeRaw flOk; rw [h]; rfl

theorem raw_36 (w : BitVec 32) (h : bits w 25 7 = (0x36 : BitVec 7)) : decodeRaw w = decOp36 w := by
  unfold decodeRaw flOk; rw [h]; rfl

theorem raw_38 (w : BitVec 32) (h : bits w 25 7 = (0x38 : BitVec 7)) : decodeRaw w = decOp38 w := by
  unfold decodeRaw flOk; rw [h]; rfl

theorem raw_40 (w : BitVec 32) (h : bits w 25 7 = (0x40 : BitVec 7)) : decodeRaw w = decOp40 w := by
  unfold decodeRaw flOk; rw [h]; rfl

theorem raw_41 (w : BitVec 32) (h : bits w 25 7 = (0x41 : BitVec 7)) : decodeRaw w = decOp41 w := by
  unfold decodeRaw flOk; rw [h]; rfl

theorem raw_42 (w : BitVec 32) (h : bits w 25 7 = (0x42 : BitVec 7)) : decodeRaw w = decOp42 w := by
  unfold decodeRaw flOk; rw [h]; rfl

theorem raw_43 (w : BitVec 32) (h : bits w 25 7 = (0x43 : BitVec 7)) : decodeRaw w = decOp43 w := by
  unfold decodeRaw flOk; rw [h]; rfl

theorem raw_44 (w : BitVec 32) (h : bits w 25 7 = (0x44 : BitVec 7)) : decodeRaw w = decOp44 w := by
  unfold decodeRaw flOk; rw [h]; rfl

theorem raw_50 (w : BitVec 32) (h : bits w 25 7 = (0x50 : BitVec 7)) : decodeRaw w = decOp50 w := by
  unfold decodeRaw flOk; rw [h]; rfl

theorem raw_51 (w : BitVec 32) (h : bits w 25 7 = (0x51 : BitVec 7)) : decodeRaw w = decOp51 w := by
  unfold decodeRaw flOk; rw [h]; rfl

theorem raw_52 (w : BitVec 32) (h : bits w 25 7 = (0x52 : BitVec 7)) : decodeRaw w = decOp52 w := by
  unfold decodeRaw flOk; rw [h]; rfl

theorem raw_53 (w : BitVec 32) (h : bits w 25 7 = (0x53 : BitVec 7)) : decodeRaw w = decOp53 w := by
  unfold decodeRaw flOk; rw [h]; rfl

theorem raw_54 (w : BitVec 32) (h : bits w 25 7 = (0x54 : BitVec 7)) : decodeRaw w = decOp54 w := by
  unfold decodeRaw flOk; rw [h]; rfl

theorem raw_55 (w : BitVec 32) (h : bits w 25 7 = (0x55 : BitVec 7)) : decodeRaw w = decOp55 w := by
  unfold decodeRaw flOk; rw [h]; rfl

theorem raw_56 (w : BitVec 32) (h : bits w 25 7 = (0x56 : BitVec 7)) : decodeRaw w = decOp56 w := by
  unfold decodeRaw flOk; rw [h]; rfl

theorem raw_57 (w : BitVec 32) (h : bits w 25 7 = (0x57 : BitVec 7)) : decodeRaw w = decOp57 w := by
  unfold decodeRaw flOk; rw [h]; rfl

theorem raw_58 (w : BitVec 32) (h : bits w 25 7 = (0x58 : BitVec 7)) : decodeRaw w = decOp58 w := by
  unfold decodeRaw flOk; rw [h]; rfl

theorem raw_59 (w : BitVec 32) (h : bits w 25 7 = (0x59 : BitVec 7)) : decodeRaw w = decOp59 w := by
  unfold decodeRaw flOk; rw [h]; rfl

theorem raw_5A (w : BitVec 32) (h : bits w 25 7 = (0x5A : BitVec 7)) : decodeRaw w = decOp5A w := by
  unfold decodeRaw flOk; rw [h]; rfl

theorem raw_5B (w : BitVec 32) (h : bits w 25 7 = (0x5B : BitVec 7)) : decodeRaw w = decOp5B w := by
  unfold decodeRaw flOk; rw [h]; rfl

theorem raw_5C (w : BitVec 32) (h : bits w 25 7 = (0x5C : BitVec 7)) : decodeRaw w = decOp5C w := by
  unfold decodeRaw flOk; rw [h]; rfl

theorem raw_5D (w : BitVec 32) (h : bits w 25 7 = (0x5D : BitVec 7)) : decodeRaw w = decOp5D w := by
  unfold decodeRaw flOk; rw [h]; rfl

theorem raw_5E (w : BitVec 32) (h : bits w 25 7 = (0x5E : BitVec 7)) : decodeRaw w = decOp5E w := by
  unfold decodeRaw flOk; rw [h]; rfl

theorem raw_5F (w : BitVec 32) (h : bits w 25 7 = (0x5F : BitVec 7)) : decodeRaw w = decOp5F w := by
  unfold decodeRaw flOk; rw [h]; rfl

theorem raw_60 (w : BitVec 32) (h : bits w 25 7 = (0x60 : BitVec 7)) : decodeRaw w = decOp60 w := by
  unfold decodeRaw flOk; rw [h]; rfl

theorem raw_61 (w : BitVec 32) (h : bits w 25 7 = (0x61 : BitVec 7)) : decodeRaw w = decOp61 w := by
  unfold decodeRaw flOk; rw [h]; rfl

theorem raw_62 (w : BitVec 32) (h : bits w 25 7 = (0x62 : BitVec 7)) : decodeRaw w = decOp62 w := by
  unfold decodeRaw flOk; rw [h]; rfl

theorem raw_63 (w : BitVec 32) (h : bits w 25 7 = (0x63 : BitVec 7)) : decodeRaw w = decOp63 w := by
  unfold decodeRaw flOk; rw [h]; rfl

theorem raw_64 (w : BitVec 32) (h : bits w 25 7 = (0x64 : BitVec 7)) : decodeRaw w = decOp64 w := by
  unfold decodeRaw flOk; rw [h]; rfl

theorem raw_65 (w : BitVec 32) (h : bits w 25 7 = (0x65 : BitVec 7)) : decodeRaw w = decOp65 w := by
  unfold decodeRaw flOk; rw [h]; rfl

theorem raw_66 (w : BitVec 32) (h : bits w 25 7 = (0x66 : BitVec 7)) : decodeRaw w = decOp66 w := by
  unfold decodeRaw flOk; rw [h]; rfl

theorem raw_67 (w : BitVec 32) (h : bits w 25 7 = (0x67 : BitVec 7)) : decodeRaw w = decOp67 w := by
  unfold decodeRaw flOk; rw [h]; rfl

theorem raw_68 (w : BitVec 32) (h : bits w 25 7 = (0x68 : BitVec 7)) : decodeRaw w = decOp68 w := by
  unfold decodeRaw flOk; rw [h]; rfl

theorem raw_70 (w : BitVec 32) (h : bits w 25 7 = (0x70 : BitVec 7)) (h0 : bits w 0 5 = (0 : BitVec 5)) :
    decodeRaw w = decOp70 w := by
  unfold decodeRaw flOk; rw [h, h0]; rfl

theorem raw_71 (w : BitVec 32) (h : bits w 25 7 = (0x71 : BitVec 7)) (h0 : bits w 0 5 = (0 : BitVec 5)) :
    decodeRaw w = decOp71 w := by
  unfold decodeRaw flOk; rw [h, h0]; rfl

theorem raw_72 (w : BitVec 32) (h : bits w 25 7 = (0x72 : BitVec 7)) (h0 : bits w 0 5 = (0 : BitVec 5)) :
    decodeRaw w = decOp72 w := by
  unfold decodeRaw flOk; rw [h, h0]; rfl

theorem raw_73 (w : BitVec 32) (h : bits w 25 7 = (0x73 : BitVec 7)) (h0 : bits w 0 5 = (0 : BitVec 5)) :
    decodeRaw w = decOp73 w := by
  unfold decodeRaw flOk; rw [h, h0]; rfl

theorem raw_74 (w : BitVec 32) (h : bits w 25 7 = (0x74 : BitVec 7)) (h0 : bits w 0 5 = (0 : BitVec 5)) :
    decodeRaw w = decOp74 w := by
  unfold decodeRaw flOk; rw [h, h0]; rfl

theorem raw_75 (w : BitVec 32) (h : bits w 25 7 = (0x75 : BitVec 7)) (h0 : bits w 0 5 = (0 : BitVec 5)) :
    decodeRaw w = decOp75 w := by
  unfold decodeRaw flOk; rw [h, h0]; rfl

theorem raw_76 (w : BitVec 32) (h : bits w 25 7 = (0x76 : BitVec 7)) (h0 : bits w 0 5 = (0 : BitVec 5)) :
    decodeRaw w = decOp76 w := by
  unfold decodeRaw flOk; rw [h, h0]; rfl

theorem raw_77 (w : BitVec 32) (h : bits w 25 7 = (0x77 : BitVec 7)) (h0 : bits w 0 5 = (0 : BitVec 5)) :
    decodeRaw w = decOp77 w := by
  unfold decodeRaw flOk; rw [h, h0]; rfl

theorem raw_78 (w : BitVec 32) (h : bits w 25 7 = (0x78 : BitVec 7)) (h0 : bits w 0 5 = (0 : BitVec 5)) :
    decodeRaw w = decOp78 w := by
  unfold decodeRaw flOk; rw [h, h0]; rfl

theorem raw_79 (w : BitVec 32) (h : bits w 25 7 = (0x79 : BitVec 7)) (h0 : bits w 0 5 = (0 : BitVec 5)) :
    decodeRaw w = decOp79 w := by
  unfold decodeRaw flOk; rw [h, h0]; rfl

theorem raw_7A (w : BitVec 32) (h : bits w 25 7 = (0x7A : BitVec 7)) (h0 : bits w 0 5 = (0 : BitVec 5)) :
    decodeRaw w = decOp7A w := by
  unfold decodeRaw flOk; rw [h, h0]; rfl

theorem raw_7B (w : BitVec 32) (h : bits w 25 7 = (0x7B : BitVec 7)) (h0 : bits w 0 5 = (0 : BitVec 5)) :
    decodeRaw w = decOp7B w := by
  unfold decodeRaw flOk; rw [h, h0]; rfl

theorem raw_7C (w : BitVec 32) (h : bits w 25 7 = (0x7C : BitVec 7)) (h0 : bits w 0 5 = (0 : BitVec 5)) :
    decodeRaw w = decOp7C w := by
  unfold decodeRaw flOk; rw [h, h0]; rfl

theorem raw_7D (w : BitVec 32) (h : bits w 25 7 = (0x7D : BitVec 7)) (h0 : bits w 0 5 = (0 : BitVec 5)) :
    decodeRaw w = decOp7D w := by
  unfold decodeRaw flOk; rw [h, h0]; rfl

theorem raw_7E (w : BitVec 32) (h : bits w 25 7 = (0x7E : BitVec 7)) (h0 : bits w 0 5 = (0 : BitVec 5)) :
    decodeRaw w = decOp7E w := by
  unfold decodeRaw flOk; rw [h, h0]; rfl

theorem raw_7F (w : BitVec 32) (h : bits w 25 7 = (0x7F : BitVec 7)) (h0 : bits w 0 5 = (0 : BitVec 5)) :
    decodeRaw w = decOp7F w := by
  unfold decodeRaw flOk; rw [h, h0]; rfl

theorem zext_low (x : BitVec 3) : (x.zeroExtend 5).extractLsb' 0 3 = x := by revert x; decide

theorem zext_high (x : BitVec 3) : (x.zeroExtend 5).extractLsb' 3 2 = 0 := by revert x; decide

theorem extract_ne_of_wf (r : BitVec 10) (a : BitVec 5) (h : (Instr.ewr r a).wf = true) :
    (r.extractLsb' 3 7 : BitVec 7) ≠ 1#7 := by
  intro e
  have h1 : r.toNat >>> 3 % 2 ^ 7 = 1 := congrArg BitVec.toNat e
  have h2 : r.toNat / 8 % 128 = 1 := by rw [← h1, Nat.shiftRight_eq_div_pow]; rfl
  have h3 := r.isLt
  have h4 : (8 ≤ r.toNat && r.toNat ≤ 15) = true := by
    rw [Bool.and_eq_true]; exact ⟨decide_eq_true (by omega), decide_eq_true (by omega)⟩
  have h5 : (engineAssigned r && !(8 ≤ r.toNat && r.toNat ≤ 15)) = true := h
  rw [h4] at h5
  simp at h5

theorem xfmt_code (f : XFmt) : XFmt.ofCode f.code = some f := by cases f <;> rfl

theorem xrm_code (m : XRm) : XRm.ofCode m.code = some m := by
  rcases m with m | _
  · cases m <;> rfl
  · rfl

end Sys2Proof.Laws.Encoding
end

