-- ==== Sys2Proof/Laws/PerInstr.lean ====
section
/-!
SUPPORT. Encoding and decoding agree, instruction by instruction.
-/

set_option linter.unusedSimpArgs false

namespace Sys2Proof.Laws.RoundTrip

open Encoding

/-- The word of a well-formed slot instruction decodes to it, and so does the parcel of one that has a parcel. -/
def Statement (i : Instr) : Prop :=
  (i.wf = true → i.isWord = true → decodeWord (encodeWord i) = some i)
    ∧ ∀ p, encodeParcel i = some p → decodeParcel p = some i

theorem of_word {i : Instr} (w : BitVec 32) {r : Option Instr} {op : BitVec 7} (hp : encodeParcel i = none)
    (he : encodeWord i = w) (h : bits w 25 7 = op) (ho : op ≠ 0) (hd : decodeRaw w = r)
    (hr : i.wf = true → r = some i) : Statement i :=
  ⟨fun hw _ => (congrArg decodeWord he).trans (decodeWord_of _ _ (word_ne_zero _ op h ho) hw (hd.trans (hr hw))),
    fun _ e => (nomatch hp.symm.trans e)⟩

/-- A step of the device has neither a word nor a parcel. -/
theorem of_step {i : Instr} (hp : encodeParcel i = none) (he : i.isWord = false) : Statement i :=
  ⟨fun _ h => (nomatch he.symm.trans h), fun _ e => (nomatch hp.symm.trans e)⟩

theorem nop : Statement .nop := ⟨fun _ _ => rfl, fun _ e => by cases e⟩

theorem illegalWord (w : BitVec 32) : Statement (.illegalWord w) := ⟨fun h => (by cases h), fun _ e => by cases e⟩

theorem print (n : BitVec 9) (k : BitVec 6) : Statement (.print n k) := by
  refine ⟨fun _ h => (nomatch h), fun p e => ?_⟩
  obtain rfl : (BitVec.ofBool false ++ n ++ k : BitVec (1 + 9 + 6)) = p := Option.some.inj e
  have h1 : (BitVec.ofBool false ++ n ++ k : BitVec (1 + 9 + 6)).getLsbD 15 = false := by
    rw [BitVec.getLsbD_append, if_neg (by decide), BitVec.getLsbD_append, if_neg (by decide)]; rfl
  have h2 : (BitVec.ofBool false ++ n ++ k : BitVec (1 + 9 + 6)).extractLsb' 6 9 = n := by
    rw [BitVec.extractLsb'_append_eq_of_le (by decide), BitVec.extractLsb'_append_eq_of_add_le (by decide)]
    exact BitVec.extractLsb'_eq_self
  have h3 : (BitVec.ofBool false ++ n ++ k : BitVec (1 + 9 + 6)).extractLsb' 0 6 = k :=
    (BitVec.extractLsb'_append_eq_of_add_le (by decide)).trans BitVec.extractLsb'_eq_self
  unfold decodeParcel
  rw [if_pos h1, h2, h3]

theorem fullBundleHeader (e : BitVec 9) : Statement (.fullBundleHeader e) := by
  refine ⟨fun _ h => (nomatch h), fun p he => ?_⟩
  obtain rfl : ((3 : BitVec 2) ++ e ++ (0 : BitVec 5) : BitVec (2 + 9 + 5)) = p := Option.some.inj he
  have h1 : ((3 : BitVec 2) ++ e ++ (0 : BitVec 5) : BitVec (2 + 9 + 5)).getLsbD 15 = true := by
    rw [BitVec.getLsbD_append, if_neg (by decide), BitVec.getLsbD_append, if_neg (by decide)]; rfl
  have h2 : ((3 : BitVec 2) ++ e ++ (0 : BitVec 5) : BitVec (2 + 9 + 5)).getLsbD 14 = true := by
    rw [BitVec.getLsbD_append, if_neg (by decide), BitVec.getLsbD_append, if_neg (by decide)]; rfl
  have h3 : ((3 : BitVec 2) ++ e ++ (0 : BitVec 5) : BitVec (2 + 9 + 5)).extractLsb' 0 5 = 0 :=
    (BitVec.extractLsb'_append_eq_of_add_le (by decide)).trans BitVec.extractLsb'_eq_self
  have h4 : ((3 : BitVec 2) ++ e ++ (0 : BitVec 5) : BitVec (2 + 9 + 5)).extractLsb' 5 9 = e := by
    rw [BitVec.extractLsb'_append_eq_of_le (by decide), BitVec.extractLsb'_append_eq_of_add_le (by decide)]
    exact BitVec.extractLsb'_eq_self
  unfold decodeParcel
  rw [if_neg (by rw [h1]; decide), if_pos ⟨h2, h3⟩, h4]

theorem add (d a b : BitVec 5) : Statement (.add d a b) := by
  have hop := bits_A_op 0x01 d a b 0 25 7 (by decide)
  refine of_word (encA 0x01 d a b 0) rfl rfl hop (by decide) (raw_01 _ hop) fun hw => ?_
  simp [decOp01, bits_A_d, bits_A_a, bits_A_b, bits_A_fn, flag_A_fn, need, fD, fA, fB, fFn, fImm15, fImm20, fPg,
    fEa, fEb, vInt, vFlt]

theorem sub (d a b : BitVec 5) : Statement (.sub d a b) := by
  have hop := bits_A_op 0x01 d a b 1 25 7 (by decide)
  refine of_word (encA 0x01 d a b 1) rfl rfl hop (by decide) (raw_01 _ hop) fun hw => ?_
  simp [decOp01, bits_A_d, bits_A_a, bits_A_b, bits_A_fn, flag_A_fn, need, fD, fA, fB, fFn, fImm15, fImm20, fPg,
    fEa, fEb, vInt, vFlt]

theorem and (d a b : BitVec 5) : Statement (.and d a b) := by
  have hop := bits_A_op 0x01 d a b 2 25 7 (by decide)
  refine of_word (encA 0x01 d a b 2) rfl rfl hop (by decide) (raw_01 _ hop) fun hw => ?_
  simp [decOp01, bits_A_d, bits_A_a, bits_A_b, bits_A_fn, flag_A_fn, need, fD, fA, fB, fFn, fImm15, fImm20, fPg,
    fEa, fEb, vInt, vFlt]

theorem or (d a b : BitVec 5) : Statement (.or d a b) := by
  have hop := bits_A_op 0x01 d a b 3 25 7 (by decide)
  refine of_word (encA 0x01 d a b 3) rfl rfl hop (by decide) (raw_01 _ hop) fun hw => ?_
  simp [decOp01, bits_A_d, bits_A_a, bits_A_b, bits_A_fn, flag_A_fn, need, fD, fA, fB, fFn, fImm15, fImm20, fPg,
    fEa, fEb, vInt, vFlt]

theorem xor (d a b : BitVec 5) : Statement (.xor d a b) := by
  have hop := bits_A_op 0x01 d a b 4 25 7 (by decide)
  refine of_word (encA 0x01 d a b 4) rfl rfl hop (by decide) (raw_01 _ hop) fun hw => ?_
  simp [decOp01, bits_A_d, bits_A_a, bits_A_b, bits_A_fn, flag_A_fn, need, fD, fA, fB, fFn, fImm15, fImm20, fPg,
    fEa, fEb, vInt, vFlt]

theorem sll (d a b : BitVec 5) : Statement (.sll d a b) := by
  have hop := bits_A_op 0x01 d a b 5 25 7 (by decide)
  refine of_word (encA 0x01 d a b 5) rfl rfl hop (by decide) (raw_01 _ hop) fun hw => ?_
  simp [decOp01, bits_A_d, bits_A_a, bits_A_b, bits_A_fn, flag_A_fn, need, fD, fA, fB, fFn, fImm15, fImm20, fPg,
    fEa, fEb, vInt, vFlt]

theorem srl (d a b : BitVec 5) : Statement (.srl d a b) := by
  have hop := bits_A_op 0x01 d a b 6 25 7 (by decide)
  refine of_word (encA 0x01 d a b 6) rfl rfl hop (by decide) (raw_01 _ hop) fun hw => ?_
  simp [decOp01, bits_A_d, bits_A_a, bits_A_b, bits_A_fn, flag_A_fn, need, fD, fA, fB, fFn, fImm15, fImm20, fPg,
    fEa, fEb, vInt, vFlt]

theorem sra (d a b : BitVec 5) : Statement (.sra d a b) := by
  have hop := bits_A_op 0x01 d a b 7 25 7 (by decide)
  refine of_word (encA 0x01 d a b 7) rfl rfl hop (by decide) (raw_01 _ hop) fun hw => ?_
  simp [decOp01, bits_A_d, bits_A_a, bits_A_b, bits_A_fn, flag_A_fn, need, fD, fA, fB, fFn, fImm15, fImm20, fPg,
    fEa, fEb, vInt, vFlt]

theorem slt (d a b : BitVec 5) : Statement (.slt d a b) := by
  have hop := bits_A_op 0x01 d a b 8 25 7 (by decide)
  refine of_word (encA 0x01 d a b 8) rfl rfl hop (by decide) (raw_01 _ hop) fun hw => ?_
  simp [decOp01, bits_A_d, bits_A_a, bits_A_b, bits_A_fn, flag_A_fn, need, fD, fA, fB, fFn, fImm15, fImm20, fPg,
    fEa, fEb, vInt, vFlt]

theorem sltu (d a b : BitVec 5) : Statement (.sltu d a b) := by
  have hop := bits_A_op 0x01 d a b 9 25 7 (by decide)
  refine of_word (encA 0x01 d a b 9) rfl rfl hop (by decide) (raw_01 _ hop) fun hw => ?_
  simp [decOp01, bits_A_d, bits_A_a, bits_A_b, bits_A_fn, flag_A_fn, need, fD, fA, fB, fFn, fImm15, fImm20, fPg,
    fEa, fEb, vInt, vFlt]

theorem min (d a b : BitVec 5) : Statement (.min d a b) := by
  have hop := bits_A_op 0x01 d a b 10 25 7 (by decide)
  refine of_word (encA 0x01 d a b 10) rfl rfl hop (by decide) (raw_01 _ hop) fun hw => ?_
  simp [decOp01, bits_A_d, bits_A_a, bits_A_b, bits_A_fn, flag_A_fn, need, fD, fA, fB, fFn, fImm15, fImm20, fPg,
    fEa, fEb, vInt, vFlt]

theorem max (d a b : BitVec 5) : Statement (.max d a b) := by
  have hop := bits_A_op 0x01 d a b 11 25 7 (by decide)
  refine of_word (encA 0x01 d a b 11) rfl rfl hop (by decide) (raw_01 _ hop) fun hw => ?_
  simp [decOp01, bits_A_d, bits_A_a, bits_A_b, bits_A_fn, flag_A_fn, need, fD, fA, fB, fFn, fImm15, fImm20, fPg,
    fEa, fEb, vInt, vFlt]

theorem minu (d a b : BitVec 5) : Statement (.minu d a b) := by
  have hop := bits_A_op 0x01 d a b 12 25 7 (by decide)
  refine of_word (encA 0x01 d a b 12) rfl rfl hop (by decide) (raw_01 _ hop) fun hw => ?_
  simp [decOp01, bits_A_d, bits_A_a, bits_A_b, bits_A_fn, flag_A_fn, need, fD, fA, fB, fFn, fImm15, fImm20, fPg,
    fEa, fEb, vInt, vFlt]

theorem maxu (d a b : BitVec 5) : Statement (.maxu d a b) := by
  have hop := bits_A_op 0x01 d a b 13 25 7 (by decide)
  refine of_word (encA 0x01 d a b 13) rfl rfl hop (by decide) (raw_01 _ hop) fun hw => ?_
  simp [decOp01, bits_A_d, bits_A_a, bits_A_b, bits_A_fn, flag_A_fn, need, fD, fA, fB, fFn, fImm15, fImm20, fPg,
    fEa, fEb, vInt, vFlt]

theorem addi (d a : BitVec 5) (imm : BitVec 15) : Statement (.addi d a imm) := by
  have hop := bits_B_op 0x02 d a imm 25 7 (by decide)
  refine of_word (encB 0x02 d a imm) rfl rfl hop (by decide) (raw_02 _ hop) fun hw => ?_
  simp [decOp02, bits_B_d, bits_B_a, bits_B_imm, flag_B_imm, need, fD, fA, fB, fFn, fImm15, fImm20, fPg, fEa,
    fEb, vInt, vFlt]

theorem andi (d a : BitVec 5) (imm : BitVec 15) : Statement (.andi d a imm) := by
  have hop := bits_B_op 0x03 d a imm 25 7 (by decide)
  refine of_word (encB 0x03 d a imm) rfl rfl hop (by decide) (raw_03 _ hop) fun hw => ?_
  simp [decOp03, bits_B_d, bits_B_a, bits_B_imm, flag_B_imm, need, fD, fA, fB, fFn, fImm15, fImm20, fPg, fEa,
    fEb, vInt, vFlt]

theorem ori (d a : BitVec 5) (imm : BitVec 15) : Statement (.ori d a imm) := by
  have hop := bits_B_op 0x04 d a imm 25 7 (by decide)
  refine of_word (encB 0x04 d a imm) rfl rfl hop (by decide) (raw_04 _ hop) fun hw => ?_
  simp [decOp04, bits_B_d, bits_B_a, bits_B_imm, flag_B_imm, need, fD, fA, fB, fFn, fImm15, fImm20, fPg, fEa,
    fEb, vInt, vFlt]

theorem xori (d a : BitVec 5) (imm : BitVec 15) : Statement (.xori d a imm) := by
  have hop := bits_B_op 0x05 d a imm 25 7 (by decide)
  refine of_word (encB 0x05 d a imm) rfl rfl hop (by decide) (raw_05 _ hop) fun hw => ?_
  simp [decOp05, bits_B_d, bits_B_a, bits_B_imm, flag_B_imm, need, fD, fA, fB, fFn, fImm15, fImm20, fPg, fEa,
    fEb, vInt, vFlt]

theorem slti (d a : BitVec 5) (imm : BitVec 15) : Statement (.slti d a imm) := by
  have hop := bits_B_op 0x06 d a imm 25 7 (by decide)
  refine of_word (encB 0x06 d a imm) rfl rfl hop (by decide) (raw_06 _ hop) fun hw => ?_
  simp [decOp06, bits_B_d, bits_B_a, bits_B_imm, flag_B_imm, need, fD, fA, fB, fFn, fImm15, fImm20, fPg, fEa,
    fEb, vInt, vFlt]

theorem slli (d a : BitVec 5) (h : BitVec 6) : Statement (.slli d a h) := by
  have hop := bits_B_op 0x07 d a ((0 : BitVec 7) ++ (0 : BitVec 2) ++ h) 25 7 (by decide)
  refine of_word (encB 0x07 d a ((0 : BitVec 7) ++ (0 : BitVec 2) ++ h)) rfl rfl hop (by decide) (raw_07 _ hop) fun hw => ?_
  simp [decOp07, bits_B_d, bits_B_a, bits_B_imm, flag_B_imm, need, fD, fA, fB, fFn, fImm15, fImm20, fPg, fEa,
    fEb, vInt, vFlt, @BitVec.extractLsb'_append_eq_of_le 9 6, @BitVec.extractLsb'_append_eq_of_add_le 9 6,
    @BitVec.getLsbD_append 9 6, @BitVec.extractLsb'_append_eq_of_le 7 2, @BitVec.extractLsb'_append_eq_of_add_le
    7 2, @BitVec.getLsbD_append 7 2, -BitVec.getLsbD_eq_getElem]

theorem srli (d a : BitVec 5) (h : BitVec 6) : Statement (.srli d a h) := by
  have hop := bits_B_op 0x07 d a ((0 : BitVec 7) ++ (1 : BitVec 2) ++ h) 25 7 (by decide)
  refine of_word (encB 0x07 d a ((0 : BitVec 7) ++ (1 : BitVec 2) ++ h)) rfl rfl hop (by decide) (raw_07 _ hop) fun hw => ?_
  simp [decOp07, bits_B_d, bits_B_a, bits_B_imm, flag_B_imm, need, fD, fA, fB, fFn, fImm15, fImm20, fPg, fEa,
    fEb, vInt, vFlt, @BitVec.extractLsb'_append_eq_of_le 9 6, @BitVec.extractLsb'_append_eq_of_add_le 9 6,
    @BitVec.getLsbD_append 9 6, @BitVec.extractLsb'_append_eq_of_le 7 2, @BitVec.extractLsb'_append_eq_of_add_le
    7 2, @BitVec.getLsbD_append 7 2, -BitVec.getLsbD_eq_getElem]

theorem srai (d a : BitVec 5) (h : BitVec 6) : Statement (.srai d a h) := by
  have hop := bits_B_op 0x07 d a ((0 : BitVec 7) ++ (2 : BitVec 2) ++ h) 25 7 (by decide)
  refine of_word (encB 0x07 d a ((0 : BitVec 7) ++ (2 : BitVec 2) ++ h)) rfl rfl hop (by decide) (raw_07 _ hop) fun hw => ?_
  simp [decOp07, bits_B_d, bits_B_a, bits_B_imm, flag_B_imm, need, fD, fA, fB, fFn, fImm15, fImm20, fPg, fEa,
    fEb, vInt, vFlt, @BitVec.extractLsb'_append_eq_of_le 9 6, @BitVec.extractLsb'_append_eq_of_add_le 9 6,
    @BitVec.getLsbD_append 9 6, @BitVec.extractLsb'_append_eq_of_le 7 2, @BitVec.extractLsb'_append_eq_of_add_le
    7 2, @BitVec.getLsbD_append 7 2, -BitVec.getLsbD_eq_getElem]

theorem li (d : BitVec 5) (imm : BitVec 20) : Statement (.li d imm) := by
  have hop := bits_C_op 0x08 d imm 25 7 (by decide)
  refine of_word (encC 0x08 d imm) rfl rfl hop (by decide) (raw_08 _ hop) fun hw => ?_
  simp [decOp08, bits_C_d, bits_C_imm, need, fD, fA, fB, fFn, fImm15, fImm20, fPg, fEa, fEb, vInt, vFlt]

theorem lih (d : BitVec 5) (imm : BitVec 20) : Statement (.lih d imm) := by
  have hop := bits_C_op 0x09 d imm 25 7 (by decide)
  refine of_word (encC 0x09 d imm) rfl rfl hop (by decide) (raw_09 _ hop) fun hw => ?_
  simp [decOp09, bits_C_d, bits_C_imm, need, fD, fA, fB, fFn, fImm15, fImm20, fPg, fEa, fEb, vInt, vFlt]

theorem lix (d : BitVec 5) (imm : BitVec 20) : Statement (.lix d imm) := by
  have hop := bits_C_op 0x0A d imm 25 7 (by decide)
  refine of_word (encC 0x0A d imm) rfl rfl hop (by decide) (raw_0A _ hop) fun hw => ?_
  simp [decOp0A, bits_C_d, bits_C_imm, need, fD, fA, fB, fFn, fImm15, fImm20, fPg, fEa, fEb, vInt, vFlt]

theorem mul (d a b : BitVec 5) : Statement (.mul d a b) := by
  have hop := bits_A_op 0x0B d a b 0 25 7 (by decide)
  refine of_word (encA 0x0B d a b 0) rfl rfl hop (by decide) (raw_0B _ hop) fun hw => ?_
  simp [decOp0B, bits_A_d, bits_A_a, bits_A_b, bits_A_fn, flag_A_fn, need, fD, fA, fB, fFn, fImm15, fImm20, fPg,
    fEa, fEb, vInt, vFlt]

theorem mulh (d a b : BitVec 5) : Statement (.mulh d a b) := by
  have hop := bits_A_op 0x0B d a b 1 25 7 (by decide)
  refine of_word (encA 0x0B d a b 1) rfl rfl hop (by decide) (raw_0B _ hop) fun hw => ?_
  simp [decOp0B, bits_A_d, bits_A_a, bits_A_b, bits_A_fn, flag_A_fn, need, fD, fA, fB, fFn, fImm15, fImm20, fPg,
    fEa, fEb, vInt, vFlt]

theorem mulhu (d a b : BitVec 5) : Statement (.mulhu d a b) := by
  have hop := bits_A_op 0x0B d a b 2 25 7 (by decide)
  refine of_word (encA 0x0B d a b 2) rfl rfl hop (by decide) (raw_0B _ hop) fun hw => ?_
  simp [decOp0B, bits_A_d, bits_A_a, bits_A_b, bits_A_fn, flag_A_fn, need, fD, fA, fB, fFn, fImm15, fImm20, fPg,
    fEa, fEb, vInt, vFlt]

theorem div (d a b : BitVec 5) : Statement (.div d a b) := by
  have hop := bits_A_op 0x0B d a b 3 25 7 (by decide)
  refine of_word (encA 0x0B d a b 3) rfl rfl hop (by decide) (raw_0B _ hop) fun hw => ?_
  simp [decOp0B, bits_A_d, bits_A_a, bits_A_b, bits_A_fn, flag_A_fn, need, fD, fA, fB, fFn, fImm15, fImm20, fPg,
    fEa, fEb, vInt, vFlt]

theorem divu (d a b : BitVec 5) : Statement (.divu d a b) := by
  have hop := bits_A_op 0x0B d a b 4 25 7 (by decide)
  refine of_word (encA 0x0B d a b 4) rfl rfl hop (by decide) (raw_0B _ hop) fun hw => ?_
  simp [decOp0B, bits_A_d, bits_A_a, bits_A_b, bits_A_fn, flag_A_fn, need, fD, fA, fB, fFn, fImm15, fImm20, fPg,
    fEa, fEb, vInt, vFlt]

theorem rem (d a b : BitVec 5) : Statement (.rem d a b) := by
  have hop := bits_A_op 0x0B d a b 5 25 7 (by decide)
  refine of_word (encA 0x0B d a b 5) rfl rfl hop (by decide) (raw_0B _ hop) fun hw => ?_
  simp [decOp0B, bits_A_d, bits_A_a, bits_A_b, bits_A_fn, flag_A_fn, need, fD, fA, fB, fFn, fImm15, fImm20, fPg,
    fEa, fEb, vInt, vFlt]

theorem remu (d a b : BitVec 5) : Statement (.remu d a b) := by
  have hop := bits_A_op 0x0B d a b 6 25 7 (by decide)
  refine of_word (encA 0x0B d a b 6) rfl rfl hop (by decide) (raw_0B _ hop) fun hw => ?_
  simp [decOp0B, bits_A_d, bits_A_a, bits_A_b, bits_A_fn, flag_A_fn, need, fD, fA, fB, fFn, fImm15, fImm20, fPg,
    fEa, fEb, vInt, vFlt]

theorem clz (d a : BitVec 5) : Statement (.clz d a) := by
  have hop := bits_A_op 0x0C d a 0 0 25 7 (by decide)
  refine of_word (encA 0x0C d a 0 0) rfl rfl hop (by decide) (raw_0C _ hop) fun hw => ?_
  simp [decOp0C, bits_A_d, bits_A_a, bits_A_b, bits_A_fn, flag_A_fn, need, fD, fA, fB, fFn, fImm15, fImm20, fPg,
    fEa, fEb, vInt, vFlt]

theorem ctz (d a : BitVec 5) : Statement (.ctz d a) := by
  have hop := bits_A_op 0x0C d a 0 1 25 7 (by decide)
  refine of_word (encA 0x0C d a 0 1) rfl rfl hop (by decide) (raw_0C _ hop) fun hw => ?_
  simp [decOp0C, bits_A_d, bits_A_a, bits_A_b, bits_A_fn, flag_A_fn, need, fD, fA, fB, fFn, fImm15, fImm20, fPg,
    fEa, fEb, vInt, vFlt]

theorem popc (d a : BitVec 5) : Statement (.popc d a) := by
  have hop := bits_A_op 0x0C d a 0 2 25 7 (by decide)
  refine of_word (encA 0x0C d a 0 2) rfl rfl hop (by decide) (raw_0C _ hop) fun hw => ?_
  simp [decOp0C, bits_A_d, bits_A_a, bits_A_b, bits_A_fn, flag_A_fn, need, fD, fA, fB, fFn, fImm15, fImm20, fPg,
    fEa, fEb, vInt, vFlt]

theorem brev (d a : BitVec 5) : Statement (.brev d a) := by
  have hop := bits_A_op 0x0C d a 0 3 25 7 (by decide)
  refine of_word (encA 0x0C d a 0 3) rfl rfl hop (by decide) (raw_0C _ hop) fun hw => ?_
  simp [decOp0C, bits_A_d, bits_A_a, bits_A_b, bits_A_fn, flag_A_fn, need, fD, fA, fB, fFn, fImm15, fImm20, fPg,
    fEa, fEb, vInt, vFlt]

theorem bext (d a b : BitVec 5) : Statement (.bext d a b) := by
  have hop := bits_A_op 0x0C d a b 4 25 7 (by decide)
  refine of_word (encA 0x0C d a b 4) rfl rfl hop (by decide) (raw_0C _ hop) fun hw => ?_
  simp [decOp0C, bits_A_d, bits_A_a, bits_A_b, bits_A_fn, flag_A_fn, need, fD, fA, fB, fFn, fImm15, fImm20, fPg,
    fEa, fEb, vInt, vFlt]

theorem bins (d a b : BitVec 5) : Statement (.bins d a b) := by
  have hop := bits_A_op 0x0C d a b 5 25 7 (by decide)
  refine of_word (encA 0x0C d a b 5) rfl rfl hop (by decide) (raw_0C _ hop) fun hw => ?_
  simp [decOp0C, bits_A_d, bits_A_a, bits_A_b, bits_A_fn, flag_A_fn, need, fD, fA, fB, fFn, fImm15, fImm20, fPg,
    fEa, fEb, vInt, vFlt]

theorem lea (d a b : BitVec 5) (h : BitVec 3) : Statement (.lea d a b h) := by
  have hop := bits_A_op 0x0D d a b ((0 : BitVec 7) ++ h) 25 7 (by decide)
  refine of_word (encA 0x0D d a b ((0 : BitVec 7) ++ h)) rfl rfl hop (by decide) (raw_0D _ hop) fun hw => ?_
  simp [decOp0D, bits_A_d, bits_A_a, bits_A_b, bits_A_fn, flag_A_fn, need, fD, fA, fB, fFn, fImm15, fImm20, fPg,
    fEa, fEb, vInt, vFlt, @BitVec.extractLsb'_append_eq_of_le 7 3, @BitVec.extractLsb'_append_eq_of_add_le 7 3,
    @BitVec.getLsbD_append 7 3, -BitVec.getLsbD_eq_getElem]

theorem cmov (d a b : BitVec 5) : Statement (.cmov d a b) := by
  have hop := bits_A_op 0x0E d a b 0 25 7 (by decide)
  refine of_word (encA 0x0E d a b 0) rfl rfl hop (by decide) (raw_0E _ hop) fun hw => ?_
  simp [decOp0E, bits_A_d, bits_A_a, bits_A_b, bits_A_fn, flag_A_fn, need, fD, fA, fB, fFn, fImm15, fImm20, fPg,
    fEa, fEb, vInt, vFlt]

theorem fadd (d a b : BitVec 5) : Statement (.fadd d a b) := by
  have hop := bits_A_op 0x0F d a b 0 25 7 (by decide)
  refine of_word (encA 0x0F d a b 0) rfl rfl hop (by decide) (raw_0F _ hop) fun hw => ?_
  simp [decOp0F, bits_A_d, bits_A_a, bits_A_b, bits_A_fn, flag_A_fn, need, fD, fA, fB, fFn, fImm15, fImm20, fPg,
    fEa, fEb, vInt, vFlt]

theorem fsub (d a b : BitVec 5) : Statement (.fsub d a b) := by
  have hop := bits_A_op 0x0F d a b 1 25 7 (by decide)
  refine of_word (encA 0x0F d a b 1) rfl rfl hop (by decide) (raw_0F _ hop) fun hw => ?_
  simp [decOp0F, bits_A_d, bits_A_a, bits_A_b, bits_A_fn, flag_A_fn, need, fD, fA, fB, fFn, fImm15, fImm20, fPg,
    fEa, fEb, vInt, vFlt]

theorem fmul (d a b : BitVec 5) : Statement (.fmul d a b) := by
  have hop := bits_A_op 0x0F d a b 2 25 7 (by decide)
  refine of_word (encA 0x0F d a b 2) rfl rfl hop (by decide) (raw_0F _ hop) fun hw => ?_
  simp [decOp0F, bits_A_d, bits_A_a, bits_A_b, bits_A_fn, flag_A_fn, need, fD, fA, fB, fFn, fImm15, fImm20, fPg,
    fEa, fEb, vInt, vFlt]

theorem fmin (d a b : BitVec 5) : Statement (.fmin d a b) := by
  have hop := bits_A_op 0x0F d a b 3 25 7 (by decide)
  refine of_word (encA 0x0F d a b 3) rfl rfl hop (by decide) (raw_0F _ hop) fun hw => ?_
  simp [decOp0F, bits_A_d, bits_A_a, bits_A_b, bits_A_fn, flag_A_fn, need, fD, fA, fB, fFn, fImm15, fImm20, fPg,
    fEa, fEb, vInt, vFlt]

theorem fmax (d a b : BitVec 5) : Statement (.fmax d a b) := by
  have hop := bits_A_op 0x0F d a b 4 25 7 (by decide)
  refine of_word (encA 0x0F d a b 4) rfl rfl hop (by decide) (raw_0F _ hop) fun hw => ?_
  simp [decOp0F, bits_A_d, bits_A_a, bits_A_b, bits_A_fn, flag_A_fn, need, fD, fA, fB, fFn, fImm15, fImm20, fPg,
    fEa, fEb, vInt, vFlt]

theorem feq (d a b : BitVec 5) : Statement (.feq d a b) := by
  have hop := bits_A_op 0x0F d a b 5 25 7 (by decide)
  refine of_word (encA 0x0F d a b 5) rfl rfl hop (by decide) (raw_0F _ hop) fun hw => ?_
  simp [decOp0F, bits_A_d, bits_A_a, bits_A_b, bits_A_fn, flag_A_fn, need, fD, fA, fB, fFn, fImm15, fImm20, fPg,
    fEa, fEb, vInt, vFlt]

theorem flt (d a b : BitVec 5) : Statement (.flt d a b) := by
  have hop := bits_A_op 0x0F d a b 6 25 7 (by decide)
  refine of_word (encA 0x0F d a b 6) rfl rfl hop (by decide) (raw_0F _ hop) fun hw => ?_
  simp [decOp0F, bits_A_d, bits_A_a, bits_A_b, bits_A_fn, flag_A_fn, need, fD, fA, fB, fFn, fImm15, fImm20, fPg,
    fEa, fEb, vInt, vFlt]

theorem fle (d a b : BitVec 5) : Statement (.fle d a b) := by
  have hop := bits_A_op 0x0F d a b 7 25 7 (by decide)
  refine of_word (encA 0x0F d a b 7) rfl rfl hop (by decide) (raw_0F _ hop) fun hw => ?_
  simp [decOp0F, bits_A_d, bits_A_a, bits_A_b, bits_A_fn, flag_A_fn, need, fD, fA, fB, fFn, fImm15, fImm20, fPg,
    fEa, fEb, vInt, vFlt]

theorem fcvti (d a : BitVec 5) : Statement (.fcvti d a) := by
  have hop := bits_A_op 0x0F d a 0 8 25 7 (by decide)
  refine of_word (encA 0x0F d a 0 8) rfl rfl hop (by decide) (raw_0F _ hop) fun hw => ?_
  simp [decOp0F, bits_A_d, bits_A_a, bits_A_b, bits_A_fn, flag_A_fn, need, fD, fA, fB, fFn, fImm15, fImm20, fPg,
    fEa, fEb, vInt, vFlt]

theorem fcvtf (d a : BitVec 5) : Statement (.fcvtf d a) := by
  have hop := bits_A_op 0x0F d a 0 9 25 7 (by decide)
  refine of_word (encA 0x0F d a 0 9) rfl rfl hop (by decide) (raw_0F _ hop) fun hw => ?_
  simp [decOp0F, bits_A_d, bits_A_a, bits_A_b, bits_A_fn, flag_A_fn, need, fD, fA, fB, fFn, fImm15, fImm20, fPg,
    fEa, fEb, vInt, vFlt]

theorem ffma (d a b : BitVec 5) : Statement (.ffma d a b) := by
  have hop := bits_A_op 0x10 d a b 0 25 7 (by decide)
  refine of_word (encA 0x10 d a b 0) rfl rfl hop (by decide) (raw_10 _ hop) fun hw => ?_
  simp [decOp10, bits_A_d, bits_A_a, bits_A_b, bits_A_fn, flag_A_fn, need, fD, fA, fB, fFn, fImm15, fImm20, fPg,
    fEa, fEb, vInt, vFlt]

theorem ldb (t base : BitVec 5) (off : BitVec 12) : Statement (.ldb t base off) := by
  have hop := bits_M_op 0x11 t base 0 off 25 7 (by decide)
  refine of_word (encM 0x11 t base 0 off) rfl rfl hop (by decide) (raw_11 _ hop) fun hw => ?_
  simp [decOp11, bits_M_t, bits_M_base, bits_M_pg, bits_M_off, need, fD, fA, fB, fFn, fImm15, fImm20, fPg, fEa,
    fEb, vInt, vFlt]

theorem ldbu (t base : BitVec 5) (off : BitVec 12) : Statement (.ldbu t base off) := by
  have hop := bits_M_op 0x12 t base 0 off 25 7 (by decide)
  refine of_word (encM 0x12 t base 0 off) rfl rfl hop (by decide) (raw_12 _ hop) fun hw => ?_
  simp [decOp12, bits_M_t, bits_M_base, bits_M_pg, bits_M_off, need, fD, fA, fB, fFn, fImm15, fImm20, fPg, fEa,
    fEb, vInt, vFlt]

theorem ldh (t base : BitVec 5) (off : BitVec 12) : Statement (.ldh t base off) := by
  have hop := bits_M_op 0x13 t base 0 off 25 7 (by decide)
  refine of_word (encM 0x13 t base 0 off) rfl rfl hop (by decide) (raw_13 _ hop) fun hw => ?_
  simp [decOp13, bits_M_t, bits_M_base, bits_M_pg, bits_M_off, need, fD, fA, fB, fFn, fImm15, fImm20, fPg, fEa,
    fEb, vInt, vFlt]

theorem ldhu (t base : BitVec 5) (off : BitVec 12) : Statement (.ldhu t base off) := by
  have hop := bits_M_op 0x14 t base 0 off 25 7 (by decide)
  refine of_word (encM 0x14 t base 0 off) rfl rfl hop (by decide) (raw_14 _ hop) fun hw => ?_
  simp [decOp14, bits_M_t, bits_M_base, bits_M_pg, bits_M_off, need, fD, fA, fB, fFn, fImm15, fImm20, fPg, fEa,
    fEb, vInt, vFlt]

theorem ldw (t base : BitVec 5) (off : BitVec 12) : Statement (.ldw t base off) := by
  have hop := bits_M_op 0x15 t base 0 off 25 7 (by decide)
  refine of_word (encM 0x15 t base 0 off) rfl rfl hop (by decide) (raw_15 _ hop) fun hw => ?_
  simp [decOp15, bits_M_t, bits_M_base, bits_M_pg, bits_M_off, need, fD, fA, fB, fFn, fImm15, fImm20, fPg, fEa,
    fEb, vInt, vFlt]

theorem ldwu (t base : BitVec 5) (off : BitVec 12) : Statement (.ldwu t base off) := by
  have hop := bits_M_op 0x16 t base 0 off 25 7 (by decide)
  refine of_word (encM 0x16 t base 0 off) rfl rfl hop (by decide) (raw_16 _ hop) fun hw => ?_
  simp [decOp16, bits_M_t, bits_M_base, bits_M_pg, bits_M_off, need, fD, fA, fB, fFn, fImm15, fImm20, fPg, fEa,
    fEb, vInt, vFlt]

theorem ldd (t base : BitVec 5) (off : BitVec 12) : Statement (.ldd t base off) := by
  have hop := bits_M_op 0x17 t base 0 off 25 7 (by decide)
  refine of_word (encM 0x17 t base 0 off) rfl rfl hop (by decide) (raw_17 _ hop) fun hw => ?_
  simp [decOp17, bits_M_t, bits_M_base, bits_M_pg, bits_M_off, need, fD, fA, fB, fFn, fImm15, fImm20, fPg, fEa,
    fEb, vInt, vFlt]

theorem stb (t base : BitVec 5) (off : BitVec 12) : Statement (.stb t base off) := by
  have hop := bits_M_op 0x18 t base 0 off 25 7 (by decide)
  refine of_word (encM 0x18 t base 0 off) rfl rfl hop (by decide) (raw_18 _ hop) fun hw => ?_
  simp [decOp18, bits_M_t, bits_M_base, bits_M_pg, bits_M_off, need, fD, fA, fB, fFn, fImm15, fImm20, fPg, fEa,
    fEb, vInt, vFlt]

theorem sth (t base : BitVec 5) (off : BitVec 12) : Statement (.sth t base off) := by
  have hop := bits_M_op 0x19 t base 0 off 25 7 (by decide)
  refine of_word (encM 0x19 t base 0 off) rfl rfl hop (by decide) (raw_19 _ hop) fun hw => ?_
  simp [decOp19, bits_M_t, bits_M_base, bits_M_pg, bits_M_off, need, fD, fA, fB, fFn, fImm15, fImm20, fPg, fEa,
    fEb, vInt, vFlt]

theorem stw (t base : BitVec 5) (off : BitVec 12) : Statement (.stw t base off) := by
  have hop := bits_M_op 0x1A t base 0 off 25 7 (by decide)
  refine of_word (encM 0x1A t base 0 off) rfl rfl hop (by decide) (raw_1A _ hop) fun hw => ?_
  simp [decOp1A, bits_M_t, bits_M_base, bits_M_pg, bits_M_off, need, fD, fA, fB, fFn, fImm15, fImm20, fPg, fEa,
    fEb, vInt, vFlt]

theorem std (t base : BitVec 5) (off : BitVec 12) : Statement (.std t base off) := by
  have hop := bits_M_op 0x1B t base 0 off 25 7 (by decide)
  refine of_word (encM 0x1B t base 0 off) rfl rfl hop (by decide) (raw_1B _ hop) fun hw => ?_
  simp [decOp1B, bits_M_t, bits_M_base, bits_M_pg, bits_M_off, need, fD, fA, fB, fFn, fImm15, fImm20, fPg, fEa,
    fEb, vInt, vFlt]

theorem vld (t base : BitVec 5) (pg : BitVec 3) (off : BitVec 12) : Statement (.vld t base pg off) := by
  have hop := bits_M_op 0x1C t base pg off 25 7 (by decide)
  refine of_word (encM 0x1C t base pg off) rfl rfl hop (by decide) (raw_1C _ hop) fun hw => ?_
  simp [decOp1C, bits_M_t, bits_M_base, bits_M_pg, bits_M_off, need, fD, fA, fB, fFn, fImm15, fImm20, fPg, fEa,
    fEb, vInt, vFlt]

theorem vst (t base : BitVec 5) (pg : BitVec 3) (off : BitVec 12) : Statement (.vst t base pg off) := by
  have hop := bits_M_op 0x1D t base pg off 25 7 (by decide)
  refine of_word (encM 0x1D t base pg off) rfl rfl hop (by decide) (raw_1D _ hop) fun hw => ?_
  simp [decOp1D, bits_M_t, bits_M_base, bits_M_pg, bits_M_off, need, fD, fA, fB, fFn, fImm15, fImm20, fPg, fEa,
    fEb, vInt, vFlt]

theorem vlds (d a b : BitVec 5) (w : EW) : Statement (.vlds d a b w) := by
  have hop := bits_A_op 0x1E d a b ((0 : BitVec 7) ++ (0 : BitVec 1) ++ w.memCode) 25 7 (by decide)
  refine of_word (encA 0x1E d a b ((0 : BitVec 7) ++ (0 : BitVec 1) ++ w.memCode)) rfl rfl hop (by decide) (raw_1E _ hop) fun hw => ?_
  cases w <;> simp [decOp1E, bits_A_d, bits_A_a, bits_A_b, bits_A_fn, flag_A_fn, need, fD, fA, fB, fFn, fImm15,
    fImm20, fPg, fEa, fEb, vInt, vFlt, @BitVec.extractLsb'_append_eq_of_le 8 2,
    @BitVec.extractLsb'_append_eq_of_add_le 8 2, @BitVec.getLsbD_append 8 2, @BitVec.extractLsb'_append_eq_of_le
    7 1, @BitVec.extractLsb'_append_eq_of_add_le 7 1, @BitVec.getLsbD_append 7 1, -BitVec.getLsbD_eq_getElem,
    EW.memCode, EW.ofMemCode]

theorem vsts (d a b : BitVec 5) (w : EW) : Statement (.vsts d a b w) := by
  have hop := bits_A_op 0x1E d a b ((0 : BitVec 7) ++ (1 : BitVec 1) ++ w.memCode) 25 7 (by decide)
  refine of_word (encA 0x1E d a b ((0 : BitVec 7) ++ (1 : BitVec 1) ++ w.memCode)) rfl rfl hop (by decide) (raw_1E _ hop) fun hw => ?_
  cases w <;> simp [decOp1E, bits_A_d, bits_A_a, bits_A_b, bits_A_fn, flag_A_fn, need, fD, fA, fB, fFn, fImm15,
    fImm20, fPg, fEa, fEb, vInt, vFlt, @BitVec.extractLsb'_append_eq_of_le 8 2,
    @BitVec.extractLsb'_append_eq_of_add_le 8 2, @BitVec.getLsbD_append 8 2, @BitVec.extractLsb'_append_eq_of_le
    7 1, @BitVec.extractLsb'_append_eq_of_add_le 7 1, @BitVec.getLsbD_append 7 1, -BitVec.getLsbD_eq_getElem,
    EW.memCode, EW.ofMemCode]

theorem vgath (d a b : BitVec 5) (w : EW) : Statement (.vgath d a b w) := by
  have hop := bits_A_op 0x1F d a b ((0 : BitVec 7) ++ (0 : BitVec 1) ++ w.memCode) 25 7 (by decide)
  refine of_word (encA 0x1F d a b ((0 : BitVec 7) ++ (0 : BitVec 1) ++ w.memCode)) rfl rfl hop (by decide) (raw_1F _ hop) fun hw => ?_
  cases w <;> simp [decOp1F, bits_A_d, bits_A_a, bits_A_b, bits_A_fn, flag_A_fn, need, fD, fA, fB, fFn, fImm15,
    fImm20, fPg, fEa, fEb, vInt, vFlt, @BitVec.extractLsb'_append_eq_of_le 8 2,
    @BitVec.extractLsb'_append_eq_of_add_le 8 2, @BitVec.getLsbD_append 8 2, @BitVec.extractLsb'_append_eq_of_le
    7 1, @BitVec.extractLsb'_append_eq_of_add_le 7 1, @BitVec.getLsbD_append 7 1, -BitVec.getLsbD_eq_getElem,
    EW.memCode, EW.ofMemCode]

theorem vscat (d a b : BitVec 5) (w : EW) : Statement (.vscat d a b w) := by
  have hop := bits_A_op 0x1F d a b ((0 : BitVec 7) ++ (1 : BitVec 1) ++ w.memCode) 25 7 (by decide)
  refine of_word (encA 0x1F d a b ((0 : BitVec 7) ++ (1 : BitVec 1) ++ w.memCode)) rfl rfl hop (by decide) (raw_1F _ hop) fun hw => ?_
  cases w <;> simp [decOp1F, bits_A_d, bits_A_a, bits_A_b, bits_A_fn, flag_A_fn, need, fD, fA, fB, fFn, fImm15,
    fImm20, fPg, fEa, fEb, vInt, vFlt, @BitVec.extractLsb'_append_eq_of_le 8 2,
    @BitVec.extractLsb'_append_eq_of_add_le 8 2, @BitVec.getLsbD_append 8 2, @BitVec.extractLsb'_append_eq_of_le
    7 1, @BitVec.extractLsb'_append_eq_of_add_le 7 1, @BitVec.getLsbD_append 7 1, -BitVec.getLsbD_eq_getElem,
    EW.memCode, EW.ofMemCode]

theorem naadd (d a b : BitVec 5) (z : Bool) : Statement (.naadd d a b z) := by
  have hop := bits_A_op 0x20 d a b ((0 : BitVec 7) ++ BitVec.ofBool z ++ (0 : BitVec 2)) 25 7 (by decide)
  refine of_word (encA 0x20 d a b ((0 : BitVec 7) ++ BitVec.ofBool z ++ (0 : BitVec 2))) rfl rfl hop (by decide) (raw_20 _ hop) fun hw => ?_
  simp [decOp20, bits_A_d, bits_A_a, bits_A_b, bits_A_fn, flag_A_fn, need, fD, fA, fB, fFn, fImm15, fImm20, fPg,
    fEa, fEb, vInt, vFlt, @BitVec.extractLsb'_append_eq_of_le 8 2, @BitVec.extractLsb'_append_eq_of_add_le 8 2,
    @BitVec.getLsbD_append 8 2, @BitVec.extractLsb'_append_eq_of_le 7 1, @BitVec.extractLsb'_append_eq_of_add_le
    7 1, @BitVec.getLsbD_append 7 1, -BitVec.getLsbD_eq_getElem]

theorem nacas (d a b : BitVec 5) (z : Bool) : Statement (.nacas d a b z) := by
  have hop := bits_A_op 0x20 d a b ((0 : BitVec 7) ++ BitVec.ofBool z ++ (1 : BitVec 2)) 25 7 (by decide)
  refine of_word (encA 0x20 d a b ((0 : BitVec 7) ++ BitVec.ofBool z ++ (1 : BitVec 2))) rfl rfl hop (by decide) (raw_20 _ hop) fun hw => ?_
  simp [decOp20, bits_A_d, bits_A_a, bits_A_b, bits_A_fn, flag_A_fn, need, fD, fA, fB, fFn, fImm15, fImm20, fPg,
    fEa, fEb, vInt, vFlt, @BitVec.extractLsb'_append_eq_of_le 8 2, @BitVec.extractLsb'_append_eq_of_add_le 8 2,
    @BitVec.getLsbD_append 8 2, @BitVec.extractLsb'_append_eq_of_le 7 1, @BitVec.extractLsb'_append_eq_of_add_le
    7 1, @BitVec.getLsbD_append 7 1, -BitVec.getLsbD_eq_getElem]

theorem naxch (d a b : BitVec 5) (z : Bool) : Statement (.naxch d a b z) := by
  have hop := bits_A_op 0x20 d a b ((0 : BitVec 7) ++ BitVec.ofBool z ++ (2 : BitVec 2)) 25 7 (by decide)
  refine of_word (encA 0x20 d a b ((0 : BitVec 7) ++ BitVec.ofBool z ++ (2 : BitVec 2))) rfl rfl hop (by decide) (raw_20 _ hop) fun hw => ?_
  simp [decOp20, bits_A_d, bits_A_a, bits_A_b, bits_A_fn, flag_A_fn, need, fD, fA, fB, fFn, fImm15, fImm20, fPg,
    fEa, fEb, vInt, vFlt, @BitVec.extractLsb'_append_eq_of_le 8 2, @BitVec.extractLsb'_append_eq_of_add_le 8 2,
    @BitVec.getLsbD_append 8 2, @BitVec.extractLsb'_append_eq_of_le 7 1, @BitVec.extractLsb'_append_eq_of_add_le
    7 1, @BitVec.getLsbD_append 7 1, -BitVec.getLsbD_eq_getElem]

theorem spill (d : BitVec 5) : Statement (.spill d) := by
  have hop := bits_A_op 0x21 d 0 0 0 25 7 (by decide)
  refine of_word (encA 0x21 d 0 0 0) rfl rfl hop (by decide) (raw_21 _ hop) fun hw => ?_
  simp [decOp21, bits_A_d, bits_A_a, bits_A_b, bits_A_fn, flag_A_fn, need, fD, fA, fB, fFn, fImm15, fImm20, fPg,
    fEa, fEb, vInt, vFlt]

theorem fill (d : BitVec 5) : Statement (.fill d) := by
  have hop := bits_A_op 0x21 d 0 0 1 25 7 (by decide)
  refine of_word (encA 0x21 d 0 0 1) rfl rfl hop (by decide) (raw_21 _ hop) fun hw => ?_
  simp [decOp21, bits_A_d, bits_A_a, bits_A_b, bits_A_fn, flag_A_fn, need, fD, fA, fB, fFn, fImm15, fImm20, fPg,
    fEa, fEb, vInt, vFlt]

theorem vspill (d : BitVec 5) : Statement (.vspill d) := by
  have hop := bits_A_op 0x21 d 0 0 2 25 7 (by decide)
  refine of_word (encA 0x21 d 0 0 2) rfl rfl hop (by decide) (raw_21 _ hop) fun hw => ?_
  simp [decOp21, bits_A_d, bits_A_a, bits_A_b, bits_A_fn, flag_A_fn, need, fD, fA, fB, fFn, fImm15, fImm20, fPg,
    fEa, fEb, vInt, vFlt]

theorem vfill (d : BitVec 5) : Statement (.vfill d) := by
  have hop := bits_A_op 0x21 d 0 0 3 25 7 (by decide)
  refine of_word (encA 0x21 d 0 0 3) rfl rfl hop (by decide) (raw_21 _ hop) fun hw => ?_
  simp [decOp21, bits_A_d, bits_A_a, bits_A_b, bits_A_fn, flag_A_fn, need, fD, fA, fB, fFn, fImm15, fImm20, fPg,
    fEa, fEb, vInt, vFlt]

theorem stackSlide (g : Nat) : Statement (.stackSlide g) := of_step rfl rfl

theorem inverseSlide (g : Nat) : Statement (.inverseSlide g) := of_step rfl rfl

theorem vadd (vd va vb : BitVec 5) (pg : BitVec 3) (w : EW) : Statement (.vadd vd va vb pg w) := by
  have hop := bits_V_op 0x28 vd va vb pg w.code false false 0 25 7 (by decide)
  refine of_word (encV 0x28 vd va vb pg w.code false false 0) rfl rfl hop (by decide) (raw_28 _ hop) fun hw => ?_
  cases w <;> simp [decOp28, bits_V_vd, bits_V_va, bits_V_vb, bits_V_pg, bits_V_ty, bits_V_fn, flag_V_zi,
    flag_V_zo, need, fD, fA, fB, fFn, fImm15, fImm20, fPg, fEa, fEb, vInt, vFlt, EW.code, EW.ofCode]

theorem vsub (vd va vb : BitVec 5) (pg : BitVec 3) (w : EW) : Statement (.vsub vd va vb pg w) := by
  have hop := bits_V_op 0x28 vd va vb pg w.code false false 1 25 7 (by decide)
  refine of_word (encV 0x28 vd va vb pg w.code false false 1) rfl rfl hop (by decide) (raw_28 _ hop) fun hw => ?_
  cases w <;> simp [decOp28, bits_V_vd, bits_V_va, bits_V_vb, bits_V_pg, bits_V_ty, bits_V_fn, flag_V_zi,
    flag_V_zo, need, fD, fA, fB, fFn, fImm15, fImm20, fPg, fEa, fEb, vInt, vFlt, EW.code, EW.ofCode]

theorem vmul (vd va vb : BitVec 5) (pg : BitVec 3) (w : EW) : Statement (.vmul vd va vb pg w) := by
  have hop := bits_V_op 0x28 vd va vb pg w.code false false 2 25 7 (by decide)
  refine of_word (encV 0x28 vd va vb pg w.code false false 2) rfl rfl hop (by decide) (raw_28 _ hop) fun hw => ?_
  cases w <;> simp [decOp28, bits_V_vd, bits_V_va, bits_V_vb, bits_V_pg, bits_V_ty, bits_V_fn, flag_V_zi,
    flag_V_zo, need, fD, fA, fB, fFn, fImm15, fImm20, fPg, fEa, fEb, vInt, vFlt, EW.code, EW.ofCode]

theorem vmulh (vd va vb : BitVec 5) (pg : BitVec 3) (w : EW) : Statement (.vmulh vd va vb pg w) := by
  have hop := bits_V_op 0x28 vd va vb pg w.code false false 3 25 7 (by decide)
  refine of_word (encV 0x28 vd va vb pg w.code false false 3) rfl rfl hop (by decide) (raw_28 _ hop) fun hw => ?_
  cases w <;> simp [decOp28, bits_V_vd, bits_V_va, bits_V_vb, bits_V_pg, bits_V_ty, bits_V_fn, flag_V_zi,
    flag_V_zo, need, fD, fA, fB, fFn, fImm15, fImm20, fPg, fEa, fEb, vInt, vFlt, EW.code, EW.ofCode]

theorem vmin (vd va vb : BitVec 5) (pg : BitVec 3) (w : EW) : Statement (.vmin vd va vb pg w) := by
  have hop := bits_V_op 0x28 vd va vb pg w.code false false 4 25 7 (by decide)
  refine of_word (encV 0x28 vd va vb pg w.code false false 4) rfl rfl hop (by decide) (raw_28 _ hop) fun hw => ?_
  cases w <;> simp [decOp28, bits_V_vd, bits_V_va, bits_V_vb, bits_V_pg, bits_V_ty, bits_V_fn, flag_V_zi,
    flag_V_zo, need, fD, fA, fB, fFn, fImm15, fImm20, fPg, fEa, fEb, vInt, vFlt, EW.code, EW.ofCode]

theorem vmax (vd va vb : BitVec 5) (pg : BitVec 3) (w : EW) : Statement (.vmax vd va vb pg w) := by
  have hop := bits_V_op 0x28 vd va vb pg w.code false false 5 25 7 (by decide)
  refine of_word (encV 0x28 vd va vb pg w.code false false 5) rfl rfl hop (by decide) (raw_28 _ hop) fun hw => ?_
  cases w <;> simp [decOp28, bits_V_vd, bits_V_va, bits_V_vb, bits_V_pg, bits_V_ty, bits_V_fn, flag_V_zi,
    flag_V_zo, need, fD, fA, fB, fFn, fImm15, fImm20, fPg, fEa, fEb, vInt, vFlt, EW.code, EW.ofCode]

theorem vabs (vd va : BitVec 5) (pg : BitVec 3) (w : EW) : Statement (.vabs vd va pg w) := by
  have hop := bits_V_op 0x28 vd va 0 pg w.code false false 6 25 7 (by decide)
  refine of_word (encV 0x28 vd va 0 pg w.code false false 6) rfl rfl hop (by decide) (raw_28 _ hop) fun hw => ?_
  cases w <;> simp [decOp28, bits_V_vd, bits_V_va, bits_V_vb, bits_V_pg, bits_V_ty, bits_V_fn, flag_V_zi,
    flag_V_zo, need, fD, fA, fB, fFn, fImm15, fImm20, fPg, fEa, fEb, vInt, vFlt, EW.code, EW.ofCode]

theorem vadds (vd va vb : BitVec 5) (pg : BitVec 3) (w : EW) : Statement (.vadds vd va vb pg w) := by
  have hop := bits_V_op 0x28 vd va vb pg w.code false false 7 25 7 (by decide)
  refine of_word (encV 0x28 vd va vb pg w.code false false 7) rfl rfl hop (by decide) (raw_28 _ hop) fun hw => ?_
  cases w <;> simp [decOp28, bits_V_vd, bits_V_va, bits_V_vb, bits_V_pg, bits_V_ty, bits_V_fn, flag_V_zi,
    flag_V_zo, need, fD, fA, fB, fFn, fImm15, fImm20, fPg, fEa, fEb, vInt, vFlt, EW.code, EW.ofCode]

theorem vand (vd va vb : BitVec 5) (pg : BitVec 3) (w : EW) : Statement (.vand vd va vb pg w) := by
  have hop := bits_V_op 0x29 vd va vb pg w.code false false 0 25 7 (by decide)
  refine of_word (encV 0x29 vd va vb pg w.code false false 0) rfl rfl hop (by decide) (raw_29 _ hop) fun hw => ?_
  cases w <;> simp [decOp29, bits_V_vd, bits_V_va, bits_V_vb, bits_V_pg, bits_V_ty, bits_V_fn, flag_V_zi,
    flag_V_zo, need, fD, fA, fB, fFn, fImm15, fImm20, fPg, fEa, fEb, vInt, vFlt, EW.code, EW.ofCode]

theorem vor (vd va vb : BitVec 5) (pg : BitVec 3) (w : EW) : Statement (.vor vd va vb pg w) := by
  have hop := bits_V_op 0x29 vd va vb pg w.code false false 1 25 7 (by decide)
  refine of_word (encV 0x29 vd va vb pg w.code false false 1) rfl rfl hop (by decide) (raw_29 _ hop) fun hw => ?_
  cases w <;> simp [decOp29, bits_V_vd, bits_V_va, bits_V_vb, bits_V_pg, bits_V_ty, bits_V_fn, flag_V_zi,
    flag_V_zo, need, fD, fA, fB, fFn, fImm15, fImm20, fPg, fEa, fEb, vInt, vFlt, EW.code, EW.ofCode]

theorem vxor (vd va vb : BitVec 5) (pg : BitVec 3) (w : EW) : Statement (.vxor vd va vb pg w) := by
  have hop := bits_V_op 0x29 vd va vb pg w.code false false 2 25 7 (by decide)
  refine of_word (encV 0x29 vd va vb pg w.code false false 2) rfl rfl hop (by decide) (raw_29 _ hop) fun hw => ?_
  cases w <;> simp [decOp29, bits_V_vd, bits_V_va, bits_V_vb, bits_V_pg, bits_V_ty, bits_V_fn, flag_V_zi,
    flag_V_zo, need, fD, fA, fB, fFn, fImm15, fImm20, fPg, fEa, fEb, vInt, vFlt, EW.code, EW.ofCode]

theorem vandn (vd va vb : BitVec 5) (pg : BitVec 3) (w : EW) : Statement (.vandn vd va vb pg w) := by
  have hop := bits_V_op 0x29 vd va vb pg w.code false false 3 25 7 (by decide)
  refine of_word (encV 0x29 vd va vb pg w.code false false 3) rfl rfl hop (by decide) (raw_29 _ hop) fun hw => ?_
  cases w <;> simp [decOp29, bits_V_vd, bits_V_va, bits_V_vb, bits_V_pg, bits_V_ty, bits_V_fn, flag_V_zi,
    flag_V_zo, need, fD, fA, fB, fFn, fImm15, fImm20, fPg, fEa, fEb, vInt, vFlt, EW.code, EW.ofCode]

theorem vshl (vd va vb : BitVec 5) (pg : BitVec 3) (w : EW) : Statement (.vshl vd va vb pg w) := by
  have hop := bits_V_op 0x29 vd va vb pg w.code false false 4 25 7 (by decide)
  refine of_word (encV 0x29 vd va vb pg w.code false false 4) rfl rfl hop (by decide) (raw_29 _ hop) fun hw => ?_
  cases w <;> simp [decOp29, bits_V_vd, bits_V_va, bits_V_vb, bits_V_pg, bits_V_ty, bits_V_fn, flag_V_zi,
    flag_V_zo, need, fD, fA, fB, fFn, fImm15, fImm20, fPg, fEa, fEb, vInt, vFlt, EW.code, EW.ofCode]

theorem vshr (vd va vb : BitVec 5) (pg : BitVec 3) (w : EW) : Statement (.vshr vd va vb pg w) := by
  have hop := bits_V_op 0x29 vd va vb pg w.code false false 5 25 7 (by decide)
  refine of_word (encV 0x29 vd va vb pg w.code false false 5) rfl rfl hop (by decide) (raw_29 _ hop) fun hw => ?_
  cases w <;> simp [decOp29, bits_V_vd, bits_V_va, bits_V_vb, bits_V_pg, bits_V_ty, bits_V_fn, flag_V_zi,
    flag_V_zo, need, fD, fA, fB, fFn, fImm15, fImm20, fPg, fEa, fEb, vInt, vFlt, EW.code, EW.ofCode]

theorem vsra (vd va vb : BitVec 5) (pg : BitVec 3) (w : EW) : Statement (.vsra vd va vb pg w) := by
  have hop := bits_V_op 0x29 vd va vb pg w.code false false 6 25 7 (by decide)
  refine of_word (encV 0x29 vd va vb pg w.code false false 6) rfl rfl hop (by decide) (raw_29 _ hop) fun hw => ?_
  cases w <;> simp [decOp29, bits_V_vd, bits_V_va, bits_V_vb, bits_V_pg, bits_V_ty, bits_V_fn, flag_V_zi,
    flag_V_zo, need, fD, fA, fB, fFn, fImm15, fImm20, fPg, fEa, fEb, vInt, vFlt, EW.code, EW.ofCode]

theorem vrotl (vd va vb : BitVec 5) (pg : BitVec 3) (w : EW) : Statement (.vrotl vd va vb pg w) := by
  have hop := bits_V_op 0x29 vd va vb pg w.code false false 7 25 7 (by decide)
  refine of_word (encV 0x29 vd va vb pg w.code false false 7) rfl rfl hop (by decide) (raw_29 _ hop) fun hw => ?_
  cases w <;> simp [decOp29, bits_V_vd, bits_V_va, bits_V_vb, bits_V_pg, bits_V_ty, bits_V_fn, flag_V_zi,
    flag_V_zo, need, fD, fA, fB, fFn, fImm15, fImm20, fPg, fEa, fEb, vInt, vFlt, EW.code, EW.ofCode]

theorem vceq (pd : BitVec 3) (va vb : BitVec 5) (pg : BitVec 3) (w : EW) : Statement (.vceq pd va vb pg w) := by
  have hop := bits_V_op 0x2A (pd.zeroExtend 5) va vb pg w.code false false 0 25 7 (by decide)
  refine of_word (encV 0x2A (pd.zeroExtend 5) va vb pg w.code false false 0) rfl rfl hop (by decide) (raw_2A _ hop) fun hw => ?_
  cases w <;> simp [decOp2A, bits_V_vd, bits_V_va, bits_V_vb, bits_V_pg, bits_V_ty, bits_V_fn, flag_V_zi,
    flag_V_zo, need, fD, fA, fB, fFn, fImm15, fImm20, fPg, fEa, fEb, vInt, vFlt, EW.code, EW.ofCode, zext_low,
    zext_high]

theorem vcne (pd : BitVec 3) (va vb : BitVec 5) (pg : BitVec 3) (w : EW) : Statement (.vcne pd va vb pg w) := by
  have hop := bits_V_op 0x2A (pd.zeroExtend 5) va vb pg w.code false false 1 25 7 (by decide)
  refine of_word (encV 0x2A (pd.zeroExtend 5) va vb pg w.code false false 1) rfl rfl hop (by decide) (raw_2A _ hop) fun hw => ?_
  cases w <;> simp [decOp2A, bits_V_vd, bits_V_va, bits_V_vb, bits_V_pg, bits_V_ty, bits_V_fn, flag_V_zi,
    flag_V_zo, need, fD, fA, fB, fFn, fImm15, fImm20, fPg, fEa, fEb, vInt, vFlt, EW.code, EW.ofCode, zext_low,
    zext_high]

theorem vclt (pd : BitVec 3) (va vb : BitVec 5) (pg : BitVec 3) (w : EW) : Statement (.vclt pd va vb pg w) := by
  have hop := bits_V_op 0x2A (pd.zeroExtend 5) va vb pg w.code false false 2 25 7 (by decide)
  refine of_word (encV 0x2A (pd.zeroExtend 5) va vb pg w.code false false 2) rfl rfl hop (by decide) (raw_2A _ hop) fun hw => ?_
  cases w <;> simp [decOp2A, bits_V_vd, bits_V_va, bits_V_vb, bits_V_pg, bits_V_ty, bits_V_fn, flag_V_zi,
    flag_V_zo, need, fD, fA, fB, fFn, fImm15, fImm20, fPg, fEa, fEb, vInt, vFlt, EW.code, EW.ofCode, zext_low,
    zext_high]

theorem vcle (pd : BitVec 3) (va vb : BitVec 5) (pg : BitVec 3) (w : EW) : Statement (.vcle pd va vb pg w) := by
  have hop := bits_V_op 0x2A (pd.zeroExtend 5) va vb pg w.code false false 3 25 7 (by decide)
  refine of_word (encV 0x2A (pd.zeroExtend 5) va vb pg w.code false false 3) rfl rfl hop (by decide) (raw_2A _ hop) fun hw => ?_
  cases w <;> simp [decOp2A, bits_V_vd, bits_V_va, bits_V_vb, bits_V_pg, bits_V_ty, bits_V_fn, flag_V_zi,
    flag_V_zo, need, fD, fA, fB, fFn, fImm15, fImm20, fPg, fEa, fEb, vInt, vFlt, EW.code, EW.ofCode, zext_low,
    zext_high]

theorem vcltu (pd : BitVec 3) (va vb : BitVec 5) (pg : BitVec 3) (w : EW) : Statement (.vcltu pd va vb pg w) := by
  have hop := bits_V_op 0x2A (pd.zeroExtend 5) va vb pg w.code false false 4 25 7 (by decide)
  refine of_word (encV 0x2A (pd.zeroExtend 5) va vb pg w.code false false 4) rfl rfl hop (by decide) (raw_2A _ hop) fun hw => ?_
  cases w <;> simp [decOp2A, bits_V_vd, bits_V_va, bits_V_vb, bits_V_pg, bits_V_ty, bits_V_fn, flag_V_zi,
    flag_V_zo, need, fD, fA, fB, fFn, fImm15, fImm20, fPg, fEa, fEb, vInt, vFlt, EW.code, EW.ofCode, zext_low,
    zext_high]

theorem vcleu (pd : BitVec 3) (va vb : BitVec 5) (pg : BitVec 3) (w : EW) : Statement (.vcleu pd va vb pg w) := by
  have hop := bits_V_op 0x2A (pd.zeroExtend 5) va vb pg w.code false false 5 25 7 (by decide)
  refine of_word (encV 0x2A (pd.zeroExtend 5) va vb pg w.code false false 5) rfl rfl hop (by decide) (raw_2A _ hop) fun hw => ?_
  cases w <;> simp [decOp2A, bits_V_vd, bits_V_va, bits_V_vb, bits_V_pg, bits_V_ty, bits_V_fn, flag_V_zi,
    flag_V_zo, need, fD, fA, fB, fFn, fImm15, fImm20, fPg, fEa, fEb, vInt, vFlt, EW.code, EW.ofCode, zext_low,
    zext_high]

theorem vaddx (vd va vb : BitVec 5) (pg : BitVec 3) (w : EW) : Statement (.vaddx vd va vb pg w) := by
  have hop := bits_V_op 0x2B vd va vb pg w.code false false 0 25 7 (by decide)
  refine of_word (encV 0x2B vd va vb pg w.code false false 0) rfl rfl hop (by decide) (raw_2B _ hop) fun hw => ?_
  cases w <;> simp [decOp2B, bits_V_vd, bits_V_va, bits_V_vb, bits_V_pg, bits_V_ty, bits_V_fn, flag_V_zi,
    flag_V_zo, need, fD, fA, fB, fFn, fImm15, fImm20, fPg, fEa, fEb, vInt, vFlt, EW.code, EW.ofCode]

theorem vsubx (vd va vb : BitVec 5) (pg : BitVec 3) (w : EW) : Statement (.vsubx vd va vb pg w) := by
  have hop := bits_V_op 0x2B vd va vb pg w.code false false 1 25 7 (by decide)
  refine of_word (encV 0x2B vd va vb pg w.code false false 1) rfl rfl hop (by decide) (raw_2B _ hop) fun hw => ?_
  cases w <;> simp [decOp2B, bits_V_vd, bits_V_va, bits_V_vb, bits_V_pg, bits_V_ty, bits_V_fn, flag_V_zi,
    flag_V_zo, need, fD, fA, fB, fFn, fImm15, fImm20, fPg, fEa, fEb, vInt, vFlt, EW.code, EW.ofCode]

theorem vmulx (vd va vb : BitVec 5) (pg : BitVec 3) (w : EW) : Statement (.vmulx vd va vb pg w) := by
  have hop := bits_V_op 0x2B vd va vb pg w.code false false 2 25 7 (by decide)
  refine of_word (encV 0x2B vd va vb pg w.code false false 2) rfl rfl hop (by decide) (raw_2B _ hop) fun hw => ?_
  cases w <;> simp [decOp2B, bits_V_vd, bits_V_va, bits_V_vb, bits_V_pg, bits_V_ty, bits_V_fn, flag_V_zi,
    flag_V_zo, need, fD, fA, fB, fFn, fImm15, fImm20, fPg, fEa, fEb, vInt, vFlt, EW.code, EW.ofCode]

theorem vshlx (vd va vb : BitVec 5) (pg : BitVec 3) (w : EW) : Statement (.vshlx vd va vb pg w) := by
  have hop := bits_V_op 0x2B vd va vb pg w.code false false 3 25 7 (by decide)
  refine of_word (encV 0x2B vd va vb pg w.code false false 3) rfl rfl hop (by decide) (raw_2B _ hop) fun hw => ?_
  cases w <;> simp [decOp2B, bits_V_vd, bits_V_va, bits_V_vb, bits_V_pg, bits_V_ty, bits_V_fn, flag_V_zi,
    flag_V_zo, need, fD, fA, fB, fFn, fImm15, fImm20, fPg, fEa, fEb, vInt, vFlt, EW.code, EW.ofCode]

theorem vshrx (vd va vb : BitVec 5) (pg : BitVec 3) (w : EW) : Statement (.vshrx vd va vb pg w) := by
  have hop := bits_V_op 0x2B vd va vb pg w.code false false 4 25 7 (by decide)
  refine of_word (encV 0x2B vd va vb pg w.code false false 4) rfl rfl hop (by decide) (raw_2B _ hop) fun hw => ?_
  cases w <;> simp [decOp2B, bits_V_vd, bits_V_va, bits_V_vb, bits_V_pg, bits_V_ty, bits_V_fn, flag_V_zi,
    flag_V_zo, need, fD, fA, fB, fFn, fImm15, fImm20, fPg, fEa, fEb, vInt, vFlt, EW.code, EW.ofCode]

theorem vsrax (vd va vb : BitVec 5) (pg : BitVec 3) (w : EW) : Statement (.vsrax vd va vb pg w) := by
  have hop := bits_V_op 0x2B vd va vb pg w.code false false 5 25 7 (by decide)
  refine of_word (encV 0x2B vd va vb pg w.code false false 5) rfl rfl hop (by decide) (raw_2B _ hop) fun hw => ?_
  cases w <;> simp [decOp2B, bits_V_vd, bits_V_va, bits_V_vb, bits_V_pg, bits_V_ty, bits_V_fn, flag_V_zi,
    flag_V_zo, need, fD, fA, fB, fFn, fImm15, fImm20, fPg, fEa, fEb, vInt, vFlt, EW.code, EW.ofCode]

theorem vminx (vd va vb : BitVec 5) (pg : BitVec 3) (w : EW) : Statement (.vminx vd va vb pg w) := by
  have hop := bits_V_op 0x2B vd va vb pg w.code false false 6 25 7 (by decide)
  refine of_word (encV 0x2B vd va vb pg w.code false false 6) rfl rfl hop (by decide) (raw_2B _ hop) fun hw => ?_
  cases w <;> simp [decOp2B, bits_V_vd, bits_V_va, bits_V_vb, bits_V_pg, bits_V_ty, bits_V_fn, flag_V_zi,
    flag_V_zo, need, fD, fA, fB, fFn, fImm15, fImm20, fPg, fEa, fEb, vInt, vFlt, EW.code, EW.ofCode]

theorem vmaxx (vd va vb : BitVec 5) (pg : BitVec 3) (w : EW) : Statement (.vmaxx vd va vb pg w) := by
  have hop := bits_V_op 0x2B vd va vb pg w.code false false 7 25 7 (by decide)
  refine of_word (encV 0x2B vd va vb pg w.code false false 7) rfl rfl hop (by decide) (raw_2B _ hop) fun hw => ?_
  cases w <;> simp [decOp2B, bits_V_vd, bits_V_va, bits_V_vb, bits_V_pg, bits_V_ty, bits_V_fn, flag_V_zi,
    flag_V_zo, need, fD, fA, fB, fFn, fImm15, fImm20, fPg, fEa, fEb, vInt, vFlt, EW.code, EW.ofCode]

theorem vmov (vd va : BitVec 5) (pg : BitVec 3) (w : EW) : Statement (.vmov vd va pg w) := by
  have hop := bits_V_op 0x2C vd va 0 pg w.code false false 0 25 7 (by decide)
  refine of_word (encV 0x2C vd va 0 pg w.code false false 0) rfl rfl hop (by decide) (raw_2C _ hop) fun hw => ?_
  cases w <;> simp [decOp2C, bits_V_vd, bits_V_va, bits_V_vb, bits_V_pg, bits_V_ty, bits_V_fn, flag_V_zi,
    flag_V_zo, need, fD, fA, fB, fFn, fImm15, fImm20, fPg, fEa, fEb, vInt, vFlt, EW.code, EW.ofCode]

theorem vbcast (vd va : BitVec 5) (pg : BitVec 3) (w : EW) : Statement (.vbcast vd va pg w) := by
  have hop := bits_V_op 0x2C vd va 0 pg w.code false false 1 25 7 (by decide)
  refine of_word (encV 0x2C vd va 0 pg w.code false false 1) rfl rfl hop (by decide) (raw_2C _ hop) fun hw => ?_
  cases w <;> simp [decOp2C, bits_V_vd, bits_V_va, bits_V_vb, bits_V_pg, bits_V_ty, bits_V_fn, flag_V_zi,
    flag_V_zo, need, fD, fA, fB, fFn, fImm15, fImm20, fPg, fEa, fEb, vInt, vFlt, EW.code, EW.ofCode]

theorem vsel (vd va vb : BitVec 5) (pg : BitVec 3) (w : EW) : Statement (.vsel vd va vb pg w) := by
  have hop := bits_V_op 0x2C vd va vb pg w.code false false 2 25 7 (by decide)
  refine of_word (encV 0x2C vd va vb pg w.code false false 2) rfl rfl hop (by decide) (raw_2C _ hop) fun hw => ?_
  cases w <;> simp [decOp2C, bits_V_vd, bits_V_va, bits_V_vb, bits_V_pg, bits_V_ty, bits_V_fn, flag_V_zi,
    flag_V_zo, need, fD, fA, fB, fFn, fImm15, fImm20, fPg, fEa, fEb, vInt, vFlt, EW.code, EW.ofCode]

theorem vextr (vd va vb : BitVec 5) (w : EW) : Statement (.vextr vd va vb w) := by
  have hop := bits_V_op 0x2C vd va vb 0 w.code false false 3 25 7 (by decide)
  refine of_word (encV 0x2C vd va vb 0 w.code false false 3) rfl rfl hop (by decide) (raw_2C _ hop) fun hw => ?_
  cases w <;> simp [decOp2C, bits_V_vd, bits_V_va, bits_V_vb, bits_V_pg, bits_V_ty, bits_V_fn, flag_V_zi,
    flag_V_zo, need, fD, fA, fB, fFn, fImm15, fImm20, fPg, fEa, fEb, vInt, vFlt, EW.code, EW.ofCode]

theorem vins (vd va vb : BitVec 5) (w : EW) : Statement (.vins vd va vb w) := by
  have hop := bits_V_op 0x2C vd va vb 0 w.code false false 4 25 7 (by decide)
  refine of_word (encV 0x2C vd va vb 0 w.code false false 4) rfl rfl hop (by decide) (raw_2C _ hop) fun hw => ?_
  cases w <;> simp [decOp2C, bits_V_vd, bits_V_va, bits_V_vb, bits_V_pg, bits_V_ty, bits_V_fn, flag_V_zi,
    flag_V_zo, need, fD, fA, fB, fFn, fImm15, fImm20, fPg, fEa, fEb, vInt, vFlt, EW.code, EW.ofCode]

theorem viota (vd : BitVec 5) (pg : BitVec 3) (w : EW) : Statement (.viota vd pg w) := by
  have hop := bits_V_op 0x2C vd 0 0 pg w.code false false 5 25 7 (by decide)
  refine of_word (encV 0x2C vd 0 0 pg w.code false false 5) rfl rfl hop (by decide) (raw_2C _ hop) fun hw => ?_
  cases w <;> simp [decOp2C, bits_V_vd, bits_V_va, bits_V_vb, bits_V_pg, bits_V_ty, bits_V_fn, flag_V_zi,
    flag_V_zo, need, fD, fA, fB, fFn, fImm15, fImm20, fPg, fEa, fEb, vInt, vFlt, EW.code, EW.ofCode]

theorem vpopc (vd va : BitVec 5) (pg : BitVec 3) (w : EW) : Statement (.vpopc vd va pg w) := by
  have hop := bits_V_op 0x2C vd va 0 pg w.code false false 6 25 7 (by decide)
  refine of_word (encV 0x2C vd va 0 pg w.code false false 6) rfl rfl hop (by decide) (raw_2C _ hop) fun hw => ?_
  cases w <;> simp [decOp2C, bits_V_vd, bits_V_va, bits_V_vb, bits_V_pg, bits_V_ty, bits_V_fn, flag_V_zi,
    flag_V_zo, need, fD, fA, fB, fFn, fImm15, fImm20, fPg, fEa, fEb, vInt, vFlt, EW.code, EW.ofCode]

theorem vclz (vd va : BitVec 5) (pg : BitVec 3) (w : EW) : Statement (.vclz vd va pg w) := by
  have hop := bits_V_op 0x2C vd va 0 pg w.code false false 7 25 7 (by decide)
  refine of_word (encV 0x2C vd va 0 pg w.code false false 7) rfl rfl hop (by decide) (raw_2C _ hop) fun hw => ?_
  cases w <;> simp [decOp2C, bits_V_vd, bits_V_va, bits_V_vb, bits_V_pg, bits_V_ty, bits_V_fn, flag_V_zi,
    flag_V_zo, need, fD, fA, fB, fFn, fImm15, fImm20, fPg, fEa, fEb, vInt, vFlt, EW.code, EW.ofCode]

theorem vperm (vd va vb : BitVec 5) (pg : BitVec 3) (w : EW) : Statement (.vperm vd va vb pg w) := by
  have hop := bits_V_op 0x2D vd va vb pg w.code false false 0 25 7 (by decide)
  refine of_word (encV 0x2D vd va vb pg w.code false false 0) rfl rfl hop (by decide) (raw_2D _ hop) fun hw => ?_
  cases w <;> simp [decOp2D, bits_V_vd, bits_V_va, bits_V_vb, bits_V_pg, bits_V_ty, bits_V_fn, flag_V_zi,
    flag_V_zo, need, fD, fA, fB, fFn, fImm15, fImm20, fPg, fEa, fEb, vInt, vFlt, EW.code, EW.ofCode]

theorem vrot (vd va vb : BitVec 5) (pg : BitVec 3) (w : EW) : Statement (.vrot vd va vb pg w) := by
  have hop := bits_V_op 0x2D vd va vb pg w.code false false 1 25 7 (by decide)
  refine of_word (encV 0x2D vd va vb pg w.code false false 1) rfl rfl hop (by decide) (raw_2D _ hop) fun hw => ?_
  cases w <;> simp [decOp2D, bits_V_vd, bits_V_va, bits_V_vb, bits_V_pg, bits_V_ty, bits_V_fn, flag_V_zi,
    flag_V_zo, need, fD, fA, fB, fFn, fImm15, fImm20, fPg, fEa, fEb, vInt, vFlt, EW.code, EW.ofCode]

theorem vrev (vd va : BitVec 5) (pg : BitVec 3) (w : EW) : Statement (.vrev vd va pg w) := by
  have hop := bits_V_op 0x2D vd va 0 pg w.code false false 2 25 7 (by decide)
  refine of_word (encV 0x2D vd va 0 pg w.code false false 2) rfl rfl hop (by decide) (raw_2D _ hop) fun hw => ?_
  cases w <;> simp [decOp2D, bits_V_vd, bits_V_va, bits_V_vb, bits_V_pg, bits_V_ty, bits_V_fn, flag_V_zi,
    flag_V_zo, need, fD, fA, fB, fFn, fImm15, fImm20, fPg, fEa, fEb, vInt, vFlt, EW.code, EW.ofCode]

theorem vfadd (vd va vb : BitVec 5) (pg : BitVec 3) (w : EW) (zi zo : Bool) : Statement (.vfadd vd va vb pg w zi zo) := by
  have hop := bits_V_op 0x30 vd va vb pg w.code zi zo 0 25 7 (by decide)
  refine of_word (encV 0x30 vd va vb pg w.code zi zo 0) rfl rfl hop (by decide) (raw_30 _ hop) fun hw => ?_
  cases w <;> simp [decOp30, bits_V_vd, bits_V_va, bits_V_vb, bits_V_pg, bits_V_ty, bits_V_fn, flag_V_zi,
    flag_V_zo, need, fD, fA, fB, fFn, fImm15, fImm20, fPg, fEa, fEb, vInt, vFlt, EW.code, EW.ofCode]

theorem vfsub (vd va vb : BitVec 5) (pg : BitVec 3) (w : EW) (zi zo : Bool) : Statement (.vfsub vd va vb pg w zi zo) := by
  have hop := bits_V_op 0x30 vd va vb pg w.code zi zo 1 25 7 (by decide)
  refine of_word (encV 0x30 vd va vb pg w.code zi zo 1) rfl rfl hop (by decide) (raw_30 _ hop) fun hw => ?_
  cases w <;> simp [decOp30, bits_V_vd, bits_V_va, bits_V_vb, bits_V_pg, bits_V_ty, bits_V_fn, flag_V_zi,
    flag_V_zo, need, fD, fA, fB, fFn, fImm15, fImm20, fPg, fEa, fEb, vInt, vFlt, EW.code, EW.ofCode]

theorem vfmul (vd va vb : BitVec 5) (pg : BitVec 3) (w : EW) (zi zo : Bool) : Statement (.vfmul vd va vb pg w zi zo) := by
  have hop := bits_V_op 0x30 vd va vb pg w.code zi zo 2 25 7 (by decide)
  refine of_word (encV 0x30 vd va vb pg w.code zi zo 2) rfl rfl hop (by decide) (raw_30 _ hop) fun hw => ?_
  cases w <;> simp [decOp30, bits_V_vd, bits_V_va, bits_V_vb, bits_V_pg, bits_V_ty, bits_V_fn, flag_V_zi,
    flag_V_zo, need, fD, fA, fB, fFn, fImm15, fImm20, fPg, fEa, fEb, vInt, vFlt, EW.code, EW.ofCode]

theorem vfmin (vd va vb : BitVec 5) (pg : BitVec 3) (w : EW) (zi zo : Bool) : Statement (.vfmin vd va vb pg w zi zo) := by
  have hop := bits_V_op 0x30 vd va vb pg w.code zi zo 3 25 7 (by decide)
  refine of_word (encV 0x30 vd va vb pg w.code zi zo 3) rfl rfl hop (by decide) (raw_30 _ hop) fun hw => ?_
  cases w <;> simp [decOp30, bits_V_vd, bits_V_va, bits_V_vb, bits_V_pg, bits_V_ty, bits_V_fn, flag_V_zi,
    flag_V_zo, need, fD, fA, fB, fFn, fImm15, fImm20, fPg, fEa, fEb, vInt, vFlt, EW.code, EW.ofCode]

theorem vfmax (vd va vb : BitVec 5) (pg : BitVec 3) (w : EW) (zi zo : Bool) : Statement (.vfmax vd va vb pg w zi zo) := by
  have hop := bits_V_op 0x30 vd va vb pg w.code zi zo 4 25 7 (by decide)
  refine of_word (encV 0x30 vd va vb pg w.code zi zo 4) rfl rfl hop (by decide) (raw_30 _ hop) fun hw => ?_
  cases w <;> simp [decOp30, bits_V_vd, bits_V_va, bits_V_vb, bits_V_pg, bits_V_ty, bits_V_fn, flag_V_zi,
    flag_V_zo, need, fD, fA, fB, fFn, fImm15, fImm20, fPg, fEa, fEb, vInt, vFlt, EW.code, EW.ofCode]

theorem vfabs (vd va : BitVec 5) (pg : BitVec 3) (w : EW) (zi zo : Bool) : Statement (.vfabs vd va pg w zi zo) := by
  have hop := bits_V_op 0x30 vd va 0 pg w.code zi zo 5 25 7 (by decide)
  refine of_word (encV 0x30 vd va 0 pg w.code zi zo 5) rfl rfl hop (by decide) (raw_30 _ hop) fun hw => ?_
  cases w <;> simp [decOp30, bits_V_vd, bits_V_va, bits_V_vb, bits_V_pg, bits_V_ty, bits_V_fn, flag_V_zi,
    flag_V_zo, need, fD, fA, fB, fFn, fImm15, fImm20, fPg, fEa, fEb, vInt, vFlt, EW.code, EW.ofCode]

theorem vfneg (vd va : BitVec 5) (pg : BitVec 3) (w : EW) (zi zo : Bool) : Statement (.vfneg vd va pg w zi zo) := by
  have hop := bits_V_op 0x30 vd va 0 pg w.code zi zo 6 25 7 (by decide)
  refine of_word (encV 0x30 vd va 0 pg w.code zi zo 6) rfl rfl hop (by decide) (raw_30 _ hop) fun hw => ?_
  cases w <;> simp [decOp30, bits_V_vd, bits_V_va, bits_V_vb, bits_V_pg, bits_V_ty, bits_V_fn, flag_V_zi,
    flag_V_zo, need, fD, fA, fB, fFn, fImm15, fImm20, fPg, fEa, fEb, vInt, vFlt, EW.code, EW.ofCode]

theorem vfcps (vd va vb : BitVec 5) (pg : BitVec 3) (w : EW) (zi zo : Bool) : Statement (.vfcps vd va vb pg w zi zo) := by
  have hop := bits_V_op 0x30 vd va vb pg w.code zi zo 7 25 7 (by decide)
  refine of_word (encV 0x30 vd va vb pg w.code zi zo 7) rfl rfl hop (by decide) (raw_30 _ hop) fun hw => ?_
  cases w <;> simp [decOp30, bits_V_vd, bits_V_va, bits_V_vb, bits_V_pg, bits_V_ty, bits_V_fn, flag_V_zi,
    flag_V_zo, need, fD, fA, fB, fFn, fImm15, fImm20, fPg, fEa, fEb, vInt, vFlt, EW.code, EW.ofCode]

theorem vfma (vd va vb : BitVec 5) (pg : BitVec 3) (w : EW) (zi zo : Bool) : Statement (.vfma vd va vb pg w zi zo) := by
  have hop := bits_V_op 0x31 vd va vb pg w.code zi zo 0 25 7 (by decide)
  refine of_word (encV 0x31 vd va vb pg w.code zi zo 0) rfl rfl hop (by decide) (raw_31 _ hop) fun hw => ?_
  cases w <;> simp [decOp31, bits_V_vd, bits_V_va, bits_V_vb, bits_V_pg, bits_V_ty, bits_V_fn, flag_V_zi,
    flag_V_zo, need, fD, fA, fB, fFn, fImm15, fImm20, fPg, fEa, fEb, vInt, vFlt, EW.code, EW.ofCode]

theorem vfms (vd va vb : BitVec 5) (pg : BitVec 3) (w : EW) (zi zo : Bool) : Statement (.vfms vd va vb pg w zi zo) := by
  have hop := bits_V_op 0x31 vd va vb pg w.code zi zo 1 25 7 (by decide)
  refine of_word (encV 0x31 vd va vb pg w.code zi zo 1) rfl rfl hop (by decide) (raw_31 _ hop) fun hw => ?_
  cases w <;> simp [decOp31, bits_V_vd, bits_V_va, bits_V_vb, bits_V_pg, bits_V_ty, bits_V_fn, flag_V_zi,
    flag_V_zo, need, fD, fA, fB, fFn, fImm15, fImm20, fPg, fEa, fEb, vInt, vFlt, EW.code, EW.ofCode]

theorem vfeq (pd : BitVec 3) (va vb : BitVec 5) (pg : BitVec 3) (w : EW) (zi : Bool) : Statement (.vfeq pd va vb pg w zi) := by
  have hop := bits_V_op 0x32 (pd.zeroExtend 5) va vb pg w.code zi false 0 25 7 (by decide)
  refine of_word (encV 0x32 (pd.zeroExtend 5) va vb pg w.code zi false 0) rfl rfl hop (by decide) (raw_32 _ hop) fun hw => ?_
  cases w <;> simp [decOp32, bits_V_vd, bits_V_va, bits_V_vb, bits_V_pg, bits_V_ty, bits_V_fn, flag_V_zi,
    flag_V_zo, need, fD, fA, fB, fFn, fImm15, fImm20, fPg, fEa, fEb, vInt, vFlt, EW.code, EW.ofCode, zext_low,
    zext_high]

theorem vfne (pd : BitVec 3) (va vb : BitVec 5) (pg : BitVec 3) (w : EW) (zi : Bool) : Statement (.vfne pd va vb pg w zi) := by
  have hop := bits_V_op 0x32 (pd.zeroExtend 5) va vb pg w.code zi false 1 25 7 (by decide)
  refine of_word (encV 0x32 (pd.zeroExtend 5) va vb pg w.code zi false 1) rfl rfl hop (by decide) (raw_32 _ hop) fun hw => ?_
  cases w <;> simp [decOp32, bits_V_vd, bits_V_va, bits_V_vb, bits_V_pg, bits_V_ty, bits_V_fn, flag_V_zi,
    flag_V_zo, need, fD, fA, fB, fFn, fImm15, fImm20, fPg, fEa, fEb, vInt, vFlt, EW.code, EW.ofCode, zext_low,
    zext_high]

theorem vflt (pd : BitVec 3) (va vb : BitVec 5) (pg : BitVec 3) (w : EW) (zi : Bool) : Statement (.vflt pd va vb pg w zi) := by
  have hop := bits_V_op 0x32 (pd.zeroExtend 5) va vb pg w.code zi false 2 25 7 (by decide)
  refine of_word (encV 0x32 (pd.zeroExtend 5) va vb pg w.code zi false 2) rfl rfl hop (by decide) (raw_32 _ hop) fun hw => ?_
  cases w <;> simp [decOp32, bits_V_vd, bits_V_va, bits_V_vb, bits_V_pg, bits_V_ty, bits_V_fn, flag_V_zi,
    flag_V_zo, need, fD, fA, fB, fFn, fImm15, fImm20, fPg, fEa, fEb, vInt, vFlt, EW.code, EW.ofCode, zext_low,
    zext_high]

theorem vfle (pd : BitVec 3) (va vb : BitVec 5) (pg : BitVec 3) (w : EW) (zi : Bool) : Statement (.vfle pd va vb pg w zi) := by
  have hop := bits_V_op 0x32 (pd.zeroExtend 5) va vb pg w.code zi false 3 25 7 (by decide)
  refine of_word (encV 0x32 (pd.zeroExtend 5) va vb pg w.code zi false 3) rfl rfl hop (by decide) (raw_32 _ hop) fun hw => ?_
  cases w <;> simp [decOp32, bits_V_vd, bits_V_va, bits_V_vb, bits_V_pg, bits_V_ty, bits_V_fn, flag_V_zi,
    flag_V_zo, need, fD, fA, fB, fFn, fImm15, fImm20, fPg, fEa, fEb, vInt, vFlt, EW.code, EW.ofCode, zext_low,
    zext_high]

theorem vfun (pd : BitVec 3) (va vb : BitVec 5) (pg : BitVec 3) (w : EW) (zi : Bool) : Statement (.vfun pd va vb pg w zi) := by
  have hop := bits_V_op 0x32 (pd.zeroExtend 5) va vb pg w.code zi false 4 25 7 (by decide)
  refine of_word (encV 0x32 (pd.zeroExtend 5) va vb pg w.code zi false 4) rfl rfl hop (by decide) (raw_32 _ hop) fun hw => ?_
  cases w <;> simp [decOp32, bits_V_vd, bits_V_va, bits_V_vb, bits_V_pg, bits_V_ty, bits_V_fn, flag_V_zi,
    flag_V_zo, need, fD, fA, fB, fFn, fImm15, fImm20, fPg, fEa, fEb, vInt, vFlt, EW.code, EW.ofCode, zext_low,
    zext_high]

theorem vrsum (vd va : BitVec 5) (pg : BitVec 3) (w : EW) : Statement (.vrsum vd va pg w) := by
  have hop := bits_V_op 0x33 vd va 0 pg w.code false false 0 25 7 (by decide)
  refine of_word (encV 0x33 vd va 0 pg w.code false false 0) rfl rfl hop (by decide) (raw_33 _ hop) fun hw => ?_
  cases w <;> simp [decOp33, bits_V_vd, bits_V_va, bits_V_vb, bits_V_pg, bits_V_ty, bits_V_fn, flag_V_zi,
    flag_V_zo, need, fD, fA, fB, fFn, fImm15, fImm20, fPg, fEa, fEb, vInt, vFlt, EW.code, EW.ofCode]

theorem vrmax (vd va : BitVec 5) (pg : BitVec 3) (w : EW) : Statement (.vrmax vd va pg w) := by
  have hop := bits_V_op 0x33 vd va 0 pg w.code false false 1 25 7 (by decide)
  refine of_word (encV 0x33 vd va 0 pg w.code false false 1) rfl rfl hop (by decide) (raw_33 _ hop) fun hw => ?_
  cases w <;> simp [decOp33, bits_V_vd, bits_V_va, bits_V_vb, bits_V_pg, bits_V_ty, bits_V_fn, flag_V_zi,
    flag_V_zo, need, fD, fA, fB, fFn, fImm15, fImm20, fPg, fEa, fEb, vInt, vFlt, EW.code, EW.ofCode]

theorem vrmin (vd va : BitVec 5) (pg : BitVec 3) (w : EW) : Statement (.vrmin vd va pg w) := by
  have hop := bits_V_op 0x33 vd va 0 pg w.code false false 2 25 7 (by decide)
  refine of_word (encV 0x33 vd va 0 pg w.code false false 2) rfl rfl hop (by decide) (raw_33 _ hop) fun hw => ?_
  cases w <;> simp [decOp33, bits_V_vd, bits_V_va, bits_V_vb, bits_V_pg, bits_V_ty, bits_V_fn, flag_V_zi,
    flag_V_zo, need, fD, fA, fB, fFn, fImm15, fImm20, fPg, fEa, fEb, vInt, vFlt, EW.code, EW.ofCode]

theorem vfrsum (vd va : BitVec 5) (pg : BitVec 3) (w : EW) (zi zo : Bool) : Statement (.vfrsum vd va pg w zi zo) := by
  have hop := bits_V_op 0x33 vd va 0 pg w.code zi zo 3 25 7 (by decide)
  refine of_word (encV 0x33 vd va 0 pg w.code zi zo 3) rfl rfl hop (by decide) (raw_33 _ hop) fun hw => ?_
  cases w <;> simp [decOp33, bits_V_vd, bits_V_va, bits_V_vb, bits_V_pg, bits_V_ty, bits_V_fn, flag_V_zi,
    flag_V_zo, need, fD, fA, fB, fFn, fImm15, fImm20, fPg, fEa, fEb, vInt, vFlt, EW.code, EW.ofCode]

theorem vfrmax (vd va : BitVec 5) (pg : BitVec 3) (w : EW) (zi zo : Bool) : Statement (.vfrmax vd va pg w zi zo) := by
  have hop := bits_V_op 0x33 vd va 0 pg w.code zi zo 4 25 7 (by decide)
  refine of_word (encV 0x33 vd va 0 pg w.code zi zo 4) rfl rfl hop (by decide) (raw_33 _ hop) fun hw => ?_
  cases w <;> simp [decOp33, bits_V_vd, bits_V_va, bits_V_vb, bits_V_pg, bits_V_ty, bits_V_fn, flag_V_zi,
    flag_V_zo, need, fD, fA, fB, fFn, fImm15, fImm20, fPg, fEa, fEb, vInt, vFlt, EW.code, EW.ofCode]

theorem vfrmin (vd va : BitVec 5) (pg : BitVec 3) (w : EW) (zi zo : Bool) : Statement (.vfrmin vd va pg w zi zo) := by
  have hop := bits_V_op 0x33 vd va 0 pg w.code zi zo 5 25 7 (by decide)
  refine of_word (encV 0x33 vd va 0 pg w.code zi zo 5) rfl rfl hop (by decide) (raw_33 _ hop) fun hw => ?_
  cases w <;> simp [decOp33, bits_V_vd, bits_V_va, bits_V_vb, bits_V_pg, bits_V_ty, bits_V_fn, flag_V_zi,
    flag_V_zo, need, fD, fA, fB, fFn, fImm15, fImm20, fPg, fEa, fEb, vInt, vFlt, EW.code, EW.ofCode]

theorem vdot (vd va vb : BitVec 5) (pg : BitVec 3) (w : EW) (zi zo : Bool) : Statement (.vdot vd va vb pg w zi zo) := by
  have hop := bits_V_op 0x34 vd va vb pg w.code zi zo 0 25 7 (by decide)
  refine of_word (encV 0x34 vd va vb pg w.code zi zo 0) rfl rfl hop (by decide) (raw_34 _ hop) fun hw => ?_
  cases w <;> simp [decOp34, bits_V_vd, bits_V_va, bits_V_vb, bits_V_pg, bits_V_ty, bits_V_fn, flag_V_zi,
    flag_V_zo, need, fD, fA, fB, fFn, fImm15, fImm20, fPg, fEa, fEb, vInt, vFlt, EW.code, EW.ofCode]

theorem vdota (vd va vb : BitVec 5) (pg : BitVec 3) (w : EW) (zi zo : Bool) : Statement (.vdota vd va vb pg w zi zo) := by
  have hop := bits_V_op 0x34 vd va vb pg w.code zi zo 1 25 7 (by decide)
  refine of_word (encV 0x34 vd va vb pg w.code zi zo 1) rfl rfl hop (by decide) (raw_34 _ hop) fun hw => ?_
  cases w <;> simp [decOp34, bits_V_vd, bits_V_va, bits_V_vb, bits_V_pg, bits_V_ty, bits_V_fn, flag_V_zi,
    flag_V_zo, need, fD, fA, fB, fFn, fImm15, fImm20, fPg, fEa, fEb, vInt, vFlt, EW.code, EW.ofCode]

theorem vrcp (vd va : BitVec 5) (pg : BitVec 3) (w : EW) (zi zo : Bool) : Statement (.vrcp vd va pg w zi zo) := by
  have hop := bits_V_op 0x35 vd va 0 pg w.code zi zo 0 25 7 (by decide)
  refine of_word (encV 0x35 vd va 0 pg w.code zi zo 0) rfl rfl hop (by decide) (raw_35 _ hop) fun hw => ?_
  cases w <;> simp [decOp35, bits_V_vd, bits_V_va, bits_V_vb, bits_V_pg, bits_V_ty, bits_V_fn, flag_V_zi,
    flag_V_zo, need, fD, fA, fB, fFn, fImm15, fImm20, fPg, fEa, fEb, vInt, vFlt, EW.code, EW.ofCode]

theorem vrsq (vd va : BitVec 5) (pg : BitVec 3) (w : EW) (zi zo : Bool) : Statement (.vrsq vd va pg w zi zo) := by
  have hop := bits_V_op 0x35 vd va 0 pg w.code zi zo 1 25 7 (by decide)
  refine of_word (encV 0x35 vd va 0 pg w.code zi zo 1) rfl rfl hop (by decide) (raw_35 _ hop) fun hw => ?_
  cases w <;> simp [decOp35, bits_V_vd, bits_V_va, bits_V_vb, bits_V_pg, bits_V_ty, bits_V_fn, flag_V_zi,
    flag_V_zo, need, fD, fA, fB, fFn, fImm15, fImm20, fPg, fEa, fEb, vInt, vFlt, EW.code, EW.ofCode]

theorem vsqrt (vd va : BitVec 5) (pg : BitVec 3) (w : EW) (zi zo : Bool) : Statement (.vsqrt vd va pg w zi zo) := by
  have hop := bits_V_op 0x35 vd va 0 pg w.code zi zo 2 25 7 (by decide)
  refine of_word (encV 0x35 vd va 0 pg w.code zi zo 2) rfl rfl hop (by decide) (raw_35 _ hop) fun hw => ?_
  cases w <;> simp [decOp35, bits_V_vd, bits_V_va, bits_V_vb, bits_V_pg, bits_V_ty, bits_V_fn, flag_V_zi,
    flag_V_zo, need, fD, fA, fB, fFn, fImm15, fImm20, fPg, fEa, fEb, vInt, vFlt, EW.code, EW.ofCode]

theorem vexp2 (vd va : BitVec 5) (pg : BitVec 3) (w : EW) (zi zo : Bool) : Statement (.vexp2 vd va pg w zi zo) := by
  have hop := bits_V_op 0x35 vd va 0 pg w.code zi zo 3 25 7 (by decide)
  refine of_word (encV 0x35 vd va 0 pg w.code zi zo 3) rfl rfl hop (by decide) (raw_35 _ hop) fun hw => ?_
  cases w <;> simp [decOp35, bits_V_vd, bits_V_va, bits_V_vb, bits_V_pg, bits_V_ty, bits_V_fn, flag_V_zi,
    flag_V_zo, need, fD, fA, fB, fFn, fImm15, fImm20, fPg, fEa, fEb, vInt, vFlt, EW.code, EW.ofCode]

theorem vlog2 (vd va : BitVec 5) (pg : BitVec 3) (w : EW) (zi zo : Bool) : Statement (.vlog2 vd va pg w zi zo) := by
  have hop := bits_V_op 0x35 vd va 0 pg w.code zi zo 4 25 7 (by decide)
  refine of_word (encV 0x35 vd va 0 pg w.code zi zo 4) rfl rfl hop (by decide) (raw_35 _ hop) fun hw => ?_
  cases w <;> simp [decOp35, bits_V_vd, bits_V_va, bits_V_vb, bits_V_pg, bits_V_ty, bits_V_fn, flag_V_zi,
    flag_V_zo, need, fD, fA, fB, fFn, fImm15, fImm20, fPg, fEa, fEb, vInt, vFlt, EW.code, EW.ofCode]

theorem vtanh (vd va : BitVec 5) (pg : BitVec 3) (w : EW) (zi zo : Bool) : Statement (.vtanh vd va pg w zi zo) := by
  have hop := bits_V_op 0x35 vd va 0 pg w.code zi zo 5 25 7 (by decide)
  refine of_word (encV 0x35 vd va 0 pg w.code zi zo 5) rfl rfl hop (by decide) (raw_35 _ hop) fun hw => ?_
  cases w <;> simp [decOp35, bits_V_vd, bits_V_va, bits_V_vb, bits_V_pg, bits_V_ty, bits_V_fn, flag_V_zi,
    flag_V_zo, need, fD, fA, fB, fFn, fImm15, fImm20, fPg, fEa, fEb, vInt, vFlt, EW.code, EW.ofCode]

theorem vsinpi (vd va : BitVec 5) (pg : BitVec 3) (w : EW) (zi zo : Bool) : Statement (.vsinpi vd va pg w zi zo) := by
  have hop := bits_V_op 0x35 vd va 0 pg w.code zi zo 6 25 7 (by decide)
  refine of_word (encV 0x35 vd va 0 pg w.code zi zo 6) rfl rfl hop (by decide) (raw_35 _ hop) fun hw => ?_
  cases w <;> simp [decOp35, bits_V_vd, bits_V_va, bits_V_vb, bits_V_pg, bits_V_ty, bits_V_fn, flag_V_zi,
    flag_V_zo, need, fD, fA, fB, fFn, fImm15, fImm20, fPg, fEa, fEb, vInt, vFlt, EW.code, EW.ofCode]

theorem verf (vd va : BitVec 5) (pg : BitVec 3) (w : EW) (zi zo : Bool) : Statement (.verf vd va pg w zi zo) := by
  have hop := bits_V_op 0x35 vd va 0 pg w.code zi zo 7 25 7 (by decide)
  refine of_word (encV 0x35 vd va 0 pg w.code zi zo 7) rfl rfl hop (by decide) (raw_35 _ hop) fun hw => ?_
  cases w <;> simp [decOp35, bits_V_vd, bits_V_va, bits_V_vb, bits_V_pg, bits_V_ty, bits_V_fn, flag_V_zi,
    flag_V_zo, need, fD, fA, fB, fFn, fImm15, fImm20, fPg, fEa, fEb, vInt, vFlt, EW.code, EW.ofCode]

theorem vbnet (vd va vb : BitVec 5) (k : BitVec 3) : Statement (.vbnet vd va vb k) := by
  have hop := bits_A_op 0x36 vd va vb ((0 : BitVec 7) ++ k) 25 7 (by decide)
  refine of_word (encA 0x36 vd va vb ((0 : BitVec 7) ++ k)) rfl rfl hop (by decide) (raw_36 _ hop) fun hw => ?_
  simp [decOp36, bits_A_d, bits_A_a, bits_A_b, bits_A_fn, flag_A_fn, need, fD, fA, fB, fFn, fImm15, fImm20, fPg,
    fEa, fEb, vInt, vFlt, @BitVec.extractLsb'_append_eq_of_le 7 3, @BitVec.extractLsb'_append_eq_of_add_le 7 3,
    @BitVec.getLsbD_append 7 3, -BitVec.getLsbD_eq_getElem]

theorem pand (pd pa pb : BitVec 3) : Statement (.pand pd pa pb) := by
  have hop := bits_A_op 0x38 (pd.zeroExtend 5) (pa.zeroExtend 5) (pb.zeroExtend 5) 0 25 7 (by decide)
  refine of_word (encA 0x38 (pd.zeroExtend 5) (pa.zeroExtend 5) (pb.zeroExtend 5) 0) rfl rfl hop (by decide) (raw_38 _ hop) fun hw => ?_
  simp [decOp38, bits_A_d, bits_A_a, bits_A_b, bits_A_fn, flag_A_fn, need, fD, fA, fB, fFn, fImm15, fImm20, fPg,
    fEa, fEb, vInt, vFlt, zext_low, zext_high]

theorem por (pd pa pb : BitVec 3) : Statement (.por pd pa pb) := by
  have hop := bits_A_op 0x38 (pd.zeroExtend 5) (pa.zeroExtend 5) (pb.zeroExtend 5) 1 25 7 (by decide)
  refine of_word (encA 0x38 (pd.zeroExtend 5) (pa.zeroExtend 5) (pb.zeroExtend 5) 1) rfl rfl hop (by decide) (raw_38 _ hop) fun hw => ?_
  simp [decOp38, bits_A_d, bits_A_a, bits_A_b, bits_A_fn, flag_A_fn, need, fD, fA, fB, fFn, fImm15, fImm20, fPg,
    fEa, fEb, vInt, vFlt, zext_low, zext_high]

theorem pxor (pd pa pb : BitVec 3) : Statement (.pxor pd pa pb) := by
  have hop := bits_A_op 0x38 (pd.zeroExtend 5) (pa.zeroExtend 5) (pb.zeroExtend 5) 2 25 7 (by decide)
  refine of_word (encA 0x38 (pd.zeroExtend 5) (pa.zeroExtend 5) (pb.zeroExtend 5) 2) rfl rfl hop (by decide) (raw_38 _ hop) fun hw => ?_
  simp [decOp38, bits_A_d, bits_A_a, bits_A_b, bits_A_fn, flag_A_fn, need, fD, fA, fB, fFn, fImm15, fImm20, fPg,
    fEa, fEb, vInt, vFlt, zext_low, zext_high]

theorem pandn (pd pa pb : BitVec 3) : Statement (.pandn pd pa pb) := by
  have hop := bits_A_op 0x38 (pd.zeroExtend 5) (pa.zeroExtend 5) (pb.zeroExtend 5) 3 25 7 (by decide)
  refine of_word (encA 0x38 (pd.zeroExtend 5) (pa.zeroExtend 5) (pb.zeroExtend 5) 3) rfl rfl hop (by decide) (raw_38 _ hop) fun hw => ?_
  simp [decOp38, bits_A_d, bits_A_a, bits_A_b, bits_A_fn, flag_A_fn, need, fD, fA, fB, fFn, fImm15, fImm20, fPg,
    fEa, fEb, vInt, vFlt, zext_low, zext_high]

theorem pnot (pd pa : BitVec 3) : Statement (.pnot pd pa) := by
  have hop := bits_A_op 0x38 (pd.zeroExtend 5) (pa.zeroExtend 5) 0 4 25 7 (by decide)
  refine of_word (encA 0x38 (pd.zeroExtend 5) (pa.zeroExtend 5) 0 4) rfl rfl hop (by decide) (raw_38 _ hop) fun hw => ?_
  simp [decOp38, bits_A_d, bits_A_a, bits_A_b, bits_A_fn, flag_A_fn, need, fD, fA, fB, fFn, fImm15, fImm20, fPg,
    fEa, fEb, vInt, vFlt, zext_low, zext_high]

theorem pcnt (d : BitVec 5) (pa : BitVec 3) (w : EW) : Statement (.pcnt d pa w) := by
  have hop := bits_V_op 0x38 d (pa.zeroExtend 5) 0 0 w.code false false 5 25 7 (by decide)
  refine of_word (encV 0x38 d (pa.zeroExtend 5) 0 0 w.code false false 5) rfl rfl hop (by decide) (raw_38 _ hop) fun hw => ?_
  cases w <;> simp [decOp38, bits_V_vd, bits_V_va, bits_V_vb, bits_V_pg, bits_V_ty, bits_V_fn, flag_V_zi,
    flag_V_zo, need, fD, fA, fB, fFn, fImm15, fImm20, fPg, fEa, fEb, vInt, vFlt, EW.code, EW.ofCode, zext_low,
    zext_high]

theorem pfirst (d : BitVec 5) (pa : BitVec 3) (w : EW) : Statement (.pfirst d pa w) := by
  have hop := bits_V_op 0x38 d (pa.zeroExtend 5) 0 0 w.code false false 6 25 7 (by decide)
  refine of_word (encV 0x38 d (pa.zeroExtend 5) 0 0 w.code false false 6) rfl rfl hop (by decide) (raw_38 _ hop) fun hw => ?_
  cases w <;> simp [decOp38, bits_V_vd, bits_V_va, bits_V_vb, bits_V_pg, bits_V_ty, bits_V_fn, flag_V_zi,
    flag_V_zo, need, fD, fA, fB, fFn, fImm15, fImm20, fPg, fEa, fEb, vInt, vFlt, EW.code, EW.ofCode, zext_low,
    zext_high]

theorem planes (pd : BitVec 3) (b : BitVec 5) (w : EW) : Statement (.planes pd b w) := by
  have hop := bits_V_op 0x38 (pd.zeroExtend 5) 0 b 0 w.code false false 7 25 7 (by decide)
  refine of_word (encV 0x38 (pd.zeroExtend 5) 0 b 0 w.code false false 7) rfl rfl hop (by decide) (raw_38 _ hop) fun hw => ?_
  cases w <;> simp [decOp38, bits_V_vd, bits_V_va, bits_V_vb, bits_V_pg, bits_V_ty, bits_V_fn, flag_V_zi,
    flag_V_zo, need, fD, fA, fB, fFn, fImm15, fImm20, fPg, fEa, fEb, vInt, vFlt, EW.code, EW.ofCode, zext_low,
    zext_high]

theorem xcvt (vd va : BitVec 5) (dfmt sfmt : XFmt) (rm : XRm) (sat : Bool) (part : BitVec 3) : Statement (.xcvt vd va dfmt sfmt rm sat part) := by
  have hop := bits_B_op 0x40 vd va (dfmt.code ++ sfmt.code ++ rm.code ++ BitVec.ofBool sat ++ part) 25 7 (by decide)
  refine of_word (encB 0x40 vd va (dfmt.code ++ sfmt.code ++ rm.code ++ BitVec.ofBool sat ++ part)) rfl rfl hop (by decide) (raw_40 _ hop) fun hw => ?_
  simp [decOp40, bits_B_d, bits_B_a, bits_B_imm, flag_B_imm, need, fD, fA, fB, fFn, fImm15, fImm20, fPg, fEa,
    fEb, vInt, vFlt, @BitVec.extractLsb'_append_eq_of_le 12 3, @BitVec.extractLsb'_append_eq_of_add_le 12 3,
    @BitVec.getLsbD_append 12 3, @BitVec.extractLsb'_append_eq_of_le 11 1,
    @BitVec.extractLsb'_append_eq_of_add_le 11 1, @BitVec.getLsbD_append 11 1,
    @BitVec.extractLsb'_append_eq_of_le 8 3, @BitVec.extractLsb'_append_eq_of_add_le 8 3, @BitVec.getLsbD_append
    8 3, @BitVec.extractLsb'_append_eq_of_le 4 4, @BitVec.extractLsb'_append_eq_of_add_le 4 4,
    @BitVec.getLsbD_append 4 4, -BitVec.getLsbD_eq_getElem, xfmt_code, xrm_code]

theorem xexp (vd va : BitVec 5) (kind : XKind) (part : BitVec 3) : Statement (.xexp vd va kind part) := by
  have hop := bits_B_op 0x41 vd va (kind.code ++ part ++ (0 : BitVec 8)) 25 7 (by decide)
  refine of_word (encB 0x41 vd va (kind.code ++ part ++ (0 : BitVec 8))) rfl rfl hop (by decide) (raw_41 _ hop) fun hw => ?_
  cases kind <;> simp [decOp41, bits_B_d, bits_B_a, bits_B_imm, flag_B_imm, need, fD, fA, fB, fFn, fImm15,
    fImm20, fPg, fEa, fEb, vInt, vFlt, @BitVec.extractLsb'_append_eq_of_le 7 8,
    @BitVec.extractLsb'_append_eq_of_add_le 7 8, @BitVec.getLsbD_append 7 8, @BitVec.extractLsb'_append_eq_of_le
    4 3, @BitVec.extractLsb'_append_eq_of_add_le 4 3, @BitVec.getLsbD_append 4 3, -BitVec.getLsbD_eq_getElem,
    XKind.code, XKind.ofCode]

theorem xpack (vd va : BitVec 5) (kind : XKind) (part : BitVec 3) : Statement (.xpack vd va kind part) := by
  have hop := bits_B_op 0x42 vd va (kind.code ++ part ++ (0 : BitVec 8)) 25 7 (by decide)
  refine of_word (encB 0x42 vd va (kind.code ++ part ++ (0 : BitVec 8))) rfl rfl hop (by decide) (raw_42 _ hop) fun hw => ?_
  cases kind <;> simp [decOp42, bits_B_d, bits_B_a, bits_B_imm, flag_B_imm, need, fD, fA, fB, fFn, fImm15,
    fImm20, fPg, fEa, fEb, vInt, vFlt, @BitVec.extractLsb'_append_eq_of_le 7 8,
    @BitVec.extractLsb'_append_eq_of_add_le 7 8, @BitVec.getLsbD_append 7 8, @BitVec.extractLsb'_append_eq_of_le
    4 3, @BitVec.extractLsb'_append_eq_of_add_le 4 3, @BitVec.getLsbD_append 4 3, -BitVec.getLsbD_eq_getElem,
    XKind.code, XKind.ofCode]

theorem xtrn (vd va : BitVec 5) (shape : XShape) : Statement (.xtrn vd va shape) := by
  have hop := bits_B_op 0x43 vd va (shape.code ++ (0 : BitVec 13)) 25 7 (by decide)
  refine of_word (encB 0x43 vd va (shape.code ++ (0 : BitVec 13))) rfl rfl hop (by decide) (raw_43 _ hop) fun hw => ?_
  cases shape <;> simp [decOp43, bits_B_d, bits_B_a, bits_B_imm, flag_B_imm, need, fD, fA, fB, fFn, fImm15,
    fImm20, fPg, fEa, fEb, vInt, vFlt, @BitVec.extractLsb'_append_eq_of_le 2 13,
    @BitVec.extractLsb'_append_eq_of_add_le 2 13, @BitVec.getLsbD_append 2 13, -BitVec.getLsbD_eq_getElem,
    XShape.code, XShape.ofCode]

theorem xscl (vd va b : BitVec 5) : Statement (.xscl vd va b) := by
  have hop := bits_A_op 0x44 vd va b 0 25 7 (by decide)
  refine of_word (encA 0x44 vd va b 0) rfl rfl hop (by decide) (raw_44 _ hop) fun hw => ?_
  simp [decOp44, bits_A_d, bits_A_a, bits_A_b, bits_A_fn, flag_A_fn, need, fD, fA, fB, fFn, fImm15, fImm20, fPg,
    fEa, fEb, vInt, vFlt]

theorem xqnt (vd va b : BitVec 5) : Statement (.xqnt vd va b) := by
  have hop := bits_A_op 0x44 vd va b 1 25 7 (by decide)
  refine of_word (encA 0x44 vd va b 1) rfl rfl hop (by decide) (raw_44 _ hop) fun hw => ?_
  simp [decOp44, bits_A_d, bits_A_a, bits_A_b, bits_A_fn, flag_A_fn, need, fD, fA, fB, fFn, fImm15, fImm20, fPg,
    fEa, fEb, vInt, vFlt]

theorem beq (a b : BitVec 5) (off : BitVec 15) : Statement (.beq a b off) := by
  have hop := bits_B_op 0x50 a b off 25 7 (by decide)
  refine of_word (encB 0x50 a b off) rfl rfl hop (by decide) (raw_50 _ hop) fun hw => ?_
  simp [decOp50, bits_B_d, bits_B_a, bits_B_imm, flag_B_imm, need, fD, fA, fB, fFn, fImm15, fImm20, fPg, fEa,
    fEb, vInt, vFlt]

theorem bne (a b : BitVec 5) (off : BitVec 15) : Statement (.bne a b off) := by
  have hop := bits_B_op 0x51 a b off 25 7 (by decide)
  refine of_word (encB 0x51 a b off) rfl rfl hop (by decide) (raw_51 _ hop) fun hw => ?_
  simp [decOp51, bits_B_d, bits_B_a, bits_B_imm, flag_B_imm, need, fD, fA, fB, fFn, fImm15, fImm20, fPg, fEa,
    fEb, vInt, vFlt]

theorem blt (a b : BitVec 5) (off : BitVec 15) : Statement (.blt a b off) := by
  have hop := bits_B_op 0x52 a b off 25 7 (by decide)
  refine of_word (encB 0x52 a b off) rfl rfl hop (by decide) (raw_52 _ hop) fun hw => ?_
  simp [decOp52, bits_B_d, bits_B_a, bits_B_imm, flag_B_imm, need, fD, fA, fB, fFn, fImm15, fImm20, fPg, fEa,
    fEb, vInt, vFlt]

theorem bge (a b : BitVec 5) (off : BitVec 15) : Statement (.bge a b off) := by
  have hop := bits_B_op 0x53 a b off 25 7 (by decide)
  refine of_word (encB 0x53 a b off) rfl rfl hop (by decide) (raw_53 _ hop) fun hw => ?_
  simp [decOp53, bits_B_d, bits_B_a, bits_B_imm, flag_B_imm, need, fD, fA, fB, fFn, fImm15, fImm20, fPg, fEa,
    fEb, vInt, vFlt]

theorem bltu (a b : BitVec 5) (off : BitVec 15) : Statement (.bltu a b off) := by
  have hop := bits_B_op 0x54 a b off 25 7 (by decide)
  refine of_word (encB 0x54 a b off) rfl rfl hop (by decide) (raw_54 _ hop) fun hw => ?_
  simp [decOp54, bits_B_d, bits_B_a, bits_B_imm, flag_B_imm, need, fD, fA, fB, fFn, fImm15, fImm20, fPg, fEa,
    fEb, vInt, vFlt]

theorem bgeu (a b : BitVec 5) (off : BitVec 15) : Statement (.bgeu a b off) := by
  have hop := bits_B_op 0x55 a b off 25 7 (by decide)
  refine of_word (encB 0x55 a b off) rfl rfl hop (by decide) (raw_55 _ hop) fun hw => ?_
  simp [decOp55, bits_B_d, bits_B_a, bits_B_imm, flag_B_imm, need, fD, fA, fB, fFn, fImm15, fImm20, fPg, fEa,
    fEb, vInt, vFlt]

theorem jmp (d : BitVec 5) (imm : BitVec 20) : Statement (.jmp d imm) := by
  have hop := bits_C_op 0x56 d imm 25 7 (by decide)
  refine of_word (encC 0x56 d imm) rfl rfl hop (by decide) (raw_56 _ hop) fun hw => ?_
  simp [decOp56, bits_C_d, bits_C_imm, need, fD, fA, fB, fFn, fImm15, fImm20, fPg, fEa, fEb, vInt, vFlt]

theorem jmpr (d a : BitVec 5) : Statement (.jmpr d a) := by
  have hop := bits_A_op 0x57 d a 0 0 25 7 (by decide)
  refine of_word (encA 0x57 d a 0 0) rfl rfl hop (by decide) (raw_57 _ hop) fun hw => ?_
  simp [decOp57, bits_A_d, bits_A_a, bits_A_b, bits_A_fn, flag_A_fn, need, fD, fA, fB, fFn, fImm15, fImm20, fPg,
    fEa, fEb, vInt, vFlt]

theorem loop (x : BitVec 5) (b : BitVec 15) : Statement (.loop x b) := by
  have hop := bits_B_op 0x58 x 0 b 25 7 (by decide)
  refine of_word (encB 0x58 x 0 b) rfl rfl hop (by decide) (raw_58 _ hop) fun hw => ?_
  simp [decOp58, bits_B_d, bits_B_a, bits_B_imm, flag_B_imm, need, fD, fA, fB, fFn, fImm15, fImm20, fPg, fEa,
    fEb, vInt, vFlt]

theorem setfmt (x : BitVec 5) : Statement (.setfmt x) := by
  have hop := bits_B_op 0x59 x 0 0 25 7 (by decide)
  refine of_word (encB 0x59 x 0 0) rfl rfl hop (by decide) (raw_59 _ hop) fun hw => ?_
  simp [decOp59, bits_B_d, bits_B_a, bits_B_imm, flag_B_imm, need, fD, fA, fB, fFn, fImm15, fImm20, fPg, fEa,
    fEb, vInt, vFlt]

theorem proof (code : BitVec 15) : Statement (.proof code) := by
  have hop := bits_B_op 0x5A 0 0 code 25 7 (by decide)
  refine of_word (encB 0x5A 0 0 code) rfl rfl hop (by decide) (raw_5A _ hop) fun hw => ?_
  simp [decOp5A, bits_B_d, bits_B_a, bits_B_imm, flag_B_imm, need, fD, fA, fB, fFn, fImm15, fImm20, fPg, fEa,
    fEb, vInt, vFlt]

theorem vigil (x : BitVec 5) (vid : BitVec 10) : Statement (.vigil x vid) := by
  have hop := bits_B_op 0x5B x 0 ((0 : BitVec 5) ++ vid) 25 7 (by decide)
  refine of_word (encB 0x5B x 0 ((0 : BitVec 5) ++ vid)) rfl rfl hop (by decide) (raw_5B _ hop) fun hw => ?_
  simp [decOp5B, bits_B_d, bits_B_a, bits_B_imm, flag_B_imm, need, fD, fA, fB, fFn, fImm15, fImm20, fPg, fEa,
    fEb, vInt, vFlt, @BitVec.extractLsb'_append_eq_of_le 5 10, @BitVec.extractLsb'_append_eq_of_add_le 5 10,
    @BitVec.getLsbD_append 5 10, -BitVec.getLsbD_eq_getElem]

theorem waita (x y : BitVec 5) (scope : Scope) (wide : Bool) (cond : WaitCond) : Statement (.waita x y scope wide cond) := by
  have hop := bits_B_op 0x5C x y ((0 : BitVec 8) ++ scope.code ++ BitVec.ofBool wide ++ cond.code) 25 7 (by decide)
  refine of_word (encB 0x5C x y ((0 : BitVec 8) ++ scope.code ++ BitVec.ofBool wide ++ cond.code)) rfl rfl hop (by decide) (raw_5C _ hop) fun hw => ?_
  cases scope <;> cases cond <;> simp [decOp5C, bits_B_d, bits_B_a, bits_B_imm, flag_B_imm, need, fD, fA, fB,
    fFn, fImm15, fImm20, fPg, fEa, fEb, vInt, vFlt, @BitVec.extractLsb'_append_eq_of_le 12 3,
    @BitVec.extractLsb'_append_eq_of_add_le 12 3, @BitVec.getLsbD_append 12 3,
    @BitVec.extractLsb'_append_eq_of_le 11 1, @BitVec.extractLsb'_append_eq_of_add_le 11 1,
    @BitVec.getLsbD_append 11 1, @BitVec.extractLsb'_append_eq_of_le 8 3, @BitVec.extractLsb'_append_eq_of_add_le
    8 3, @BitVec.getLsbD_append 8 3, -BitVec.getLsbD_eq_getElem, Scope.code, Scope.ofCode, WaitCond.code,
    WaitCond.ofCode]

theorem fence (after before : BitVec 5) (scope : Scope) (order : FenceOrder) : Statement (.fence after before scope order) := by
  have hop := bits_B_op 0x5D 0 0 (after ++ before ++ scope.code ++ order.code) 25 7 (by decide)
  refine of_word (encB 0x5D 0 0 (after ++ before ++ scope.code ++ order.code)) rfl rfl hop (by decide) (raw_5D _ hop) fun hw => ?_
  cases scope <;> cases order <;> simp [decOp5D, bits_B_d, bits_B_a, bits_B_imm, flag_B_imm, need, fD, fA, fB,
    fFn, fImm15, fImm20, fPg, fEa, fEb, vInt, vFlt, @BitVec.extractLsb'_append_eq_of_le 13 2,
    @BitVec.extractLsb'_append_eq_of_add_le 13 2, @BitVec.getLsbD_append 13 2,
    @BitVec.extractLsb'_append_eq_of_le 10 3, @BitVec.extractLsb'_append_eq_of_add_le 10 3,
    @BitVec.getLsbD_append 10 3, @BitVec.extractLsb'_append_eq_of_le 5 5, @BitVec.extractLsb'_append_eq_of_add_le
    5 5, @BitVec.getLsbD_append 5 5, -BitVec.getLsbD_eq_getElem, Scope.code, Scope.ofCode, FenceOrder.code,
    FenceOrder.ofCode]

theorem spawn (x y : BitVec 5) (n : BitVec 4) (k : BitVec 3) : Statement (.spawn x y n k) := by
  have hop := bits_B_op 0x5E x y ((0 : BitVec 8) ++ n ++ k) 25 7 (by decide)
  refine of_word (encB 0x5E x y ((0 : BitVec 8) ++ n ++ k)) rfl rfl hop (by decide) (raw_5E _ hop) fun hw => ?_
  simp [decOp5E, bits_B_d, bits_B_a, bits_B_imm, flag_B_imm, need, fD, fA, fB, fFn, fImm15, fImm20, fPg, fEa,
    fEb, vInt, vFlt, @BitVec.extractLsb'_append_eq_of_le 12 3, @BitVec.extractLsb'_append_eq_of_add_le 12 3,
    @BitVec.getLsbD_append 12 3, @BitVec.extractLsb'_append_eq_of_le 8 4, @BitVec.extractLsb'_append_eq_of_add_le
    8 4, @BitVec.getLsbD_append 8 4, -BitVec.getLsbD_eq_getElem]

theorem susp (x y : BitVec 5) (aff : Affinity) : Statement (.susp x y aff) := by
  have hop := bits_B_op 0x5F x y ((0 : BitVec 13) ++ aff.code) 25 7 (by decide)
  refine of_word (encB 0x5F x y ((0 : BitVec 13) ++ aff.code)) rfl rfl hop (by decide) (raw_5F _ hop) fun hw => ?_
  cases aff <;> simp [decOp5F, bits_B_d, bits_B_a, bits_B_imm, flag_B_imm, need, fD, fA, fB, fFn, fImm15, fImm20,
    fPg, fEa, fEb, vInt, vFlt, @BitVec.extractLsb'_append_eq_of_le 13 2, @BitVec.extractLsb'_append_eq_of_add_le
    13 2, @BitVec.getLsbD_append 13 2, -BitVec.getLsbD_eq_getElem, Affinity.code, Affinity.ofCode]

theorem done : Statement .done := by
  have hop := bits_B_op 0x60 0 0 0 25 7 (by decide)
  refine of_word (encB 0x60 0 0 0) rfl rfl hop (by decide) (raw_60 _ hop) fun hw => ?_
  rfl

theorem trig : Statement .trig := by
  have hop := bits_B_op 0x61 0 0 0 25 7 (by decide)
  refine of_word (encB 0x61 0 0 0) rfl rfl hop (by decide) (raw_61 _ hop) fun hw => ?_
  rfl

theorem trap (code : BitVec 15) : Statement (.trap code) := by
  have hop := bits_B_op 0x62 0 0 code 25 7 (by decide)
  refine of_word (encB 0x62 0 0 code) rfl rfl hop (by decide) (raw_62 _ hop) fun hw => ?_
  simp [decOp62, bits_B_d, bits_B_a, bits_B_imm, flag_B_imm, need, fD, fA, fB, fFn, fImm15, fImm20, fPg, fEa,
    fEb, vInt, vFlt]

theorem eret : Statement .eret := by
  have hop := bits_B_op 0x63 0 0 0 25 7 (by decide)
  refine of_word (encB 0x63 0 0 0) rfl rfl hop (by decide) (raw_63 _ hop) fun hw => ?_
  rfl

theorem crd (x : BitVec 5) (r : BitVec 12) : Statement (.crd x r) := by
  have hop := bits_B_op 0x64 x 0 ((0 : BitVec 3) ++ r) 25 7 (by decide)
  refine of_word (encB 0x64 x 0 ((0 : BitVec 3) ++ r)) rfl rfl hop (by decide) (raw_64 _ hop) fun hw => ?_
  simp [decOp64, bits_B_d, bits_B_a, bits_B_imm, flag_B_imm, need, fD, fA, fB, fFn, fImm15, fImm20, fPg, fEa,
    fEb, vInt, vFlt, @BitVec.extractLsb'_append_eq_of_le 3 12, @BitVec.extractLsb'_append_eq_of_add_le 3 12,
    @BitVec.getLsbD_append 3 12, -BitVec.getLsbD_eq_getElem]

theorem cwr (x : BitVec 5) (r : BitVec 12) : Statement (.cwr x r) := by
  have hop := bits_B_op 0x65 x 0 ((0 : BitVec 3) ++ r) 25 7 (by decide)
  refine of_word (encB 0x65 x 0 ((0 : BitVec 3) ++ r)) rfl rfl hop (by decide) (raw_65 _ hop) fun hw => ?_
  simp [decOp65, bits_B_d, bits_B_a, bits_B_imm, flag_B_imm, need, fD, fA, fB, fFn, fImm15, fImm20, fPg, fEa,
    fEb, vInt, vFlt, @BitVec.extractLsb'_append_eq_of_le 3 12, @BitVec.extractLsb'_append_eq_of_add_le 3 12,
    @BitVec.getLsbD_append 3 12, -BitVec.getLsbD_eq_getElem]

theorem bkpt (code : BitVec 15) : Statement (.bkpt code) := by
  have hop := bits_B_op 0x66 0 0 code 25 7 (by decide)
  refine of_word (encB 0x66 0 0 code) rfl rfl hop (by decide) (raw_66 _ hop) fun hw => ?_
  simp [decOp66, bits_B_d, bits_B_a, bits_B_imm, flag_B_imm, need, fD, fA, fB, fFn, fImm15, fImm20, fPg, fEa,
    fEb, vInt, vFlt]

theorem engrave (x y : BitVec 5) (c : BitVec 9) : Statement (.engrave x y c) := by
  have hop := bits_B_op 0x67 x y ((0 : BitVec 6) ++ c) 25 7 (by decide)
  refine of_word (encB 0x67 x y ((0 : BitVec 6) ++ c)) rfl rfl hop (by decide) (raw_67 _ hop) fun hw => ?_
  simp [decOp67, bits_B_d, bits_B_a, bits_B_imm, flag_B_imm, need, fD, fA, fB, fFn, fImm15, fImm20, fPg, fEa,
    fEb, vInt, vFlt, @BitVec.extractLsb'_append_eq_of_le 6 9, @BitVec.extractLsb'_append_eq_of_add_le 6 9,
    @BitVec.getLsbD_append 6 9, -BitVec.getLsbD_eq_getElem]

theorem bnset (x : BitVec 5) (k : BitVec 3) : Statement (.bnset x k) := by
  have hop := bits_B_op 0x68 x 0 ((0 : BitVec 12) ++ k) 25 7 (by decide)
  refine of_word (encB 0x68 x 0 ((0 : BitVec 12) ++ k)) rfl rfl hop (by decide) (raw_68 _ hop) fun hw => ?_
  simp [decOp68, bits_B_d, bits_B_a, bits_B_imm, flag_B_imm, need, fD, fA, fB, fFn, fImm15, fImm20, fPg, fEa,
    fEb, vInt, vFlt, @BitVec.extractLsb'_append_eq_of_le 12 3, @BitVec.extractLsb'_append_eq_of_add_le 12 3,
    @BitVec.getLsbD_append 12 3, -BitVec.getLsbD_eq_getElem]

theorem ewr (r : BitVec 10) (a : BitVec 5) : Statement (.ewr r a) := by
  have hop := bits_E_op 0x70 r a 0 25 7 (by decide)
  refine of_word (encE 0x70 r a 0) rfl rfl hop (by decide) (raw_70 _ hop (bits_E_fl _ _ _ _ 0 5 (by decide))) fun hw => ?_
  have hr : (r.extractLsb' 3 7 : BitVec 7) ≠ 1#7 := extract_ne_of_wf r a hw
  simp [decOp70, bits_E_eop, bits_E_a, bits_E_b, bits_E_fl, flag_E_eop, need, fD, fA, fB, fFn, fImm15, fImm20,
    fPg, fEa, fEb, vInt, vFlt, hr]

theorem ewrErhtTail (i : BitVec 3) (a : BitVec 5) : Statement (.ewrErhtTail i a) := by
  have hop := bits_E_op 0x70 ((1 : BitVec 7) ++ i) a 0 25 7 (by decide)
  refine of_word (encE 0x70 ((1 : BitVec 7) ++ i) a 0) rfl rfl hop (by decide) (raw_70 _ hop (bits_E_fl _ _ _ _ 0 5 (by decide))) fun hw => ?_
  simp [decOp70, bits_E_eop, bits_E_a, bits_E_b, bits_E_fl, flag_E_eop, need, fD, fA, fB, fFn, fImm15, fImm20,
    fPg, fEa, fEb, vInt, vFlt, @BitVec.extractLsb'_append_eq_of_le 7 3, @BitVec.extractLsb'_append_eq_of_add_le 7
    3, @BitVec.getLsbD_append 7 3, -BitVec.getLsbD_eq_getElem]

theorem erd (a : BitVec 5) (r : BitVec 10) : Statement (.erd a r) := by
  have hop := bits_E_op 0x71 r a 0 25 7 (by decide)
  refine of_word (encE 0x71 r a 0) rfl rfl hop (by decide) (raw_71 _ hop (bits_E_fl _ _ _ _ 0 5 (by decide))) fun hw => ?_
  simp [decOp71, bits_E_eop, bits_E_a, bits_E_b, bits_E_fl, flag_E_eop, need, fD, fA, fB, fFn, fImm15, fImm20,
    fPg, fEa, fEb, vInt, vFlt]

theorem mma (ar br : BitVec 3) (bank clr : Bool) (a : BitVec 5) : Statement (.mma ar br bank clr a) := by
  have hop := bits_E_op 0x72 (ar ++ br ++ BitVec.ofBool bank ++ BitVec.ofBool clr ++ (0 : BitVec 2)) a 0 25 7 (by decide)
  refine of_word (encE 0x72 (ar ++ br ++ BitVec.ofBool bank ++ BitVec.ofBool clr ++ (0 : BitVec 2)) a 0) rfl rfl hop (by decide) (raw_72 _ hop (bits_E_fl _ _ _ _ 0 5 (by decide))) fun hw => ?_
  simp [decOp72, bits_E_eop, bits_E_a, bits_E_b, bits_E_fl, flag_E_eop, need, fD, fA, fB, fFn, fImm15, fImm20,
    fPg, fEa, fEb, vInt, vFlt, @BitVec.extractLsb'_append_eq_of_le 8 2, @BitVec.extractLsb'_append_eq_of_add_le 8
    2, @BitVec.getLsbD_append 8 2, @BitVec.extractLsb'_append_eq_of_le 7 1,
    @BitVec.extractLsb'_append_eq_of_add_le 7 1, @BitVec.getLsbD_append 7 1, @BitVec.extractLsb'_append_eq_of_le
    6 1, @BitVec.extractLsb'_append_eq_of_add_le 6 1, @BitVec.getLsbD_append 6 1,
    @BitVec.extractLsb'_append_eq_of_le 3 3, @BitVec.extractLsb'_append_eq_of_add_le 3 3, @BitVec.getLsbD_append
    3 3, -BitVec.getLsbD_eq_getElem]

theorem mzero (bank : Bool) : Statement (.mzero bank) := by
  have hop := bits_E_op 0x73 ((0 : BitVec 6) ++ BitVec.ofBool bank ++ (0 : BitVec 3)) 0 0 25 7 (by decide)
  refine of_word (encE 0x73 ((0 : BitVec 6) ++ BitVec.ofBool bank ++ (0 : BitVec 3)) 0 0) rfl rfl hop (by decide) (raw_73 _ hop (bits_E_fl _ _ _ _ 0 5 (by decide))) fun hw => ?_
  simp [decOp73, bits_E_eop, bits_E_a, bits_E_b, bits_E_fl, flag_E_eop, need, fD, fA, fB, fFn, fImm15, fImm20,
    fPg, fEa, fEb, vInt, vFlt, @BitVec.extractLsb'_append_eq_of_le 7 3, @BitVec.extractLsb'_append_eq_of_add_le 7
    3, @BitVec.getLsbD_append 7 3, @BitVec.extractLsb'_append_eq_of_le 6 1,
    @BitVec.extractLsb'_append_eq_of_add_le 6 1, @BitVec.getLsbD_append 6 1, -BitVec.getLsbD_eq_getElem]

theorem mret (bank lsf : Bool) (layout : MLayout) (a b : BitVec 5) : Statement (.mret bank lsf layout a b) := by
  have hop := bits_E_op 0x74 ((0 : BitVec 6) ++ BitVec.ofBool bank ++ BitVec.ofBool lsf ++ layout.code) a b 25 7 (by decide)
  refine of_word (encE 0x74 ((0 : BitVec 6) ++ BitVec.ofBool bank ++ BitVec.ofBool lsf ++ layout.code) a b) rfl rfl hop (by decide) (raw_74 _ hop (bits_E_fl _ _ _ _ 0 5 (by decide))) fun hw => ?_
  cases layout <;> simp [decOp74, bits_E_eop, bits_E_a, bits_E_b, bits_E_fl, flag_E_eop, need, fD, fA, fB, fFn,
    fImm15, fImm20, fPg, fEa, fEb, vInt, vFlt, @BitVec.extractLsb'_append_eq_of_le 8 2,
    @BitVec.extractLsb'_append_eq_of_add_le 8 2, @BitVec.getLsbD_append 8 2, @BitVec.extractLsb'_append_eq_of_le
    7 1, @BitVec.extractLsb'_append_eq_of_add_le 7 1, @BitVec.getLsbD_append 7 1,
    @BitVec.extractLsb'_append_eq_of_le 6 1, @BitVec.extractLsb'_append_eq_of_add_le 6 1, @BitVec.getLsbD_append
    6 1, -BitVec.getLsbD_eq_getElem, MLayout.code, MLayout.ofCode]

theorem mgang (mask : BitVec 4) (bank clr : Bool) (a b : BitVec 5) : Statement (.mgang mask bank clr a b) := by
  have hop := bits_E_op 0x75 (mask ++ (0 : BitVec 2) ++ BitVec.ofBool bank ++ BitVec.ofBool clr ++ (0 : BitVec 2)) a b 25 7 (by decide)
  refine of_word (encE 0x75 (mask ++ (0 : BitVec 2) ++ BitVec.ofBool bank ++ BitVec.ofBool clr ++ (0 : BitVec 2)) a b) rfl rfl hop (by decide) (raw_75 _ hop (bits_E_fl _ _ _ _ 0 5 (by decide))) fun hw => ?_
  simp [decOp75, bits_E_eop, bits_E_a, bits_E_b, bits_E_fl, flag_E_eop, need, fD, fA, fB, fFn, fImm15, fImm20,
    fPg, fEa, fEb, vInt, vFlt, @BitVec.extractLsb'_append_eq_of_le 8 2, @BitVec.extractLsb'_append_eq_of_add_le 8
    2, @BitVec.getLsbD_append 8 2, @BitVec.extractLsb'_append_eq_of_le 7 1,
    @BitVec.extractLsb'_append_eq_of_add_le 7 1, @BitVec.getLsbD_append 7 1, @BitVec.extractLsb'_append_eq_of_le
    6 1, @BitVec.extractLsb'_append_eq_of_add_le 6 1, @BitVec.getLsbD_append 6 1,
    @BitVec.extractLsb'_append_eq_of_le 4 2, @BitVec.extractLsb'_append_eq_of_add_le 4 2, @BitVec.getLsbD_append
    4 2, -BitVec.getLsbD_eq_getElem]

theorem flu (variant : Bool) (a b : BitVec 5) : Statement (.flu variant a b) := by
  have hop := bits_E_op 0x76 ((0 : BitVec 1) ++ BitVec.ofBool variant ++ (0 : BitVec 8)) a b 25 7 (by decide)
  refine of_word (encE 0x76 ((0 : BitVec 1) ++ BitVec.ofBool variant ++ (0 : BitVec 8)) a b) rfl rfl hop (by decide) (raw_76 _ hop (bits_E_fl _ _ _ _ 0 5 (by decide))) fun hw => ?_
  simp [decOp76, bits_E_eop, bits_E_a, bits_E_b, bits_E_fl, flag_E_eop, need, fD, fA, fB, fFn, fImm15, fImm20,
    fPg, fEa, fEb, vInt, vFlt, @BitVec.extractLsb'_append_eq_of_le 2 8, @BitVec.extractLsb'_append_eq_of_add_le 2
    8, @BitVec.getLsbD_append 2 8, @BitVec.extractLsb'_append_eq_of_le 1 1,
    @BitVec.extractLsb'_append_eq_of_add_le 1 1, @BitVec.getLsbD_append 1 1, -BitVec.getLsbD_eq_getElem]

theorem fchol (variant : Bool) (a b : BitVec 5) : Statement (.fchol variant a b) := by
  have hop := bits_E_op 0x77 ((0 : BitVec 1) ++ BitVec.ofBool variant ++ (0 : BitVec 8)) a b 25 7 (by decide)
  refine of_word (encE 0x77 ((0 : BitVec 1) ++ BitVec.ofBool variant ++ (0 : BitVec 8)) a b) rfl rfl hop (by decide) (raw_77 _ hop (bits_E_fl _ _ _ _ 0 5 (by decide))) fun hw => ?_
  simp [decOp77, bits_E_eop, bits_E_a, bits_E_b, bits_E_fl, flag_E_eop, need, fD, fA, fB, fFn, fImm15, fImm20,
    fPg, fEa, fEb, vInt, vFlt, @BitVec.extractLsb'_append_eq_of_le 2 8, @BitVec.extractLsb'_append_eq_of_add_le 2
    8, @BitVec.getLsbD_append 2 8, @BitVec.extractLsb'_append_eq_of_le 1 1,
    @BitVec.extractLsb'_append_eq_of_add_le 1 1, @BitVec.getLsbD_append 1 1, -BitVec.getLsbD_eq_getElem]

theorem fqr (a b : BitVec 5) : Statement (.fqr a b) := by
  have hop := bits_E_op 0x78 0 a b 25 7 (by decide)
  refine of_word (encE 0x78 0 a b) rfl rfl hop (by decide) (raw_78 _ hop (bits_E_fl _ _ _ _ 0 5 (by decide))) fun hw => ?_
  simp [decOp78, bits_E_eop, bits_E_a, bits_E_b, bits_E_fl, flag_E_eop, need, fD, fA, fB, fFn, fImm15, fImm20,
    fPg, fEa, fEb, vInt, vFlt]

theorem ftrsm (right upper tr unit : Bool) (a b : BitVec 5) : Statement (.ftrsm right upper tr unit a b) := by
  have hop := bits_E_op 0x79 (BitVec.ofBool right ++ BitVec.ofBool upper ++ BitVec.ofBool tr ++ BitVec.ofBool unit ++ (0 : BitVec 6)) a b 25 7 (by decide)
  refine of_word (encE 0x79 (BitVec.ofBool right ++ BitVec.ofBool upper ++ BitVec.ofBool tr ++ BitVec.ofBool unit ++ (0 : BitVec 6)) a b) rfl rfl hop (by decide) (raw_79 _ hop (bits_E_fl _ _ _ _ 0 5 (by decide))) fun hw => ?_
  simp [decOp79, bits_E_eop, bits_E_a, bits_E_b, bits_E_fl, flag_E_eop, need, fD, fA, fB, fFn, fImm15, fImm20,
    fPg, fEa, fEb, vInt, vFlt, @BitVec.extractLsb'_append_eq_of_le 4 6, @BitVec.extractLsb'_append_eq_of_add_le 4
    6, @BitVec.getLsbD_append 4 6, @BitVec.extractLsb'_append_eq_of_le 3 1,
    @BitVec.extractLsb'_append_eq_of_add_le 3 1, @BitVec.getLsbD_append 3 1, @BitVec.extractLsb'_append_eq_of_le
    2 1, @BitVec.extractLsb'_append_eq_of_add_le 2 1, @BitVec.getLsbD_append 2 1,
    @BitVec.extractLsb'_append_eq_of_le 1 1, @BitVec.extractLsb'_append_eq_of_add_le 1 1, @BitVec.getLsbD_append
    1 1, -BitVec.getLsbD_eq_getElem]

theorem cpy (a b : BitVec 5) : Statement (.cpy a b) := by
  have hop := bits_E_op 0x7A 0 a b 25 7 (by decide)
  refine of_word (encE 0x7A 0 a b) rfl rfl hop (by decide) (raw_7A _ hop (bits_E_fl _ _ _ _ 0 5 (by decide))) fun hw => ?_
  simp [decOp7A, bits_E_eop, bits_E_a, bits_E_b, bits_E_fl, flag_E_eop, need, fD, fA, fB, fFn, fImm15, fImm20,
    fPg, fEa, fEb, vInt, vFlt]

theorem coll (a : BitVec 5) : Statement (.coll a) := by
  have hop := bits_E_op 0x7B 0 a 0 25 7 (by decide)
  refine of_word (encE 0x7B 0 a 0) rfl rfl hop (by decide) (raw_7B _ hop (bits_E_fl _ _ _ _ 0 5 (by decide))) fun hw => ?_
  simp [decOp7B, bits_E_eop, bits_E_a, bits_E_b, bits_E_fl, flag_E_eop, need, fD, fA, fB, fFn, fImm15, fImm20,
    fPg, fEa, fEb, vInt, vFlt]

theorem gld (order : DOrder) (scope : Scope) (z : Bool) (a b : BitVec 5) : Statement (.gld order scope z a b) := by
  have hop := bits_E_op 0x7C ((0 : BitVec 3) ++ order.code ++ scope.code ++ BitVec.ofBool z ++ (0 : BitVec 1)) a b 25 7 (by decide)
  refine of_word (encE 0x7C ((0 : BitVec 3) ++ order.code ++ scope.code ++ BitVec.ofBool z ++ (0 : BitVec 1)) a b) rfl rfl hop (by decide) (raw_7C _ hop (bits_E_fl _ _ _ _ 0 5 (by decide))) fun hw => ?_
  cases order <;> cases scope <;> simp [decOp7C, bits_E_eop, bits_E_a, bits_E_b, bits_E_fl, flag_E_eop, need, fD,
    fA, fB, fFn, fImm15, fImm20, fPg, fEa, fEb, vInt, vFlt, @BitVec.extractLsb'_append_eq_of_le 9 1,
    @BitVec.extractLsb'_append_eq_of_add_le 9 1, @BitVec.getLsbD_append 9 1, @BitVec.extractLsb'_append_eq_of_le
    8 1, @BitVec.extractLsb'_append_eq_of_add_le 8 1, @BitVec.getLsbD_append 8 1,
    @BitVec.extractLsb'_append_eq_of_le 5 3, @BitVec.extractLsb'_append_eq_of_add_le 5 3, @BitVec.getLsbD_append
    5 3, @BitVec.extractLsb'_append_eq_of_le 3 2, @BitVec.extractLsb'_append_eq_of_add_le 3 2,
    @BitVec.getLsbD_append 3 2, -BitVec.getLsbD_eq_getElem, DOrder.code, DOrder.ofCode, Scope.code, Scope.ofCode]

theorem gst (order : DOrder) (scope : Scope) (z : Bool) (a b : BitVec 5) : Statement (.gst order scope z a b) := by
  have hop := bits_E_op 0x7C ((1 : BitVec 3) ++ order.code ++ scope.code ++ BitVec.ofBool z ++ (0 : BitVec 1)) a b 25 7 (by decide)
  refine of_word (encE 0x7C ((1 : BitVec 3) ++ order.code ++ scope.code ++ BitVec.ofBool z ++ (0 : BitVec 1)) a b) rfl rfl hop (by decide) (raw_7C _ hop (bits_E_fl _ _ _ _ 0 5 (by decide))) fun hw => ?_
  cases order <;> cases scope <;> simp [decOp7C, bits_E_eop, bits_E_a, bits_E_b, bits_E_fl, flag_E_eop, need, fD,
    fA, fB, fFn, fImm15, fImm20, fPg, fEa, fEb, vInt, vFlt, @BitVec.extractLsb'_append_eq_of_le 9 1,
    @BitVec.extractLsb'_append_eq_of_add_le 9 1, @BitVec.getLsbD_append 9 1, @BitVec.extractLsb'_append_eq_of_le
    8 1, @BitVec.extractLsb'_append_eq_of_add_le 8 1, @BitVec.getLsbD_append 8 1,
    @BitVec.extractLsb'_append_eq_of_le 5 3, @BitVec.extractLsb'_append_eq_of_add_le 5 3, @BitVec.getLsbD_append
    5 3, @BitVec.extractLsb'_append_eq_of_le 3 2, @BitVec.extractLsb'_append_eq_of_add_le 3 2,
    @BitVec.getLsbD_append 3 2, -BitVec.getLsbD_eq_getElem, DOrder.code, DOrder.ofCode, Scope.code, Scope.ofCode]

theorem gaadd (order : DOrder) (scope : Scope) (z : Bool) (a b : BitVec 5) : Statement (.gaadd order scope z a b) := by
  have hop := bits_E_op 0x7C ((2 : BitVec 3) ++ order.code ++ scope.code ++ BitVec.ofBool z ++ (0 : BitVec 1)) a b 25 7 (by decide)
  refine of_word (encE 0x7C ((2 : BitVec 3) ++ order.code ++ scope.code ++ BitVec.ofBool z ++ (0 : BitVec 1)) a b) rfl rfl hop (by decide) (raw_7C _ hop (bits_E_fl _ _ _ _ 0 5 (by decide))) fun hw => ?_
  cases order <;> cases scope <;> simp [decOp7C, bits_E_eop, bits_E_a, bits_E_b, bits_E_fl, flag_E_eop, need, fD,
    fA, fB, fFn, fImm15, fImm20, fPg, fEa, fEb, vInt, vFlt, @BitVec.extractLsb'_append_eq_of_le 9 1,
    @BitVec.extractLsb'_append_eq_of_add_le 9 1, @BitVec.getLsbD_append 9 1, @BitVec.extractLsb'_append_eq_of_le
    8 1, @BitVec.extractLsb'_append_eq_of_add_le 8 1, @BitVec.getLsbD_append 8 1,
    @BitVec.extractLsb'_append_eq_of_le 5 3, @BitVec.extractLsb'_append_eq_of_add_le 5 3, @BitVec.getLsbD_append
    5 3, @BitVec.extractLsb'_append_eq_of_le 3 2, @BitVec.extractLsb'_append_eq_of_add_le 3 2,
    @BitVec.getLsbD_append 3 2, -BitVec.getLsbD_eq_getElem, DOrder.code, DOrder.ofCode, Scope.code, Scope.ofCode]

theorem gacas (order : DOrder) (scope : Scope) (z : Bool) (a b : BitVec 5) : Statement (.gacas order scope z a b) := by
  have hop := bits_E_op 0x7C ((3 : BitVec 3) ++ order.code ++ scope.code ++ BitVec.ofBool z ++ (0 : BitVec 1)) a b 25 7 (by decide)
  refine of_word (encE 0x7C ((3 : BitVec 3) ++ order.code ++ scope.code ++ BitVec.ofBool z ++ (0 : BitVec 1)) a b) rfl rfl hop (by decide) (raw_7C _ hop (bits_E_fl _ _ _ _ 0 5 (by decide))) fun hw => ?_
  cases order <;> cases scope <;> simp [decOp7C, bits_E_eop, bits_E_a, bits_E_b, bits_E_fl, flag_E_eop, need, fD,
    fA, fB, fFn, fImm15, fImm20, fPg, fEa, fEb, vInt, vFlt, @BitVec.extractLsb'_append_eq_of_le 9 1,
    @BitVec.extractLsb'_append_eq_of_add_le 9 1, @BitVec.getLsbD_append 9 1, @BitVec.extractLsb'_append_eq_of_le
    8 1, @BitVec.extractLsb'_append_eq_of_add_le 8 1, @BitVec.getLsbD_append 8 1,
    @BitVec.extractLsb'_append_eq_of_le 5 3, @BitVec.extractLsb'_append_eq_of_add_le 5 3, @BitVec.getLsbD_append
    5 3, @BitVec.extractLsb'_append_eq_of_le 3 2, @BitVec.extractLsb'_append_eq_of_add_le 3 2,
    @BitVec.getLsbD_append 3 2, -BitVec.getLsbD_eq_getElem, DOrder.code, DOrder.ofCode, Scope.code, Scope.ofCode]

theorem gaxch (order : DOrder) (scope : Scope) (z : Bool) (a b : BitVec 5) : Statement (.gaxch order scope z a b) := by
  have hop := bits_E_op 0x7C ((4 : BitVec 3) ++ order.code ++ scope.code ++ BitVec.ofBool z ++ (0 : BitVec 1)) a b 25 7 (by decide)
  refine of_word (encE 0x7C ((4 : BitVec 3) ++ order.code ++ scope.code ++ BitVec.ofBool z ++ (0 : BitVec 1)) a b) rfl rfl hop (by decide) (raw_7C _ hop (bits_E_fl _ _ _ _ 0 5 (by decide))) fun hw => ?_
  cases order <;> cases scope <;> simp [decOp7C, bits_E_eop, bits_E_a, bits_E_b, bits_E_fl, flag_E_eop, need, fD,
    fA, fB, fFn, fImm15, fImm20, fPg, fEa, fEb, vInt, vFlt, @BitVec.extractLsb'_append_eq_of_le 9 1,
    @BitVec.extractLsb'_append_eq_of_add_le 9 1, @BitVec.getLsbD_append 9 1, @BitVec.extractLsb'_append_eq_of_le
    8 1, @BitVec.extractLsb'_append_eq_of_add_le 8 1, @BitVec.getLsbD_append 8 1,
    @BitVec.extractLsb'_append_eq_of_le 5 3, @BitVec.extractLsb'_append_eq_of_add_le 5 3, @BitVec.getLsbD_append
    5 3, @BitVec.extractLsb'_append_eq_of_le 3 2, @BitVec.extractLsb'_append_eq_of_add_le 3 2,
    @BitVec.getLsbD_append 3 2, -BitVec.getLsbD_eq_getElem, DOrder.code, DOrder.ofCode, Scope.code, Scope.ofCode]

theorem gamax (order : DOrder) (scope : Scope) (z : Bool) (a b : BitVec 5) : Statement (.gamax order scope z a b) := by
  have hop := bits_E_op 0x7C ((5 : BitVec 3) ++ order.code ++ scope.code ++ BitVec.ofBool z ++ (0 : BitVec 1)) a b 25 7 (by decide)
  refine of_word (encE 0x7C ((5 : BitVec 3) ++ order.code ++ scope.code ++ BitVec.ofBool z ++ (0 : BitVec 1)) a b) rfl rfl hop (by decide) (raw_7C _ hop (bits_E_fl _ _ _ _ 0 5 (by decide))) fun hw => ?_
  cases order <;> cases scope <;> simp [decOp7C, bits_E_eop, bits_E_a, bits_E_b, bits_E_fl, flag_E_eop, need, fD,
    fA, fB, fFn, fImm15, fImm20, fPg, fEa, fEb, vInt, vFlt, @BitVec.extractLsb'_append_eq_of_le 9 1,
    @BitVec.extractLsb'_append_eq_of_add_le 9 1, @BitVec.getLsbD_append 9 1, @BitVec.extractLsb'_append_eq_of_le
    8 1, @BitVec.extractLsb'_append_eq_of_add_le 8 1, @BitVec.getLsbD_append 8 1,
    @BitVec.extractLsb'_append_eq_of_le 5 3, @BitVec.extractLsb'_append_eq_of_add_le 5 3, @BitVec.getLsbD_append
    5 3, @BitVec.extractLsb'_append_eq_of_le 3 2, @BitVec.extractLsb'_append_eq_of_add_le 3 2,
    @BitVec.getLsbD_append 3 2, -BitVec.getLsbD_eq_getElem, DOrder.code, DOrder.ofCode, Scope.code, Scope.ofCode]

theorem gamin (order : DOrder) (scope : Scope) (z : Bool) (a b : BitVec 5) : Statement (.gamin order scope z a b) := by
  have hop := bits_E_op 0x7C ((6 : BitVec 3) ++ order.code ++ scope.code ++ BitVec.ofBool z ++ (0 : BitVec 1)) a b 25 7 (by decide)
  refine of_word (encE 0x7C ((6 : BitVec 3) ++ order.code ++ scope.code ++ BitVec.ofBool z ++ (0 : BitVec 1)) a b) rfl rfl hop (by decide) (raw_7C _ hop (bits_E_fl _ _ _ _ 0 5 (by decide))) fun hw => ?_
  cases order <;> cases scope <;> simp [decOp7C, bits_E_eop, bits_E_a, bits_E_b, bits_E_fl, flag_E_eop, need, fD,
    fA, fB, fFn, fImm15, fImm20, fPg, fEa, fEb, vInt, vFlt, @BitVec.extractLsb'_append_eq_of_le 9 1,
    @BitVec.extractLsb'_append_eq_of_add_le 9 1, @BitVec.getLsbD_append 9 1, @BitVec.extractLsb'_append_eq_of_le
    8 1, @BitVec.extractLsb'_append_eq_of_add_le 8 1, @BitVec.getLsbD_append 8 1,
    @BitVec.extractLsb'_append_eq_of_le 5 3, @BitVec.extractLsb'_append_eq_of_add_le 5 3, @BitVec.getLsbD_append
    5 3, @BitVec.extractLsb'_append_eq_of_le 3 2, @BitVec.extractLsb'_append_eq_of_add_le 3 2,
    @BitVec.getLsbD_append 3 2, -BitVec.getLsbD_eq_getElem, DOrder.code, DOrder.ofCode, Scope.code, Scope.ofCode]

theorem wstrm (a : BitVec 5) : Statement (.wstrm a) := by
  have hop := bits_E_op 0x7D 0 a 0 25 7 (by decide)
  refine of_word (encE 0x7D 0 a 0) rfl rfl hop (by decide) (raw_7D _ hop (bits_E_fl _ _ _ _ 0 5 (by decide))) fun hw => ?_
  simp [decOp7D, bits_E_eop, bits_E_a, bits_E_b, bits_E_fl, flag_E_eop, need, fD, fA, fB, fFn, fImm15, fImm20,
    fPg, fEa, fEb, vInt, vFlt]

theorem strb (dir : Bool) (q : BitVec 3) (a : BitVec 5) : Statement (.strb dir q a) := by
  have hop := bits_E_op 0x7E ((0 : BitVec 6) ++ BitVec.ofBool dir ++ q) a 0 25 7 (by decide)
  refine of_word (encE 0x7E ((0 : BitVec 6) ++ BitVec.ofBool dir ++ q) a 0) rfl rfl hop (by decide) (raw_7E _ hop (bits_E_fl _ _ _ _ 0 5 (by decide))) fun hw => ?_
  simp [decOp7E, bits_E_eop, bits_E_a, bits_E_b, bits_E_fl, flag_E_eop, need, fD, fA, fB, fFn, fImm15, fImm20,
    fPg, fEa, fEb, vInt, vFlt, @BitVec.extractLsb'_append_eq_of_le 7 3, @BitVec.extractLsb'_append_eq_of_add_le 7
    3, @BitVec.getLsbD_append 7 3, @BitVec.extractLsb'_append_eq_of_le 6 1,
    @BitVec.extractLsb'_append_eq_of_add_le 6 1, @BitVec.getLsbD_append 6 1, -BitVec.getLsbD_eq_getElem]

theorem stru (q : BitVec 3) : Statement (.stru q) := by
  have hop := bits_E_op 0x7E ((1 : BitVec 1) ++ (0 : BitVec 6) ++ q) 0 0 25 7 (by decide)
  refine of_word (encE 0x7E ((1 : BitVec 1) ++ (0 : BitVec 6) ++ q) 0 0) rfl rfl hop (by decide) (raw_7E _ hop (bits_E_fl _ _ _ _ 0 5 (by decide))) fun hw => ?_
  simp [decOp7E, bits_E_eop, bits_E_a, bits_E_b, bits_E_fl, flag_E_eop, need, fD, fA, fB, fFn, fImm15, fImm20,
    fPg, fEa, fEb, vInt, vFlt, @BitVec.extractLsb'_append_eq_of_le 7 3, @BitVec.extractLsb'_append_eq_of_add_le 7
    3, @BitVec.getLsbD_append 7 3, @BitVec.extractLsb'_append_eq_of_le 1 6,
    @BitVec.extractLsb'_append_eq_of_add_le 1 6, @BitVec.getLsbD_append 1 6, -BitVec.getLsbD_eq_getElem]

theorem lref (a b : BitVec 5) : Statement (.lref a b) := by
  have hop := bits_E_op 0x7F ((0 : BitVec 2) ++ (0 : BitVec 8)) a b 25 7 (by decide)
  refine of_word (encE 0x7F ((0 : BitVec 2) ++ (0 : BitVec 8)) a b) rfl rfl hop (by decide) (raw_7F _ hop (bits_E_fl _ _ _ _ 0 5 (by decide))) fun hw => ?_
  simp [decOp7F, bits_E_eop, bits_E_a, bits_E_b, bits_E_fl, flag_E_eop, need, fD, fA, fB, fFn, fImm15, fImm20,
    fPg, fEa, fEb, vInt, vFlt, @BitVec.extractLsb'_append_eq_of_le 2 8, @BitVec.extractLsb'_append_eq_of_add_le 2
    8, @BitVec.getLsbD_append 2 8, -BitVec.getLsbD_eq_getElem]

theorem lqry (a b : BitVec 5) : Statement (.lqry a b) := by
  have hop := bits_E_op 0x7F ((1 : BitVec 2) ++ (0 : BitVec 8)) a b 25 7 (by decide)
  refine of_word (encE 0x7F ((1 : BitVec 2) ++ (0 : BitVec 8)) a b) rfl rfl hop (by decide) (raw_7F _ hop (bits_E_fl _ _ _ _ 0 5 (by decide))) fun hw => ?_
  simp [decOp7F, bits_E_eop, bits_E_a, bits_E_b, bits_E_fl, flag_E_eop, need, fD, fA, fB, fFn, fImm15, fImm20,
    fPg, fEa, fEb, vInt, vFlt, @BitVec.extractLsb'_append_eq_of_le 2 8, @BitVec.extractLsb'_append_eq_of_add_le 2
    8, @BitVec.getLsbD_append 2 8, -BitVec.getLsbD_eq_getElem]

theorem phint (access : HintAccess) (tier : HintTier) (a b : BitVec 5) : Statement (.phint access tier a b) := by
  have hop := bits_E_op 0x7F ((2 : BitVec 2) ++ access.code ++ tier.code) a b 25 7 (by decide)
  refine of_word (encE 0x7F ((2 : BitVec 2) ++ access.code ++ tier.code) a b) rfl rfl hop (by decide) (raw_7F _ hop (bits_E_fl _ _ _ _ 0 5 (by decide))) fun hw => ?_
  cases access <;> cases tier <;> simp [decOp7F, bits_E_eop, bits_E_a, bits_E_b, bits_E_fl, flag_E_eop, need, fD,
    fA, fB, fFn, fImm15, fImm20, fPg, fEa, fEb, vInt, vFlt, @BitVec.extractLsb'_append_eq_of_le 6 4,
    @BitVec.extractLsb'_append_eq_of_add_le 6 4, @BitVec.getLsbD_append 6 4, @BitVec.extractLsb'_append_eq_of_le
    2 4, @BitVec.extractLsb'_append_eq_of_add_le 2 4, @BitVec.getLsbD_append 2 4, -BitVec.getLsbD_eq_getElem,
    HintAccess.code, HintAccess.ofCode, HintTier.code, HintTier.ofCode]

theorem pmig (a b : BitVec 5) : Statement (.pmig a b) := by
  have hop := bits_E_op 0x7F ((3 : BitVec 2) ++ (0 : BitVec 8)) a b 25 7 (by decide)
  refine of_word (encE 0x7F ((3 : BitVec 2) ++ (0 : BitVec 8)) a b) rfl rfl hop (by decide) (raw_7F _ hop (bits_E_fl _ _ _ _ 0 5 (by decide))) fun hw => ?_
  simp [decOp7F, bits_E_eop, bits_E_a, bits_E_b, bits_E_fl, flag_E_eop, need, fD, fA, fB, fFn, fImm15, fImm20,
    fPg, fEa, fEb, vInt, vFlt, @BitVec.extractLsb'_append_eq_of_le 2 8, @BitVec.extractLsb'_append_eq_of_add_le 2
    8, @BitVec.getLsbD_append 2 8, -BitVec.getLsbD_eq_getElem]

theorem launch (q : Nat) : Statement (.launch q) := of_step rfl rfl

theorem semsig (q : Nat) : Statement (.semsig q) := of_step rfl rfl

theorem semwait (q : Nat) : Statement (.semwait q) := of_step rfl rfl

theorem semwaitConditionMet (q : Nat) : Statement (.semwaitConditionMet q) := of_step rfl rfl

theorem semtmo (q : Nat) : Statement (.semtmo q) := of_step rfl rfl

theorem qbarrier (q : Nat) : Statement (.qbarrier q) := of_step rfl rfl

theorem timestamp (q : Nat) : Statement (.timestamp q) := of_step rfl rfl

theorem jmark (q : Nat) : Statement (.jmark q) := of_step rfl rfl

theorem migrate (q : Nat) : Statement (.migrate q) := of_step rfl rfl

theorem partcfg (q : Nat) : Statement (.partcfg q) := of_step rfl rfl

theorem recordPickup (g : Nat) : Statement (.recordPickup g) := of_step rfl rfl

theorem spawnedContextStart (g : Nat) : Statement (.spawnedContextStart g) := of_step rfl rfl

theorem proofSeal (g : Nat) : Statement (.proofSeal g) := of_step rfl rfl

theorem strikeReport (core : Nat) : Statement (.strikeReport core) := of_step rfl rfl

theorem trapEntry (g : Nat) : Statement (.trapEntry g) := of_step rfl rfl

theorem preemptFreeze (g : Nat) : Statement (.preemptFreeze g) := of_step rfl rfl

theorem preemptSave (g : Nat) : Statement (.preemptSave g) := of_step rfl rfl

theorem contextResume (g : Nat) : Statement (.contextResume g) := of_step rfl rfl

theorem calends (k : Nat) : Statement (.calends k) := of_step rfl rfl

theorem kernelCompletion (k : Nat) : Statement (.kernelCompletion k) := of_step rfl rfl

theorem watchdogCheck : Statement .watchdogCheck := of_step rfl rfl

theorem watchdogDrain (p : Nat) : Statement (.watchdogDrain p) := of_step rfl rfl

theorem ageTick (c : Nat) : Statement (.ageTick c) := of_step rfl rfl

theorem ltsExpiry (c : Nat) : Statement (.ltsExpiry c) := of_step rfl rfl

theorem refreshServiceSlot (c : Nat) : Statement (.refreshServiceSlot c) := of_step rfl rfl

theorem matrixKstep (core bank : Nat) : Statement (.matrixKstep core bank) := of_step rfl rfl

theorem mretDrain (core bank : Nat) : Statement (.mretDrain core bank) := of_step rfl rfl

theorem gangCompletion (n : Nat) : Statement (.gangCompletion n) := of_step rfl rfl

theorem factorStop (n : Nat) : Statement (.factorStop n) := of_step rfl rfl

theorem copyCompletion (n : Nat) : Statement (.copyCompletion n) := of_step rfl rfl

theorem globalAccessCompletion (n : Nat) : Statement (.globalAccessCompletion n) := of_step rfl rfl

theorem collCompletion (n : Nat) (parts : List CollPart) : Statement (.collCompletion n parts) := of_step rfl rfl

theorem weightStreamTile (c : Nat) : Statement (.weightStreamTile c) := of_step rfl rfl

theorem streamPrefetch (g q : Nat) : Statement (.streamPrefetch g q) := of_step rfl rfl

theorem vigilCompletion (g : Nat) : Statement (.vigilCompletion g) := of_step rfl rfl

theorem vigilto (g : Nat) : Statement (.vigilto g) := of_step rfl rfl

theorem replaydiv (k : Nat) : Statement (.replaydiv k) := of_step rfl rfl

theorem pmigPageMigration (n : Nat) : Statement (.pmigPageMigration n) := of_step rfl rfl

theorem noleveRemoteAccess (src pa : Nat) (op : RemoteOp) : Statement (.noleveRemoteAccess src pa op) := of_step rfl rfl

theorem tlbShootdown (p : Nat) (range : Option (Nat × Nat)) : Statement (.tlbShootdown p range) := of_step rfl rfl

theorem doorbell (q : Nat) (tail : BitVec 32) : Statement (.doorbell q tail) := of_step rfl rfl

theorem queueConfigWrite (q : Nat) (cfg : Bool) (val : BitVec 64) (fw : Bool) : Statement (.queueConfigWrite q cfg val fw) := of_step rfl rfl

theorem qctlRestart (q : Nat) : Statement (.qctlRestart q) := of_step rfl rfl

theorem qctlPreempt (q : Nat) : Statement (.qctlPreempt q) := of_step rfl rfl

theorem replayLogReadPointer (q : Nat) (val : BitVec 32) : Statement (.replayLogReadPointer q val) := of_step rfl rfl

theorem jcfgWrite (val : BitVec 64) (fw : Bool) : Statement (.jcfgWrite val fw) := of_step rfl rfl

theorem fqptrWrite (val : BitVec 64) : Statement (.fqptrWrite val) := of_step rfl rfl

theorem dbgctlHalt (g : Nat) : Statement (.dbgctlHalt g) := of_step rfl rfl

theorem dbgctlStep (g : Nat) : Statement (.dbgctlStep g) := of_step rfl rfl

theorem debuggerStateWrite (g : Nat) (target : DbgTarget) : Statement (.debuggerStateWrite g target) := of_step rfl rfl

theorem debuggerRelease (g : Nat) : Statement (.debuggerRelease g) := of_step rfl rfl

theorem parcelBreakpoint (g : Nat) : Statement (.parcelBreakpoint g) := of_step rfl rfl

theorem mgmtRegisterWrite (off : Nat) (val : BitVec 64) (fw : Bool) : Statement (.mgmtRegisterWrite off val fw) := of_step rfl rfl

theorem hostWindowAccess (off : Nat) (op : HostOp) (fw : Bool) : Statement (.hostWindowAccess off op fw) := of_step rfl rfl

theorem channelRetirement (ch : Nat) : Statement (.channelRetirement ch) := of_step rfl rfl

theorem channelRetrain (ch : Nat) (ev : RetrainEvent) : Statement (.channelRetrain ch ev) := of_step rfl rfl

theorem rowActivation (bank row : Nat) : Statement (.rowActivation bank row) := of_step rfl rfl

theorem refreshWindow (bank : Nat) : Statement (.refreshWindow bank) := of_step rfl rfl

theorem coldStart (checks : BootChecks) : Statement (.coldStart checks) := of_step rfl rfl

theorem deviceReset : Statement .deviceReset := of_step rfl rfl

theorem standbyEntry : Statement .standbyEntry := of_step rfl rfl

theorem interfaceNegotiation (iface : Nat) (partner : List (Nat × Nat)) : Statement (.interfaceNegotiation iface partner) := of_step rfl rfl

theorem attestationQuote (nonce : BitVec 512) : Statement (.attestationQuote nonce) := of_step rfl rfl

theorem debugResume (g : Nat) : Statement (.debugResume g) := of_step rfl rfl

theorem lqryServed (n : Nat) : Statement (.lqryServed n) := of_step rfl rfl

theorem cappedStateChange (capped : Bool) : Statement (.cappedStateChange capped) := of_step rfl rfl

end Sys2Proof.Laws.RoundTrip
end

