-- ==== Sys2Proof/Safety.lean ====
section
/-!
DEFINITION. What a safe run is: every step answers a next state, and the memory keeps its canonical form.
-/

namespace Sys2Proof

open Sys2Proof.Machine

/-- The machine goes on for so many steps. -/
def goesOn : Nat → State → Prop
  | 0, _ => True
  | n + 1, s => ∃ t, step s = .next t ∧ goesOn n t

/-- The invariant of the states a run passes through: the memory stands in its canonical form. -/
def Inv (s : State) : Prop := s.mem.wf

/-- A run that never stops from a state: a safe run. -/
def Safe (s : State) : Prop := Inv s ∧ ∀ n, goesOn n s

end Sys2Proof
end

