-- ==== Sys2Proof/Certificates/Slice0/Obligations.lean ====
section
/-!
DEFINITION. The statements for the provers. Sys2Proof.Claims holds the words they are said in.
-/

namespace Sys2Proof.Claims

open Sys2Proof.Machine

/-! What the statements say, in the spec's own terms over the state. -/

/-- R7, R64: the slots S and T, which hold the scalar instructions. -/
def inSlotST (s : State) : Prop := s.slot = 1 ∨ s.slot = 2
/-- R64: the slots V and W, which hold the vector instructions. -/
def inSlotVW (s : State) : Prop := s.slot = 4 ∨ s.slot = 5

/-- R40, R42: a write that lands `lat` ticks after the bundle's own, of a mask of a register, with its issuing bundle. -/
def later (s : State) (lat : Nat) (file : RegFile) (num : Nat) (mask : PWord) (val : VWord) (poison : Option Word) :
    Pending where
  file := file
  num := num
  tick := s.me.arch.tick + lat
  slot := s.slot
  mask := mask
  val := val
  parcel := s.iss.parcel
  rep := s.iss.rep
  poison := poison
  issued := s.me.arch.tick

/-- The state with one more pending write of the context that executes, and nothing else changed. -/
def pending (s : State) (p : Pending) : State :=
  s.setCtx s.cur { s.me with arch := { s.me.arch with pend := s.me.arch.pend ++ [p] } }

/-- R41, R288: a scalar result that lands `lat` ticks on; of s0 nothing at all. -/
def writesS (s : State) (lat : Nat) (d : BitVec 5) (v : Word) : State :=
  if d = 0 then s else pending s (later s lat .scalar d.toNat fullScalar (v.zeroExtend 2048) none)

/-- R41: a predicate result on a mask of bits; of p0 nothing at all. -/
def writesP (s : State) (lat : Nat) (d : BitVec 3) (mask v : PWord) : State :=
  if d = 0 then s else pending s (later s lat .predicate d.toNat mask (v.zeroExtend 2048) none)

/-- R40, R51: a vector result on a mask of byte lanes. -/
def writesV (s : State) (lat : Nat) (d : BitVec 5) (mask : PWord) (v : VWord) : State :=
  pending s (later s lat .vector d.toNat mask v none)

/-- R56: sticky flags that are set `lat` ticks on; none for an empty set. -/
def setsFlags (s : State) (lat : Nat) (f : BitVec 4) : State :=
  if f = 0 then s else pending s (later s lat .flagSet 0x01E fullScalar (f.zeroExtend 2048) none)

/-- A scalar instruction of three registers completes in slots S and T with a function of its two sources. -/
def Scalar3 (mk : BitVec 5 → BitVec 5 → BitVec 5 → Instr) (lat : Nat) (f : Word → Word → Word) : Prop :=
  ∀ (d a b : BitVec 5) (s : State), inSlotST s → exec (mk d a b) s = .next (writesS s lat d (f (s.rs a) (s.rs b)))

/-- A scalar instruction with an immediate completes with a function of its source and the sign-extended immediate. -/
def ScalarImm (mk : BitVec 5 → BitVec 5 → BitVec 15 → Instr) (f : Word → Word → Word) : Prop :=
  ∀ (d a : BitVec 5) (k : BitVec 15) (s : State), inSlotST s →
    exec (mk d a k) s = .next (writesS s 1 d (f (s.rs a) (BitVec.ofInt 64 k.toInt)))

/-- A scalar shift by an immediate completes. -/
def ScalarShift (mk : BitVec 5 → BitVec 5 → BitVec 6 → Instr) (f : Word → Nat → Word) : Prop :=
  ∀ (d a : BitVec 5) (h : BitVec 6) (s : State), inSlotST s →
    exec (mk d a h) s = .next (writesS s 1 d (f (s.rs a) h.toNat))

/-- A scalar instruction of two registers completes with a function of its source. -/
def Scalar2 (mk : BitVec 5 → BitVec 5 → Instr) (lat : Nat) (f : State → Word → Word) : Prop :=
  ∀ (d a : BitVec 5) (s : State), inSlotST s → exec (mk d a) s = .next (writesS s lat d (f s (s.rs a)))

/-- R307: the FP32 value in bits [31:0] of a scalar. -/
def lowFV (x : Word) : FV := decodeF fp32 (x.toNat % 2 ^ 32)
/-- R307: a value rounded once to FP32 by FMT.RM, SR taken as RNE. -/
def codeF (s : State) (v : FV) : Word := BitVec.ofNat 64 (roundF fp32 s.scalarRnd v).bits
/-- R307: a scalar float instruction of three registers completes. -/
def Scalar3f (mk : BitVec 5 → BitVec 5 → BitVec 5 → Instr) (lat : Nat) (f : RMode → FV → FV → FV) : Prop :=
  ∀ (d a b : BitVec 5) (s : State), inSlotST s →
    exec (mk d a b) s = .next (writesS s lat d (codeF s (f s.scalarRnd.mode (lowFV (s.rs a)) (lowFV (s.rs b)))))

/-- R289: bits [5:0] of a shift count. -/
def count6 (y : Word) : Nat := y.toNat % 64

/-- R289: 1 if a condition holds, 0 otherwise. -/
def truth (c : Bool) : Word := if c then 1#64 else 0#64

/-- R71: a word that decodes to nothing raises ILLEGAL in its slot, with the word as the cause's detail. -/
def UndecodedIsIllegal : Prop :=
  ∀ (s : State) (k : Nat) (w : SlotWord), decodeWord w = none → s.runSlot k w = ({ s with slot := k } : State).raise
    ⟨0x01, w, s.iss.parcel, k, false, s.iss.rep, 0, false, s.me.arch.tick⟩

/-! Near store. -/

/-- R66: base plus signed offset in units of the size, modulo 2^32, aligned down to the size. -/
def nearEa (s : State) (base : BitVec 5) (off : BitVec 12) (z align : Nat) : Nat :=
  (((s.rs base).toNat + off.toInt * z) % 2 ^ 32).toNat / align * align
/-- R137, R139: the number that z bytes from an address hold for the context that executes. -/
def nearValue (s : State) (a z : Nat) : Nat := leNat ((List.range z).map fun i => s.nearByte s.cur (a + i))
/-- R137: every one of some addresses lies in the window of the context that executes. -/
def inside (s : State) (as : List Nat) : Prop := ∀ a ∈ as, s.me.splo.toNat ≤ a ∧ a ≤ s.me.sphi.toNat
/-- R193: the poison that a load of some addresses meets, by its granule. -/
def meets (s : State) (as : List Nat) : Option Word :=
  (s.nearPoison s.cur as).map fun b => BitVec.ofNat 64 (b / 64 * 64)
/-- R317: a load completes: the flags of R137 for bytes out of range, and the value, which lands at t + 3. -/
def Loads (mk : BitVec 5 → BitVec 5 → BitVec 12 → Instr) (z : Nat) (sgn : Bool) : Prop :=
  ∀ (t base : BitVec 5) (off : BitVec 12) (s : State), s.slot = 3 →
    let a := nearEa s base off z z
    let v := nearValue s a z
    let x : Word := if sgn ∧ 2 ^ (8 * z - 1) ≤ v then BitVec.ofInt 64 ((v : Int) - 2 ^ (8 * z)) else BitVec.ofNat 64 v
    exec (mk t base off) s = .next (pending (s.rangeFlags 3 (addrsFrom a z))
      (later s 3 .scalar t.toNat fullScalar (x.zeroExtend 2048) (meets s (addrsFrom a z))))

/-- R239: the store entries of the gated buffer of the context that executes. -/
def storeEntries (s : State) : Nat := (s.me.gated.filter fun e => e.item.isStore).length
/-- R239, R248: room for one more store: a handler's store is not gated. -/
def storeRoom (s : State) : Prop := s.me.intrap = true ∨ storeEntries s < 128
/-- R137, R139, R248: what a store of bytes at addresses comes to when there is room: the bytes in the window, as one
entry of the gated buffer in the context's newest segment, or in a handler as bytes that the bundle writes itself. -/
def stored (s : State) (cells : List (Nat × Byte)) : State :=
  let bytes := cells.filter fun p => s.me.splo.toNat ≤ p.1 ∧ p.1 ≤ s.me.sphi.toNat
  if s.me.intrap then
    { s with iss := { s.iss with direct := s.iss.direct ++ bytes } }
  else s.setCtx s.cur { s.me with gated := s.me.gated ++ [⟨s.me.serial, s.me.arch.tick, .store bytes⟩] }
/-- The low z bytes of a number at addresses from a. -/
def lowBytes (a z v : Nat) : List (Nat × Byte) := (List.range z).map fun i => (a + i, BitVec.ofNat 8 (v / 256 ^ i))
/-- R317: a store completes. -/
def Stores (mk : BitVec 5 → BitVec 5 → BitVec 12 → Instr) (z : Nat) : Prop :=
  ∀ (t base : BitVec 5) (off : BitVec 12) (s : State), s.slot = 3 → storeRoom s →
    let cells := lowBytes (nearEa s base off z z) z (s.rs t).toNat
    exec (mk t base off) s = .next (stored (s.rangeFlags 1 (cells.map Prod.fst)) cells)

/-- R52: no stream is bound to a vector register's name. -/
def plain (s : State) (r : BitVec 5) : Prop := s.me.arch.bound r.toNat = none
/-- R206: a near atomic may issue: in a handler, or with its bracketing proof sealed and no later proof unsealed but that of
a PROOF in its own bundle (log entry 54). -/
def bracketOpen (s : State) : Prop :=
  s.me.intrap = true ∨ (s.me.bracket = some .atomic
    ∧ (s.me.unsealed = [] ∨ (s.iss.opened = true ∧ s.me.nUnsealed = 1)))
/-- R327: a near atomic on an aligned address in the window and not poisoned completes: the old value lands at t + 4, and
the new one, if there is one, is written with the bundle. -/
def NearAtomic (mk : BitVec 5 → BitVec 5 → BitVec 5 → Bool → Instr) (f : Nat → Nat → Nat → Nat → Option Nat) : Prop :=
  ∀ (d a b : BitVec 5) (z8 : Bool) (s : State), s.slot = 3 → bracketOpen s →
    let z := if z8 then 8 else 4
    let ea := (s.rs a).toNat % 2 ^ 32
    ea % z = 0 → inside s (addrsFrom ea z) → meets s (addrsFrom ea z) = none →
    let old := nearValue s ea z
    let new := f (8 * z) old ((s.rs d).toNat % 2 ^ (8 * z)) ((s.rs b).toNat % 2 ^ (8 * z))
    let s1 : State := { s with iss := { s.iss with
      direct := s.iss.direct ++ ((new.map (lowBytes ea z)).getD [])
      atomic := true } }
    exec (mk d a b z8) s = .next
      (pending s1 (later s 4 .scalar d.toNat fullScalar ((BitVec.ofNat 64 old).zeroExtend 2048) none))
/-- R357: a vector load of a register that is no stream: lane j of each pair takes the byte at its address. -/
def vectorLoaded (s : State) (lat : Nat) (d : BitVec 5) (mask : PWord) (lanes : List (Nat × Nat)) : State :=
  let v := BitVec.ofNat 2048 ((lanes.map fun p => (s.nearByte s.cur p.2).toNat * 2 ^ (8 * p.1)).sum)
  pending (s.rangeFlags lat (lanes.map Prod.snd)) (later s lat .vector d.toNat mask v (meets s (lanes.map Prod.snd)))
/-- R357: byte j of element i at address (e + j) modulo 2^32, for elements at addresses e. -/
def elementLanes (z : Nat) (es : List Nat) : List (Nat × Nat) :=
  es.zipIdx.flatMap fun p => (List.range z).map fun j => (p.2 * z + j, (p.1 + j) % 2 ^ 32)
/-- R365: the element addresses of a strided access. -/
def stridedAt (s : State) (a b : BitVec 5) (w : EW) : List Nat :=
  (List.range w.count).map fun i => ((s.rs a).toNat + i * (s.rs b).toNat) % 2 ^ 32 / w.bytes * w.bytes
/-- R358: the element addresses of an indexed access by a vector register. -/
def indexedAt (s : State) (a b : BitVec 5) (w : EW) : List Nat :=
  (List.range w.count).map fun i =>
    ((s.rs a).toNat + lane w (s.me.arch.v b.toNat) i * w.bytes) % 2 ^ 32 / w.bytes * w.bytes
/-- R140: STKTOP of the context that executes set. -/
def setTop (s : State) (v : BitVec 32) : State :=
  s.setCtx s.cur { s.me with arch := { s.me.arch with stktop := v } }

/-! Vectors. -/

/-- R50: element i of a vector register. -/
def el (s : State) (w : EW) (r : BitVec 5) (i : Nat) : Nat := lane w (s.me.arch.v r.toNat) i
/-- R50: a vector whose elements are given, each modulo 2^w. -/
def HasLanes (w : EW) (v : VWord) (f : Nat → Nat) : Prop := ∀ i, i < w.count → lane w v i = f i % 2 ^ w.bits
/-- R50: the signed value of an element. -/
def sgn (w : EW) (x : Nat) : Int := if x < 2 ^ (w.bits - 1) then x else (x : Int) - 2 ^ w.bits
/-- R50: an integer in w bits, two's complement. -/
def code (w : EW) (x : Int) : Nat := (x % 2 ^ w.bits).toNat

/-- R51, R338: an instruction of two vector sources that are no streams completes element by element; an inactive element
keeps its bytes. -/
def Lanes2 (mk : BitVec 5 → BitVec 5 → BitVec 5 → BitVec 3 → EW → Instr) (lat : Nat) (f : EW → Nat → Nat → Nat) : Prop :=
  ∀ (d a b : BitVec 5) (pg : BitVec 3) (w : EW) (s : State), inSlotVW s → plain s d → plain s a → plain s b →
    ∃ r, HasLanes w r (fun i => f w (el s w a i) (el s w b i))
      ∧ exec (mk d a b pg w) s = .next (writesV s lat d (activeMask w (s.rp pg)) r)
/-- R51: an instruction of one vector source. -/
def Lanes1 (mk : BitVec 5 → BitVec 5 → BitVec 3 → EW → Instr) (lat : Nat) (f : EW → Nat → Nat) : Prop :=
  ∀ (d a : BitVec 5) (pg : BitVec 3) (w : EW) (s : State), inSlotVW s → plain s d → plain s a →
    ∃ r, HasLanes w r (fun i => f w (el s w a i))
      ∧ exec (mk d a pg w) s = .next (writesV s lat d (activeMask w (s.rp pg)) r)
/-- R366: an instruction of a vector and a scalar, whose low w bits are used. -/
def LanesX (mk : BitVec 5 → BitVec 5 → BitVec 5 → BitVec 3 → EW → Instr) (lat : Nat) (f : EW → Nat → Nat → Nat) : Prop :=
  ∀ (d a b : BitVec 5) (pg : BitVec 3) (w : EW) (s : State), inSlotVW s → plain s d → plain s a →
    ∃ r, HasLanes w r (fun i => f w (el s w a i) ((s.rs b).toNat % 2 ^ w.bits))
      ∧ exec (mk d a b pg w) s = .next (writesV s lat d (activeMask w (s.rp pg)) r)
/-- R51, R346: a compare sets every predicate bit of an active element to its truth. -/
def Compares (mk : BitVec 3 → BitVec 5 → BitVec 5 → BitVec 3 → EW → Instr) (f : State → EW → Nat → Nat → Prop) : Prop :=
  ∀ (d : BitVec 3) (a b : BitVec 5) (pg : BitVec 3) (w : EW) (s : State), inSlotVW s → plain s a → plain s b →
    ∃ r : PWord, (∀ j, j < 256 → (r.getLsbD j = true ↔ f s w (el s w a (j / w.bytes)) (el s w b (j / w.bytes))))
      ∧ exec (mk d a b pg w) s = .next (writesP s 2 d (activeMask w (s.rp pg)) r)
/-- R369: a reduction puts one element, with the rest of the register zero. -/
def Reduces (mk : BitVec 5 → BitVec 5 → BitVec 3 → EW → Instr) (f : EW → List Nat → Nat) : Prop :=
  ∀ (d a : BitVec 5) (pg : BitVec 3) (w : EW) (s : State), inSlotVW s → plain s d → plain s a →
    exec (mk d a pg w) s = .next (writesV s 6 d allLanes (BitVec.ofNat 2048
      (f w (((List.range w.count).filter fun i => (s.rp pg).getLsbD (w.bytes * i)).map (el s w a)) % 2 ^ w.bits)))

/-! Vector floats: the formats, roundings and conversions are those of Machine/Float.lean (R75 to R88). -/

/-- R84: the value of a source element under zi. -/
def fv (s : State) (w : EW) (zi : Bool) (x : Nat) : FV := decodeF (vecFmt w s.me.arch.fmt) (zinF (vecFmt w s.me.arch.fmt) zi x)
/-- R84: the code of a source element under zi. -/
def fc (s : State) (w : EW) (zi : Bool) (x : Nat) : Nat := zinF (vecFmt w s.me.arch.fmt) zi x
/-- R60, R85, R87: the rounding of element i: FMT.RM, saturating FP8 results if FMT.SATF, drawing under SR. -/
def elRnd (s : State) (w : EW) (i : Nat) : Rnd :=
  drawnRnd (fmtRm s.me.arch.fmt) (decide (w = .w8) && fmtSatf s.me.arch.fmt) s.me.arch.rngkey s.me.arch.rngctr w.bits i
/-- R88: RNGCTR advances by one if the rounding mode is SR. -/
def drawsBy (s : State) (m : RMode) : State :=
  if m = .sr then s.setCtx s.cur { s.me with arch := { s.me.arch with rngctr := s.me.arch.rngctr + 1 } } else s
/-- R88: the same by FMT.RM. -/
def draws (s : State) : State := drawsBy s (fmtRm s.me.arch.fmt)
/-- R88, R375: the rounding mode of an XCVT: its own or FMT.RM; a conversion to FP32 of a narrower float is exact and does
not draw. -/
def xcvtMode (s : State) (df sf : XFmt) (rm : XRm) : RMode :=
  let m := match rm with
    | .own m => m
    | .useFmt => fmtRm s.me.arch.fmt
  if m = .sr ∧ df = .f32 ∧ (sf = .e4m3 ∨ sf = .e5m2 ∨ sf = .fp16 ∨ sf = .bf16) then .rne else m
/-- R56, R84: results of a float instruction: subnormal ones flushed by zo with UFL, SATF of the active elements, and the
write. -/
def writesF (s : State) (lat : Nat) (d : BitVec 5) (pg : BitVec 3) (w : EW) (zo : Bool) (rs : Nat → Rounded) : State :=
  let f := vecFmt w s.me.arch.fmt
  let some_ (q : Rounded → Bool) : Bool := (List.range w.count).any fun i => (s.rp pg).getLsbD (w.bytes * i) && q (rs i)
  let out (r : Rounded) : Nat := if zo && r.sub then f.signed (f.neg r.bits) 0 else r.bits
  writesV (setsFlags s lat (flagsOf false (some_ Rounded.sat) false (some_ fun r => zo && r.sub))) lat d
    (activeMask w (s.rp pg)) (pack w ((List.range w.count).map fun i => out (rs i)))
/-- R353: a rounding instruction of two vector sources. -/
def Float2 (mk : BitVec 5 → BitVec 5 → BitVec 5 → BitVec 3 → EW → Bool → Bool → Instr) (op : RMode → FV → FV → FV) : Prop :=
  ∀ (d a b : BitVec 5) (pg : BitVec 3) (w : EW) (zi zo : Bool) (s : State), inSlotVW s → plain s d → plain s a → plain s b →
    exec (mk d a b pg w zi zo) s = .next (writesF (draws s) 4 d pg w zo fun i => roundF (vecFmt w s.me.arch.fmt) (elRnd s w i)
      (op (fmtRm s.me.arch.fmt) (fv s w zi (el s w a i)) (fv s w zi (el s w b i))))
/-- R353: an exact instruction on the codes of two vector sources. -/
def Code2 (mk : BitVec 5 → BitVec 5 → BitVec 5 → BitVec 3 → EW → Bool → Bool → Instr) (op : FFmt → Nat → Nat → Nat) : Prop :=
  ∀ (d a b : BitVec 5) (pg : BitVec 3) (w : EW) (zi zo : Bool) (s : State), inSlotVW s → plain s d → plain s a → plain s b →
    exec (mk d a b pg w zi zo) s = .next (writesF s 4 d pg w zo fun i => exactCode (vecFmt w s.me.arch.fmt)
      (op (vecFmt w s.me.arch.fmt) (fc s w zi (el s w a i)) (fc s w zi (el s w b i))))
/-- R353: a sign instruction. -/
def Code1 (mk : BitVec 5 → BitVec 5 → BitVec 3 → EW → Bool → Bool → Instr) (op : FFmt → Nat → Nat) : Prop :=
  ∀ (d a : BitVec 5) (pg : BitVec 3) (w : EW) (zi zo : Bool) (s : State), inSlotVW s → plain s d → plain s a →
    exec (mk d a pg w zi zo) s = .next (writesF s 4 d pg w zo fun i => exactCode (vecFmt w s.me.arch.fmt)
      (op (vecFmt w s.me.arch.fmt) (fc s w zi (el s w a i))))
/-- R355: a fused multiply-add or multiply-subtract, with one rounding. -/
def Fused (mk : BitVec 5 → BitVec 5 → BitVec 5 → BitVec 3 → EW → Bool → Bool → Instr) (sub : Bool) : Prop :=
  ∀ (d a b : BitVec 5) (pg : BitVec 3) (w : EW) (zi zo : Bool) (s : State), inSlotVW s → plain s d → plain s a → plain s b →
    exec (mk d a b pg w zi zo) s = .next (writesF (draws s) 4 d pg w zo fun i => roundF (vecFmt w s.me.arch.fmt) (elRnd s w i)
      (let p := mulFV (fv s w zi (el s w a i)) (fv s w zi (el s w b i))
       addFV (fmtRm s.me.arch.fmt) (fv s w zi (el s w d i)) (if sub then negFV p else p)))
/-- R354: a float compare. -/
def FloatCompares (mk : BitVec 3 → BitVec 5 → BitVec 5 → BitVec 3 → EW → Bool → Instr) (op : FV → FV → Bool) : Prop :=
  ∀ zi, Compares (fun d a b pg w => mk d a b pg w zi) fun s w x y => op (fv s w zi x) (fv s w zi y) = true
/-- R350: a special function, slot W. -/
def Specials (mk : BitVec 5 → BitVec 5 → BitVec 3 → EW → Bool → Bool → Instr) (fn : SpecFn) : Prop :=
  ∀ (d a : BitVec 5) (pg : BitVec 3) (w : EW) (zi zo : Bool) (s : State), s.slot = 5 → plain s d → plain s a →
    exec (mk d a pg w zi zo) s = .next (writesF s 8 d pg w zo fun i => roundSticky (vecFmt w s.me.arch.fmt)
      (vecRnd s.me.arch.fmt w) (special fn (fv s w zi (el s w a i))))
/-- R356: a maximum or minimum over the active elements, from the canonical NaN, which gives way to any number. -/
def FloatBest (mk : BitVec 5 → BitVec 5 → BitVec 3 → EW → Bool → Bool → Instr) (op : FFmt → Nat → Nat → Nat) : Prop :=
  ∀ (d a : BitVec 5) (pg : BitVec 3) (w : EW) (zi zo : Bool) (s : State), inSlotVW s → plain s d → plain s a →
    let f := vecFmt w s.me.arch.fmt
    let r := (((List.range w.count).filter fun i => (s.rp pg).getLsbD (w.bytes * i)).map fun i =>
      fc s w zi (el s w a i)).foldl (op f) f.nan
    exec (mk d a pg w zi zo) s = .next (writesV (setsFlags s 6 (if zo && f.isSub r then 1 else 0)) 6 d allLanes
      (BitVec.ofNat 2048 (if zo && f.isSub r then f.signed (f.neg r) 0 else r)))
/-- R348: the windowed sums of a VDOT or VDOTA: segment k of the elements, with element k of d as an FP32 addend for the
accumulating form. -/
def dotSums (s : State) (d a b : BitVec 5) (w : EW) (zi acc : Bool) : List WSum :=
  let len := min (8 * 2 ^ fld s.me.arch.fmt 20 18) w.count
  (List.range (w.count / len)).map fun k =>
    windowSum (((List.range len).map fun j => mulFV (fv s w zi (el s w a (k * len + j))) (fv s w zi (el s w b (k * len + j))))
      ++ if acc then [decodeF fp32 (zinF fp32 zi (lane .w32 (s.me.arch.v d.toNat) k))] else []) (awinBits (fld s.me.arch.fmt 16 14))
/-- R348: a dot product: FP32 sums from element 0, four predicate bits per sum for a lost term, and the flags. -/
def Dots (mk : BitVec 5 → BitVec 5 → BitVec 5 → BitVec 3 → EW → Bool → Bool → Instr) (acc : Bool) : Prop :=
  ∀ (d a b : BitVec 5) (pf : BitVec 3) (w : EW) (zi zo : Bool) (s : State), inSlotVW s → plain s d → plain s a → plain s b →
    let sums := dotSums s d a b w zi acc
    (fld s.me.arch.fmt 20 18 < 6 → exec (mk d a b pf w zi zo) s = .next (writesV (writesP (setsFlags s 6
      (flagsOf false false (sums.any WSum.lsf) (sums.any WSum.ufl))) 6 pf allLanes
        (BitVec.ofNat 256 (packNat 4 (sums.map fun r => if r.lsf then 15 else 0)))) 6 d allLanes
      (BitVec.ofNat 2048 (packNat 32 (sums.map WSum.bits)))))
    ∧ (6 ≤ fld s.me.arch.fmt 20 18 → exec (mk d a b pf w zi zo) s = .next s.illegal)
/-- R52: the vector registers that an instruction reads. -/
def vecSources : Instr → List (BitVec 5)
  | .vadd _ a b _ _ | .vsub _ a b _ _ | .vmul _ a b _ _ | .vmulh _ a b _ _ | .vmin _ a b _ _ | .vmax _ a b _ _
  | .vadds _ a b _ _ | .vand _ a b _ _ | .vor _ a b _ _ | .vxor _ a b _ _ | .vandn _ a b _ _ | .vshl _ a b _ _
  | .vshr _ a b _ _ | .vsra _ a b _ _ | .vrotl _ a b _ _ | .vceq _ a b _ _ | .vcne _ a b _ _ | .vclt _ a b _ _
  | .vcle _ a b _ _ | .vcltu _ a b _ _ | .vcleu _ a b _ _ | .vsel _ a b _ _ | .vperm _ a b _ _ | .vfadd _ a b _ _ _ _
  | .vfsub _ a b _ _ _ _ | .vfmul _ a b _ _ _ _ | .vfmin _ a b _ _ _ _ | .vfmax _ a b _ _ _ _ | .vfcps _ a b _ _ _ _
  | .vfeq _ a b _ _ _ | .vfne _ a b _ _ _ | .vflt _ a b _ _ _ | .vfle _ a b _ _ _ | .vfun _ a b _ _ _
  | .vdot _ a b _ _ _ _ | .vbnet _ a b _ | .vscat a _ b _ => [a, b]
  | .vfma d a b _ _ _ _ | .vfms d a b _ _ _ _ | .vdota d a b _ _ _ _ => [d, a, b]
  | .vaddx _ a _ _ _ | .vsubx _ a _ _ _ | .vmulx _ a _ _ _ | .vshlx _ a _ _ _ | .vshrx _ a _ _ _ | .vsrax _ a _ _ _
  | .vminx _ a _ _ _ | .vmaxx _ a _ _ _ | .vrot _ a _ _ _ | .vextr _ a _ _ | .vabs _ a _ _ | .vmov _ a _ _
  | .vpopc _ a _ _ | .vclz _ a _ _ | .vrev _ a _ _ | .vrsum _ a _ _ | .vrmax _ a _ _ | .vrmin _ a _ _
  | .vfabs _ a _ _ _ _ | .vfneg _ a _ _ _ _ | .vfrsum _ a _ _ _ _ | .vfrmax _ a _ _ _ _ | .vfrmin _ a _ _ _ _
  | .vrcp _ a _ _ _ _ | .vrsq _ a _ _ _ _ | .vsqrt _ a _ _ _ _ | .vexp2 _ a _ _ _ _ | .vlog2 _ a _ _ _ _
  | .vtanh _ a _ _ _ _ | .vsinpi _ a _ _ _ _ | .verf _ a _ _ _ _ | .xcvt _ a _ _ _ _ _ | .xexp _ a _ _ | .xpack _ a _ _
  | .xtrn _ a _ | .xscl _ a _ | .xqnt _ a _ | .vst a _ _ _ | .vsts a _ _ _ | .vgath _ _ a _ | .vspill a => [a]
  | _ => []
/-- R52: the vector register that an instruction writes. -/
def vecDest : Instr → Option (BitVec 5)
  | .vadd d _ _ _ _ | .vsub d _ _ _ _ | .vmul d _ _ _ _ | .vmulh d _ _ _ _ | .vmin d _ _ _ _ | .vmax d _ _ _ _
  | .vadds d _ _ _ _ | .vand d _ _ _ _ | .vor d _ _ _ _ | .vxor d _ _ _ _ | .vandn d _ _ _ _ | .vshl d _ _ _ _
  | .vshr d _ _ _ _ | .vsra d _ _ _ _ | .vrotl d _ _ _ _ | .vsel d _ _ _ _ | .vperm d _ _ _ _ | .vfadd d _ _ _ _ _ _
  | .vfsub d _ _ _ _ _ _ | .vfmul d _ _ _ _ _ _ | .vfmin d _ _ _ _ _ _ | .vfmax d _ _ _ _ _ _ | .vfcps d _ _ _ _ _ _
  | .vdot d _ _ _ _ _ _ | .vbnet d _ _ _ | .vfma d _ _ _ _ _ _ | .vfms d _ _ _ _ _ _ | .vdota d _ _ _ _ _ _
  | .vaddx d _ _ _ _ | .vsubx d _ _ _ _ | .vmulx d _ _ _ _ | .vshlx d _ _ _ _ | .vshrx d _ _ _ _ | .vsrax d _ _ _ _
  | .vminx d _ _ _ _ | .vmaxx d _ _ _ _ | .vrot d _ _ _ _ | .vabs d _ _ _ | .vmov d _ _ _ | .vbcast d _ _ _
  | .vins d _ _ _ | .viota d _ _ | .vpopc d _ _ _ | .vclz d _ _ _ | .vrev d _ _ _ | .vrsum d _ _ _ | .vrmax d _ _ _
  | .vrmin d _ _ _ | .vfabs d _ _ _ _ _ | .vfneg d _ _ _ _ _ | .vfrsum d _ _ _ _ _ | .vfrmax d _ _ _ _ _
  | .vfrmin d _ _ _ _ _ | .vrcp d _ _ _ _ _ | .vrsq d _ _ _ _ _ | .vsqrt d _ _ _ _ _ | .vexp2 d _ _ _ _ _
  | .vlog2 d _ _ _ _ _ | .vtanh d _ _ _ _ _ | .vsinpi d _ _ _ _ _ | .verf d _ _ _ _ _ | .xcvt d _ _ _ _ _ _ | .xexp d _ _ _
  | .xpack d _ _ _ | .xtrn d _ _ | .xscl d _ _ | .xqnt d _ _ | .vld d _ _ _ | .vlds d _ _ _ | .vgath d _ _ _
  | .vfill d => some d
  | _ => none
/-- R12, R196, R248: a unit that a handler pushes: it lands later in the cycle, and what the context has in the gated buffer writes
its bytes no more. -/
def pushesLate (s : State) (q : Nat) (st : Stream) (v : VWord) : State :=
  let less (i : GatedItem) : GatedItem := match i with
    | .push p unit desc data gone => .push p unit desc data (gone ++ streamUnit st.desc st.pos)
    | i => i
  ({ s with late := s.late ++ [(s.cur, .push q st.pos st.desc v [])] } : State).setCtx s.cur
    { s.me with gated := s.me.gated.map fun e => { e with item := less e.item } }
/-- R52: the state in which the name of stream q is an ordinary register that holds v. -/
def registered (s : State) (q : Nat) (v : VWord) : State := s.setCtx s.cur { s.me with arch := { s.me.arch with
  streams := AMap.del s.me.arch.streams q
  vreg := AMap.put s.me.arch.vreg (24 + q) v } }
/-- R52: two states that differ in the context that executes and in the bundle's record alone. -/
def apart (t u : State) : Prop :=
  u.mem = t.mem ∧ u.poison = t.poison ∧ u.flawed = t.flawed ∧ u.deferred = t.deferred ∧ (∀ g, g ≠ t.cur → u.ctx g = t.ctx g)
    ∧ u.cores = t.cores ∧ u.cmds = t.cmds ∧ u.ce = t.ce ∧ u.edge = t.edge ∧ u.cur = t.cur ∧ u.slot = t.slot
    ∧ u.late = t.late ∧ u.choice = t.choice

/-! Control. -/

/-- R45: the transfer that a slot-C word decides for its bundle. -/
def goesTo (s : State) (dst : BitVec 32) : State := { s with iss := { s.iss with target := some dst } }
/-- R291: a branch completes, taken or not. -/
def Branches (mk : BitVec 5 → BitVec 5 → BitVec 15 → Instr) (c : Word → Word → Prop) : Prop :=
  ∀ (a b : BitVec 5) (off : BitVec 15) (s : State), s.slot = 0 →
    (c (s.rs a) (s.rs b) → exec (mk a b off) s = .next (goesTo s (BitVec.ofInt 32 (s.iss.parcel.toNat + off.toInt))))
    ∧ (¬c (s.rs a) (s.rs b) → exec (mk a b off) s = .next s)
/-- R239: the command entries of the gated buffer of the context that executes. -/
def commandEntries (s : State) : Nat := (s.me.gated.filter fun e => e.item.isCommand).length
/-- R239: room for one more command of a context that is in no handler. -/
def commandRoom (s : State) : Prop := s.me.intrap = false ∧ commandEntries s < 32
/-- R239: a command held in the gated buffer, in the context's newest segment, for the agent that issues it. -/
def held (s : State) (op : CmdOp) : State :=
  s.setCtx s.cur { s.me with gated := s.me.gated ++ [⟨s.me.serial, s.me.arch.tick, .cmd op s.issuer⟩] }
/-- R22: SPAWN's target context: context k of the issuer's cluster. -/
def spawnTarget (s : State) (k : BitVec 3) : Nat := s.cur / 8 * 8 + k.toNat
/-- R251: a cause that is taken at the boundary after the bundle. -/
def takesAfter (s : State) (code : Nat) (detail : Nat) : State :=
  { s with iss := { s.iss with
    after := some ⟨code, BitVec.ofNat 32 detail, s.iss.parcel, s.slot, false, s.iss.rep, 0, false, s.me.arch.tick⟩ } }

/-! Engine commands. -/

/-- R162, R164: 64 bytes of near store at an address, as the context that executes sees them. -/
def packetAt (s : State) (r : BitVec 5) : BitVec 512 := BitVec.ofNat 512 (nearValue s ((s.rs r).toNat % 2 ^ 32) 64)
/-- R162: n bytes at the address a register names are aligned and lie in the window. -/
def blockAt (s : State) (r : BitVec 5) (align n : Nat) : Prop :=
  (s.rs r).toNat % 2 ^ 32 % align = 0 ∧ s.me.splo.toNat ≤ (s.rs r).toNat % 2 ^ 32
    ∧ (s.rs r).toNat % 2 ^ 32 ≤ s.me.sphi.toNat ∧ s.me.splo.toNat ≤ (s.rs r).toNat % 2 ^ 32 + n - 1
    ∧ (s.rs r).toNat % 2 ^ 32 + n - 1 ≤ s.me.sphi.toNat
/-- The low 32 bits of a register. -/
def low32 (s : State) (r : BitVec 5) : BitVec 32 := BitVec.ofNat 32 (s.rs r).toNat
/-- R106: the state with the chain that the context that executes holds on a bank. -/
def chained (s : State) (bank : Nat) (c : Chain) : State :=
  s.setCtx s.cur { s.me with arch := { s.me.arch with chains := AMap.put s.me.arch.chains bank c } }
/-- R324, R326: the same, with the bank of the core taking a kind: its latest mark is of the segment that executes, or of no
segment in a handler, and the marks below the latest that stands are gone. -/
def kinded (s : State) (bank : Nat) (isInt : Bool) (c : Chain) : State := chained (s.modCore (coreOf s.cur) fun k =>
  { k with kinds := AMap.put k.kinds bank (trimKinds
    (⟨if s.me.intrap then none else some (s.cur, s.me.gen, s.me.serial), isInt⟩ :: AMap.get [] k.kinds bank)) }) bank c
/-- R324: the kind of the chain last opened on a bank of a core; that of floats until one is. -/
def kindAt (s : State) (core bank : Nat) : Bool := match AMap.get [] (s.core core).kinds bank with
  | [] => false
  | m :: _ => m.isInt
/-- R324: the same, on a bank of the core that executes. -/
def kindOf (s : State) (bank : Nat) : Bool := kindAt s (coreOf s.cur) bank
/-- R313: a direct global access of a context that may use it is held with its descriptor. -/
def Directs (mk : DOrder → Scope → Bool → BitVec 5 → BitVec 5 → Instr) (fn : Nat) : Prop :=
  ∀ (order : DOrder) (scope : Scope) (z : Bool) (a b : BitVec 5) (s : State), s.slot = 7 → commandRoom s →
    (mk order scope z a b).wf = true → blockAt s a 8 24 →
    let d : BitVec 256 := BitVec.ofNat 256 (nearValue s ((s.rs a).toNat % 2 ^ 32) 24)
    pairOk (u64At d 16) = true → (2 ≤ fn → s.isPhased s.cur = false) →
    exec (mk order scope z a b) s = .next (held s (.dpath fn order scope z d (low32 s a) (s.rs b)))
/-- R105, R106: the product a context would issue is legal: count, rings, formats, geometry, bank and tiles. -/
def productLegal (s : State) (j : MatJob) : Prop :=
  1 ≤ j.count ∧ j.count ≤ 65535 ∧ fmtPairOk j.fmt = true ∧ s.bankOk s.cur j.bank = true
/-- R112, R117: the chain of the context on the product's bank takes it: its kind fits, the depth stays within MLIM, and no
preemption asks the context to open no chain. -/
def chainTakes (s : State) (j : MatJob) : Prop :=
  let ch := s.me.chain j.bank
  let opens := j.clr = true ∨ ch.isOpen = false
  (¬opens → kindOf s j.bank = decide (fld j.fmt 3 0 = 5))
    ∧ (if j.clr ∨ ch.isOpen = false then 0 else ch.depth) + j.count * j.depthK ≤ fld s.me.arch.mlim 31 0
    ∧ (s.me.preq = false ∨ s.me.anyChain = true)
/-- R112: the context of a core that owns a bank has an open chain there of another kind than the product's. -/
def kindClashes (s : State) (core bank : Nat) (j : MatJob) : Prop :=
  (∃ c, AMap.find (s.ctx (2 * core + bank)).arch.chains bank = some c ∧ c.isOpen = true)
    ∧ kindAt s core bank ≠ decide (fld j.fmt 3 0 = 5)
/-- R106: the chain after the product. -/
def chainAfter (s : State) (j : MatJob) : Chain where
  isOpen := true
  depth := (if j.clr ∨ (s.me.chain j.bank).isOpen = false then 0 else (s.me.chain j.bank).depth) + j.count * j.depthK
/-- R105: the product is of integers. -/
def intProduct (j : MatJob) : Bool := decide (fld j.fmt 3 0 = 5)

/-! The machine. -/

/-- R64: the slots that an instruction may stand in; the words that R71 makes ILLEGAL and NOP may stand in any. -/
def mayStand : Instr → List Nat
  | .nop | .illegalWord _ => [0, 1, 2, 3, 4, 5, 6, 7]
  | i => match ((encodeWord i).extractLsb' 25 7 : BitVec 7).toNat with
    | 0x35 | 0x36 => [5]
    | m => if m ≤ 0x10 then [1, 2] else if m ≤ 0x21 then [3] else if m ≤ 0x38 then [4, 5] else if m ≤ 0x44 then [6]
      else if m ≤ 0x68 then [0] else [7]

/-- Two states agree on everything a register-only instruction leaves alone: the memory and its poison, every other
context, the cores, clusters, copy units, commands, the command engine, the edges, the inbox and the time. -/
def sameOutside (s t : State) : Prop :=
  t.mem = s.mem ∧ t.poison = s.poison ∧ t.flawed = s.flawed ∧ t.deferred = s.deferred ∧ t.turn = s.turn ∧ t.busy = s.busy
    ∧ t.late = s.late ∧ (∀ g, g ≠ s.cur → t.ctx g = s.ctx g) ∧ t.cores = s.cores
    ∧ t.clusters = s.clusters ∧ t.units = s.units ∧ t.cmds = s.cmds ∧ t.nextCmd = s.nextCmd ∧ t.ce = s.ce
    ∧ t.edge = s.edge ∧ t.inbox = s.inbox ∧ t.cycle = s.cycle ∧ t.cur = s.cur

/-- Of the machine, nothing but the context that executes and the record of its bundle may have changed. -/
def onlyMine (s t : State) : Prop := sameOutside s t ∧ t.slot = s.slot ∧ t.choice = s.choice
/-- R41: a pending write of a bundle lands in a later tick, in FLAGS or in a register that its instruction names as its
destination. -/
def lands (s : State) (i : Instr) (p : Pending) : Prop :=
  let field := fun (b : Nat) => ((encodeWord i).extractLsb' b 5 : BitVec 5).toNat
  s.me.arch.tick < p.tick ∧ (p.file = .flagSet ∨ (p.file = .vector ∧ p.num = field 20)
    ∨ (p.file = .predicate ∧ p.num ≠ 0 ∧ (p.num = field 20 ∨ (∃ d a b pf w zi zo,
      (i = .vdot d a b pf w zi zo ∨ i = .vdota d a b pf w zi zo) ∧ p.num = pf.toNat)))
    ∨ (p.file = .scalar ∧ (p.num = field 20 ∨ ∃ d a b, i = .xqnt d a b ∧ p.num = b.toNat)))

/-- R54, R248: a context whose TSTK a trap can use: 256-byte aligned, with 16 bytes in its window. -/
def goodTstk (c : Ctx) : Prop :=
  c.arch.tstk.toNat % 256 = 0 ∧ c.splo.toNat ≤ c.arch.tstk.toNat ∧ c.arch.tstk.toNat + 15 ≤ c.sphi.toNat
/-- The key of a near-store byte of a context's core. -/
def tstkKey (c : Ctx) (g : Nat) : Nat := nearKey (coreOf g) c.arch.tstk.toNat
/-- R55, R248: what trap entry puts into the trap registers of a context, for a cause taken at a parcel address. -/
def trapRegisters (c : Cause) (pc : BitVec 32) (d : Ctx) : Prop :=
  d.trapCause.toNat = (c.code + if c.code = 0x21 then 0x8000 else 0) % 2 ^ 32 + c.detail.toNat * 2 ^ 32
    ∧ d.trappc = pc ∧ d.fbndl = c.bndl ∧ d.faddr = c.faddr ∧ d.intrap = true
    ∧ d.fslot.toNat = c.rep % 64 * 256 + (if c.fetch then 128 else 0) + c.slot % 8
/-- R231: the next journal entry: nothing but the number of the entry while the journal is off. -/
def journalOff (s : State) : Prop := fld s.ce.jcfg 4 0 = 0
/-- R193, R248: what the entry into a handler leaves, of a context x as the fate of its cause has left it (its memory being that
of s): the handler at TVEC with s31 at TSTK, both with the CWRs that land by then; the old s30 and s31 at TSTK; no loop,
repetition or block; every other register, every other byte of memory and the gated entries but for those 16 bytes stay. Where
their granule is poisoned, the journal may name it outside scratch memory. -/
def entered (s t : State) (g : Nat) (x : Ctx) : Prop :=
  let u := x.land
  (t.ctx g).arch.pc = u.arch.tvec ∧ (t.ctx g).arch.s 31 = BitVec.ofNat 64 u.arch.tstk.toNat
    ∧ (∀ r, r ≠ 31 → (t.ctx g).arch.s r = x.arch.s r)
    ∧ (t.ctx g).arch.loops = [] ∧ (t.ctx g).arch.printRep = 0 ∧ (t.ctx g).arch.crc = none
    ∧ (t.ctx g).arch.vreg = x.arch.vreg ∧ (t.ctx g).arch.preg = x.arch.preg
    ∧ (t.ctx g).arch.flags = x.arch.flags ∧ (t.ctx g).arch.fmt = x.arch.fmt ∧ (t.ctx g).arch.tick = x.arch.tick
    ∧ (t.ctx g).gated = (x.overwrite ((List.range 16).map fun i => u.arch.tstk.toNat + i)).gated
    ∧ (s.late = [] → t.late = [])
    ∧ (let quiet := journalOff s ∨ s.poison.contains (tstkKey u g / 64) = false
      (quiet ∨ tstkKey u g + 16 ≤ 0x10000000 →
        (∀ i, i < 8 → t.mem.read (tstkKey u g + i) = (x.arch.s 30).extractLsb' (8 * i) 8)
        ∧ ∀ i, i < 8 → t.mem.read (tstkKey u g + 8 + i) = (x.arch.s 31).extractLsb' (8 * i) 8)
      ∧ ∀ a, ¬(tstkKey u g ≤ a ∧ a < tstkKey u g + 16) → quiet ∨ a < 0x10000000 → t.mem.read a = s.mem.read a)

/-- R239: an instruction's own effect at the fetch position of the context whose turn it is, when nothing else is due: no
step that is owed, nothing from outside, no step of the device enabled, and nothing at the context's boundary. -/
def reaches (s : State) (i : Instr) : Prop :=
  s.dueStep = none ∧ s.inboxDue = none ∧ s.turn < 96 ∧ s.options = [] ∧ s.issues s.turnContext = true
    ∧ s.atTurn.boundary s.turnContext = none ∧ s.atTurn.fetch = .instr i

/-- R11, R257: the context that a step fetches for: the one whose turn it is, or the one that a debugger, by the first entry of
the inbox, has go on for one bundle. -/
def fetches (s : State) (g : Nat) : Prop :=
  ((s.midPair = true ∨ (s.dueStep = none ∧ s.inboxDue = none)) ∧ s.turn < 96 ∧ g = s.turnContext ∧ s.issues g = true)
    ∨ (s.midPair = false ∧ s.dueStep = none ∧ s.inboxDue = some (.dbgctlStep g) ∧ s.hostOpen = true ∧ (s.ctx g).state = .frozen ∧ (s.ctx g).freeze = some .debug)

/-- R317, R311, R364, R365: the forms of slot M that store. -/
def storesNear : Instr → Bool
  | .stb _ _ _ | .sth _ _ _ | .stw _ _ _ | .std _ _ _ | .spill _ | .vspill _ | .vst _ _ _ _ | .vsts _ _ _ _
  | .vscat _ _ _ _ => true
  | _ => false
/-- R311, R317, R357, R358, R364, R365: the bytes that a storing form of slot M stores, in the window or not, each at the address
that its base, offset, stride, index or STKTOP gives. -/
def postedCells (s : State) : Instr → List (Nat × Byte)
  | .stb t base off => lowBytes (nearEa s base off 1 1) 1 (s.rs t).toNat
  | .sth t base off => lowBytes (nearEa s base off 2 2) 2 (s.rs t).toNat
  | .stw t base off => lowBytes (nearEa s base off 4 4) 4 (s.rs t).toNat
  | .std t base off => lowBytes (nearEa s base off 8 8) 8 (s.rs t).toNat
  | .spill d => (lowBytes (s.me.arch.stktop.toNat / 8 * 8) 8 (s.rs d).toNat).map fun p => (p.1 % 2 ^ 32, p.2)
  | .vspill d => (lowBytes (s.me.arch.stktop.toNat / 4 * 4) 256 (s.me.arch.v d.toNat).toNat).map fun p => (p.1 % 2 ^ 32, p.2)
  | .vst t base pg off => ((List.range 256).filter fun j => (s.rp pg).getLsbD j).map fun j =>
    ((nearEa s base off 256 4 + j) % 2 ^ 32, (s.me.arch.v t.toNat).extractLsb' (8 * j) 8)
  | .vsts d a b w => scatterBytes (s.me.arch.v d.toNat) (elementLanes w.bytes (stridedAt s a b w))
  | .vscat d a b w => scatterBytes (s.me.arch.v d.toNat) (elementLanes w.bytes (indexedAt s a b w))
  | _ => []
/-- R206, R327: the bytes that a near atomic at a[31:0] leaves for its bundle to write, of the new value if there is one;
none where its bytes are not in the window, or poisoned. -/
def atomicCells (s : State) (a : BitVec 5) (z8 : Bool) (new : Nat → Option Nat) : List (Nat × Byte) :=
  let z := if z8 then 8 else 4
  let ea := (s.rs a).toNat % 2 ^ 32
  let as := addrsFrom ea z
  if (as.all fun x => decide (s.me.splo.toNat ≤ x ∧ x ≤ s.me.sphi.toNat)) && (meets s as).isNone then
    ((new (nearValue s ea z)).map (lowBytes ea z)).getD []
  else []
/-- R327: the same of an instruction of slot M; the others leave none. -/
def directCells (s : State) : Instr → List (Nat × Byte)
  | .naadd _ a b z8 =>
    let w := if z8 then 64 else 32
    atomicCells s a z8 fun old => some ((old + (s.rs b).toNat % 2 ^ w) % 2 ^ w)
  | .nacas d a b z8 =>
    let w := if z8 then 64 else 32
    atomicCells s a z8 fun old => if old = (s.rs d).toNat % 2 ^ w then some ((s.rs b).toNat % 2 ^ w) else none
  | .naxch _ a b z8 => atomicCells s a z8 fun _ => some ((s.rs b).toNat % 2 ^ (if z8 then 64 else 32))
  | _ => []
/-- R311: the forms that move STKTOP. -/
def stackForm : Instr → Bool
  | .spill _ | .fill _ | .vspill _ | .vfill _ => true
  | _ => false
/-- R327: the near atomics. -/
def nearAtomicForm : Instr → Bool
  | .naadd _ _ _ _ | .nacas _ _ _ _ | .naxch _ _ _ _ => true
  | _ => false
/-- R106, R107, R110, R114: the commands that keep the book of a chain. -/
def chainForm : Instr → Bool
  | .mma _ _ _ _ _ | .mzero _ | .mret _ _ _ _ _ | .mgang _ _ _ _ _ => true
  | _ => false

/-! The edges of the device. -/

/-- R231: where the next journal entry stands: entry n at place (n - 1) modulo the ring of 2^j entries (log entry 77). -/
def journalSlot (s : State) : Nat :=
  physKey (fld s.ce.jcfg 51 12 * 4096 + (s.ce.jseq - 1) % 2 ^ fld s.ce.jcfg 4 0 * 64)
/-- R231, R267: entries are written: a ring of 2^8 to 2^20 of them in installed frames, over an open interface. -/
def journalOn (s : State) : Prop :=
  8 ≤ fld s.ce.jcfg 4 0 ∧ fld s.ce.jcfg 4 0 ≤ 20 ∧ s.edge.closed .journal = false
    ∧ fld s.ce.jcfg 51 12 * 4096 + 64 * 2 ^ fld s.ce.jcfg 4 0 ≤ s.edge.frames * 0x200000
/-- R231: the state with the next number of the journal's. -/
def numbered (s : State) : State := { s with ce := { s.ce with jseq := s.ce.jseq + 1 } }

/-- R191, R192: the state with a channel's entry changed. -/
def withChannel (s : State) (ch : Nat) (c : Channel) : State :=
  { s with edge := { s.edge with channels := AMap.put s.edge.channels ch c } }
/-- R257: the state in which a debug step of a context begins: running for one bundle, and with ATTACH each engine of the
core free for one step. -/
def stepping (s : State) (g : Nat) : State :=
  let s0 := if (s.ctx g).attach then s.modCore (coreOf g) fun k => { k with pace := [0, 1, 2] } else s
  s0.setCtx g { s.ctx g with state := .running, freeze := none, step := true }

/-! The device's own events. -/

/-- R216 to R218, R222: the command w stands at the head of a queue that is read, in sequence, with no other command of the
queue accepted or started, and journaling is off. -/
def atHead (s : State) (q : Nat) (w : BitVec 512) : Prop :=
  s.readable q = true ∧ (s.queue q).accepted = none ∧ (s.queue q).started = [] ∧ (s.queue q).head ≠ (s.queue q).tail
    ∧ s.headCommand q = some w ∧ cmdMalformed w = false
    ∧ ((s.queue q).expect = none ∨ (s.queue q).expect = some (u32At w 4)) ∧ journalOff s
/-- R217, R222: the queue's head has passed the command, no command is accepted, and the next sequence number is expected. -/
def passed (s t : State) (q : Nat) (w : BitVec 512) : Prop :=
  (t.queue q).head = (s.queue q).head + 1 ∧ (t.queue q).accepted = none ∧ (t.queue q).expect = some (u32At w 4 + 1)
/-- R222: the command has completed. -/
def completed (s t : State) (q : Nat) (w : BitVec 512) : Prop :=
  passed s t q w ∧ (t.queue q).started = [] ∧ (t.queue q).running = true
/-- R217: the command has ended faulted: its queue is stopped, and no byte of memory has changed. -/
def endedFaulted (s t : State) (q : Nat) : Prop :=
  (t.queue q).head = (s.queue q).head + 1 ∧ (t.queue q).started = [] ∧ (t.queue q).accepted = none
    ∧ (t.queue q).running = false ∧ (t.queue q).faulted = true ∧ t.mem = s.mem
/-- Everything of the machine but the command engine, and of that everything but the queues and the journal's count. -/
def onlyQueues (s t : State) : Prop :=
  t.mem = s.mem ∧ t.poison = s.poison ∧ t.ctxs = s.ctxs ∧ t.cores = s.cores ∧ t.clusters = s.clusters ∧ t.units = s.units
    ∧ t.cmds = s.cmds ∧ t.edge = s.edge ∧ t.ce.parts = s.ce.parts ∧ t.ce.kernels = s.ce.kernels ∧ t.ce.pool = s.ce.pool
    ∧ t.ce.saved = s.ce.saved ∧ t.ce.jcfg = s.ce.jcfg
/-- The word of memory that a queue command names. -/
def semWord (s : State) (w : BitVec 512) : Nat := readNat s.mem (physKey (u64At w 8).toNat) 8
/-- R221: an aligned word of installed memory that no poisoned granule holds. -/
def goodWord (s : State) (w : BitVec 512) : Prop :=
  s.wordOk (u64At w 8).toNat = true ∧ s.poisonedRange (physKey (u64At w 8).toNat) 8 = false
/-- Every byte but the eight of a queue command's word is as before. -/
def onlyWord (s t : State) (w : BitVec 512) : Prop :=
  ∀ k, ¬(physKey (u64At w 8).toNat ≤ k ∧ k < physKey (u64At w 8).toNat + 8) → t.mem.read k = s.mem.read k
/-- Every byte but n at a physical address is as before. -/
def onlyPhys (s t : State) (pa n : Nat) : Prop :=
  ∀ k, ¬(physKey pa ≤ k ∧ k < physKey pa + n) → t.mem.read k = s.mem.read k
/-- R262, R266, R267: a device of the domain whose remote accesses this one takes. -/
def linked (s : State) (src : Nat) : Prop := src ∈ s.edge.domain ∧ s.edge.closed .link = false ∧ s.edge.locked = false
/-- R262: the state with an answer sent to a device, about an address. -/
def answered (s : State) (src pa : Nat) (bytes : List Byte) (bad : NSet) : State :=
  { s with edge := { s.edge with link := s.edge.link ++ [⟨src, pa, .answer bytes bad⟩] } }
/-- No command of this number is in flight. -/
def gone (t : State) (n : Nat) : Prop := ∀ d ∈ t.cmds, d.id ≠ n
/-- R196: command n is c, in flight, and waits for no other command. -/
def inFlight (s : State) (n : Nat) (c : Cmd) : Prop := (s.cmds.find? fun d => d.id == n) = some c ∧ s.ready c = true
/-- R111, R166: the completion word of a pair whose address lies in near store: four bytes with the status in bits [31:28]
and the pair's sequence in bits [27:0]. -/
def wordAt (t : State) (g : Nat) (pair : Word) (status : Nat) : Prop :=
  readNat t.mem (nearKey (coreOf g) (fld pair 31 0)) 4 = (status * 2 ^ 28 + fld pair 59 32) % 2 ^ 32
/-- R111: the pair names near store of the issuer's core. -/
def nearPair (pair : Word) : Prop := fld pair 31 0 % 4 = 0 ∧ fld pair 31 0 < 0x80000
/-- R247, R251, R257: the cause e of an engine, or of a TRAP or BKPT that has waited, is taken; those of l stay pending. -/
def takesNext (s : State) (g : Nat) (e : Cause) (l : List Cause) : State :=
  let t := s.setCtx g { s.ctx g with causes := l }
  if e.code = 0x10 ∧ (s.ctx g).present = true then t.setCtx g { t.ctx g with
    state := .frozen, freeze := some .debug, trapCause := BitVec.ofNat 64 (0x10 + e.detail.toNat * 2 ^ 32) }
  else t.take g (if e.code = 0x10 ∨ e.code = 0x11 ∨ e.code = 0x21 then { e with rep := (s.ctx g).arch.printRep } else e)
/-- R166: the transfer of a command has ended, with a status and no cause, and its completion is due. -/
def transferred (s : State) (n : Nat) (c : Cmd) : Prop := inFlight s n c ∧ c.prog = 1 ∧ s.mayRun c = true ∧ c.fail = none ∧ c.by_.g < 96

end Sys2Proof.Claims

open Sys2Proof Sys2Proof.Machine Sys2Proof.Claims

/-- R289: the fourteen instructions of the ADD family complete with the results and the latency of the rule, and change
nothing but that pending write: no flag, no memory, no other register. -/
def Sys2Proof.Claims.ScalarAluForms : Prop :=
  Scalar3 Instr.add 1 (fun x y => BitVec.ofNat 64 (x.toNat + y.toNat))
    ∧ Scalar3 Instr.sub 1 (fun x y => BitVec.ofInt 64 ((x.toNat : Int) - y.toNat))
    ∧ Scalar3 Instr.and 1 (fun x y => x &&& y)
    ∧ Scalar3 Instr.or 1 (fun x y => x ||| y)
    ∧ Scalar3 Instr.xor 1 (fun x y => x ^^^ y)
    ∧ Scalar3 Instr.sll 1 (fun x y => BitVec.ofNat 64 (x.toNat * 2 ^ count6 y))
    ∧ Scalar3 Instr.srl 1 (fun x y => BitVec.ofNat 64 (x.toNat / 2 ^ count6 y))
    ∧ Scalar3 Instr.sra 1 (fun x y => BitVec.ofInt 64 (x.toInt / 2 ^ count6 y))
    ∧ Scalar3 Instr.slt 1 (fun x y => truth (decide (x.toInt < y.toInt)))
    ∧ Scalar3 Instr.sltu 1 (fun x y => truth (decide (x.toNat < y.toNat)))
    ∧ Scalar3 Instr.min 1 (fun x y => BitVec.ofInt 64 (min x.toInt y.toInt))
    ∧ Scalar3 Instr.max 1 (fun x y => BitVec.ofInt 64 (max x.toInt y.toInt))
    ∧ Scalar3 Instr.minu 1 (fun x y => BitVec.ofNat 64 (min x.toNat y.toNat))
    ∧ Scalar3 Instr.maxu 1 (fun x y => BitVec.ofNat 64 (max x.toNat y.toNat))

/-- R289, R290, R319, R334: the words of majors 0x01 to 0x0A. The fields stand as the formats of the rules have them; a
function value of 14 or more, an immediate shift of kind 3, and one with a bit of imm[14:8] set, are no instruction, and ILLEGAL. -/
def Sys2Proof.Claims.ScalarAluWords : Prop :=
  UndecodedIsIllegal
    ∧ (∀ (d a b : BitVec 5) (fn : BitVec 10), decodeWord (0x01#7 ++ d ++ a ++ b ++ fn) = match fn.toNat with
      | 0 => some (.add d a b) | 1 => some (.sub d a b) | 2 => some (.and d a b) | 3 => some (.or d a b)
      | 4 => some (.xor d a b) | 5 => some (.sll d a b) | 6 => some (.srl d a b) | 7 => some (.sra d a b)
      | 8 => some (.slt d a b) | 9 => some (.sltu d a b) | 10 => some (.min d a b) | 11 => some (.max d a b)
      | 12 => some (.minu d a b) | 13 => some (.maxu d a b) | _ => none)
    ∧ (∀ (d a : BitVec 5) (k : BitVec 15), decodeWord (0x02#7 ++ d ++ a ++ k) = some (.addi d a k)
        ∧ decodeWord (0x03#7 ++ d ++ a ++ k) = some (.andi d a k) ∧ decodeWord (0x04#7 ++ d ++ a ++ k) = some (.ori d a k)
        ∧ decodeWord (0x05#7 ++ d ++ a ++ k) = some (.xori d a k) ∧ decodeWord (0x06#7 ++ d ++ a ++ k) = some (.slti d a k))
    ∧ (∀ (d a : BitVec 5) (z : BitVec 7) (kind : BitVec 2) (h : BitVec 6),
        decodeWord (0x07#7 ++ d ++ a ++ z ++ kind ++ h) = if z ≠ 0 then none else match kind.toNat with
          | 0 => some (.slli d a h) | 1 => some (.srli d a h) | 2 => some (.srai d a h) | _ => none)
    ∧ (∀ (d : BitVec 5) (k : BitVec 20), decodeWord (0x08#7 ++ d ++ k) = some (.li d k)
        ∧ decodeWord (0x09#7 ++ d ++ k) = some (.lih d k) ∧ decodeWord (0x0A#7 ++ d ++ k) = some (.lix d k))
    ∧ (0x02319000#32 = 0x01#7 ++ 3#5 ++ 3#5 ++ 4#5 ++ 0#10 ∧ 0x0292A001#32 = 0x01#7 ++ 9#5 ++ 5#5 ++ 8#5 ++ 1#10
        ∧ 0x02421807#32 = 0x01#7 ++ 4#5 ++ 4#5 ++ 6#5 ++ 7#10 ∧ 0x02110C0D#32 = 0x01#7 ++ 1#5 ++ 2#5 ++ 3#5 ++ 13#10)
    ∧ (0x04528001#32 = 0x02#7 ++ 5#5 ++ 5#5 ++ 1#15 ∧ 0x055AFFFD#32 = 0x02#7 ++ 21#5 ++ 21#5 ++ BitVec.ofInt 15 (-3)
        ∧ 0x07EF7F00#32 = 0x03#7 ++ 30#5 ++ 30#5 ++ BitVec.ofInt 15 (-256) ∧ 0x0DEE8002#32 = 0x06#7 ++ 30#5 ++ 29#5 ++ 2#15)

/-- R290, R319, R334: the immediate forms, the constants and the immediate shifts. -/
def Sys2Proof.Claims.ScalarImmediateResults : Prop :=
  ScalarImm Instr.addi (fun x k => BitVec.ofNat 64 (x.toNat + k.toNat))
    ∧ ScalarImm Instr.andi (fun x k => x &&& k)
    ∧ ScalarImm Instr.ori (fun x k => x ||| k)
    ∧ ScalarImm Instr.xori (fun x k => x ^^^ k)
    ∧ ScalarImm Instr.slti (fun x k => truth (decide (x.toInt < k.toInt)))
    ∧ ScalarShift Instr.slli (fun x h => BitVec.ofNat 64 (x.toNat * 2 ^ h))
    ∧ ScalarShift Instr.srli (fun x h => BitVec.ofNat 64 (x.toNat / 2 ^ h))
    ∧ ScalarShift Instr.srai (fun x h => BitVec.ofInt 64 (x.toInt / 2 ^ h))
    ∧ (∀ (d : BitVec 5) (k : BitVec 20) (s : State), inSlotST s →
        exec (.li d k) s = .next (writesS s 1 d (BitVec.ofInt 64 k.toInt)))
    ∧ (∀ (d : BitVec 5) (k : BitVec 20) (s : State), inSlotST s →
        exec (.lih d k) s = .next (writesS s 1 d (BitVec.ofInt 64 (k.toInt * 2 ^ 20 + (s.rs d).toNat % 2 ^ 20))))
    ∧ (∀ (d : BitVec 5) (k : BitVec 20) (s : State), inSlotST s →
        exec (.lix d k) s = .next (writesS s 1 d (BitVec.ofInt 64 (k.toInt * 2 ^ 40 + (s.rs d).toNat % 2 ^ 40))))

/-- R325, R303: the products, and the quotients and remainders with their corners: a zero divisor gives all ones or the
dividend, and the most negative number over minus one gives itself. -/
def Sys2Proof.Claims.ScalarMultiplyDivideResults : Prop :=
  Scalar3 Instr.mul 3 (fun x y => BitVec.ofNat 64 (x.toNat * y.toNat))
    ∧ Scalar3 Instr.mulh 3 (fun x y => BitVec.ofInt 64 (x.toInt * y.toInt / 2 ^ 64))
    ∧ Scalar3 Instr.mulhu 3 (fun x y => BitVec.ofNat 64 (x.toNat * y.toNat / 2 ^ 64))
    ∧ Scalar3 Instr.div 18 (fun x y => if y = 0 then BitVec.ofNat 64 (2 ^ 64 - 1)
        else if x.toInt = -2 ^ 63 ∧ y.toInt = -1 then x else BitVec.ofInt 64 (x.toInt.tdiv y.toInt))
    ∧ Scalar3 Instr.divu 18 (fun x y => if y = 0 then BitVec.ofNat 64 (2 ^ 64 - 1)
        else BitVec.ofNat 64 (x.toNat / y.toNat))
    ∧ Scalar3 Instr.rem 18 (fun x y => if y = 0 then x
        else BitVec.ofInt 64 (x.toInt - x.toInt.tdiv y.toInt * y.toInt))
    ∧ Scalar3 Instr.remu 18 (fun x y => if y = 0 then x else BitVec.ofNat 64 (x.toNat % y.toNat))

/-- R298, R303, R318, R325: the words of majors 0x0B, 0x0D and 0x0E: a function value of 7 or more beside MUL, a nonzero
fn[9:3] of LEA and a nonzero fn of CMOV are no instruction, and ILLEGAL. -/
def Sys2Proof.Claims.ScalarMultiplyWords : Prop :=
  UndecodedIsIllegal
    ∧ (∀ (d a b : BitVec 5) (fn : BitVec 10), decodeWord (0x0B#7 ++ d ++ a ++ b ++ fn) = match fn.toNat with
      | 0 => some (.mul d a b) | 1 => some (.mulh d a b) | 2 => some (.mulhu d a b) | 3 => some (.div d a b)
      | 4 => some (.divu d a b) | 5 => some (.rem d a b) | 6 => some (.remu d a b) | _ => none)
    ∧ (∀ (d a b : BitVec 5) (z : BitVec 7) (h : BitVec 3),
        decodeWord (0x0D#7 ++ d ++ a ++ b ++ z ++ h) = if z ≠ 0 then none else some (.lea d a b h))
    ∧ (∀ (d a b : BitVec 5) (fn : BitVec 10),
        decodeWord (0x0E#7 ++ d ++ a ++ b ++ fn) = if fn ≠ 0 then none else some (.cmov d a b))
    ∧ 0x16508800#32 = 0x0B#7 ++ 5#5 ++ 1#5 ++ 2#5 ++ 0#10 ∧ 0x16508801#32 = 0x0B#7 ++ 5#5 ++ 1#5 ++ 2#5 ++ 1#10
    ∧ 0x16508802#32 = 0x0B#7 ++ 5#5 ++ 1#5 ++ 2#5 ++ 2#10 ∧ 0x1B354402#32 = 0x0D#7 ++ 19#5 ++ 10#5 ++ 17#5 ++ 0#7 ++ 2#3
    ∧ 0x1C321400#32 = 0x0E#7 ++ 3#5 ++ 4#5 ++ 5#5 ++ 0#10

/-- R293, R297, R298, R318: the bit instructions, LEA, and CMOV, which makes no write at all when b is zero. -/
def Sys2Proof.Claims.ScalarBitResults : Prop :=
  (∀ (x : Word) (i : Nat), i < 64 → x ≠ 0 → (x.toNat < 2 ^ (64 - i) ↔ i ≤ leadingZeros 64 x.toNat))
    ∧ (∀ (x : Word) (i : Nat), i < 64 → x ≠ 0 → (x.toNat % 2 ^ i = 0 ↔ i ≤ trailingZeros 64 x.toNat))
    ∧ leadingZeros 64 0 = 64 ∧ trailingZeros 64 0 = 64
    ∧ Scalar2 Instr.clz 1 (fun _ x => BitVec.ofNat 64 (leadingZeros 64 x.toNat))
    ∧ Scalar2 Instr.ctz 1 (fun _ x => BitVec.ofNat 64 (trailingZeros 64 x.toNat))
    ∧ Scalar2 Instr.popc 1 (fun _ x => BitVec.ofNat 64 ((List.range 64).filter fun i => x.getLsbD i).length)
    ∧ (∀ (d a : BitVec 5) (s : State), inSlotST s → ∃ r : Word, (∀ i, i < 64 → r.getLsbD (63 - i) = (s.rs a).getLsbD i)
        ∧ exec (.brev d a) s = .next (writesS s 1 d r))
    ∧ Scalar3 Instr.bext 2 (fun x y => BitVec.ofNat 64 (x.toNat / 2 ^ (y.toNat % 64) % 2 ^ min (y.toNat / 256 % 128) 64))
    ∧ (∀ (d a b : BitVec 5) (s : State), inSlotST s → ∃ r : Word,
        (∀ i, i < 64 → r.getLsbD i = if (s.rs b).toNat % 64 ≤ i
            ∧ i < (s.rs b).toNat % 64 + min ((s.rs b).toNat / 256 % 128) 64
          then (s.rs a).getLsbD (i - (s.rs b).toNat % 64) else (s.rs d).getLsbD i)
        ∧ exec (.bins d a b) s = .next (writesS s 2 d r))
    ∧ (∀ (d a b : BitVec 5) (h : BitVec 3) (s : State), inSlotST s → exec (.lea d a b h) s =
        .next (writesS s 1 d (BitVec.ofNat 64 ((s.rs a).toNat + (s.rs b).toNat * 2 ^ h.toNat))))
    ∧ (∀ (d a b : BitVec 5) (s : State), inSlotST s → s.rs b ≠ 0 → exec (.cmov d a b) s = .next (writesS s 1 d (s.rs a)))
    ∧ ∀ (d a b : BitVec 5) (s : State), inSlotST s → s.rs b = 0 → exec (.cmov d a b) s = .next s

/-- R307, R309, R310: the scalar float instructions read FP32 values from bits [31:0], round once by FMT.RM with SR taken
as RNE, and their results stand in bits [31:0] with bits [63:32] zero. FMIN and FMAX answer a code, the compares 1 or 0.
FFMA rounds once, and a word of its major with a nonzero fn is no instruction, and ILLEGAL. -/
def Obligations.ScalarFloatResults : Prop :=
  UndecodedIsIllegal
    ∧ (∀ (d a b : BitVec 5) (fn : BitVec 10),
        decodeWord (0x10#7 ++ d ++ a ++ b ++ fn) = if fn ≠ 0 then none else some (.ffma d a b))
    ∧ 0x20321400#32 = 0x10#7 ++ 3#5 ++ 4#5 ++ 5#5 ++ 0#10
    ∧ (∀ s : State, s.scalarRnd.mode ≠ .sr ∧ s.scalarRnd.sat = false)
    ∧ Scalar3f Instr.fadd 4 (fun m x y => addFV m x y)
    ∧ Scalar3f Instr.fsub 4 (fun m x y => addFV m x (negFV y))
    ∧ Scalar3f Instr.fmul 4 (fun _ x y => mulFV x y)
    ∧ Scalar3 Instr.fmin 4 (fun x y => BitVec.ofNat 64 (minF fp32 (x.toNat % 2 ^ 32) (y.toNat % 2 ^ 32)))
    ∧ Scalar3 Instr.fmax 4 (fun x y => BitVec.ofNat 64 (maxF fp32 (x.toNat % 2 ^ 32) (y.toNat % 2 ^ 32)))
    ∧ Scalar3 Instr.feq 4 (fun x y => truth (eqFV (lowFV x) (lowFV y)))
    ∧ Scalar3 Instr.flt 4 (fun x y => truth (ltFV (lowFV x) (lowFV y)))
    ∧ Scalar3 Instr.fle 4 (fun x y => truth (leFV (lowFV x) (lowFV y)))
    ∧ Scalar2 Instr.fcvtf 3 (fun s x => codeF s (intFV x.toInt))
    ∧ (∀ (d a : BitVec 5) (s : State), inSlotST s → exec (.fcvti d a) s =
        .next (setsFlags (writesS s 3 d (BitVec.ofInt 64 (roundInt s.scalarRnd (-2 ^ 63) (2 ^ 63 - 1) (lowFV (s.rs a))).1)) 3
          (if (roundInt s.scalarRnd (-2 ^ 63) (2 ^ 63 - 1) (lowFV (s.rs a))).2 then 4 else 0)))
    ∧ ∀ (d a b : BitVec 5) (s : State), inSlotST s → exec (.ffma d a b) s =
        .next (writesS s 4 d (codeF s (addFV s.scalarRnd.mode (lowFV (s.rs d)) (mulFV (lowFV (s.rs a)) (lowFV (s.rs b))))))

/-- R66, R137, R317: the seven loads complete in slot M for every address, aligned or not, in the window or out of it. That
SPV and SPVIO are recorded with the access, to show when it lands, is the model's choice (log entry 25). -/
def Sys2Proof.Claims.LoadForms : Prop :=
  Loads Instr.ldb 1 true ∧ Loads Instr.ldbu 1 false ∧ Loads Instr.ldh 2 true ∧ Loads Instr.ldhu 2 false
    ∧ Loads Instr.ldw 4 true ∧ Loads Instr.ldwu 4 false ∧ Loads Instr.ldd 8 false

/-- R66, R137, R239, R317: the four stores complete where the gated buffer has room, or in a handler; the bytes out of the
window are dropped, and no other byte is stored. That SPV and SPVIO are recorded at the issue is the model's choice (log
entry 25). -/
def Sys2Proof.Claims.StoreForms : Prop :=
  Stores Instr.stb 1 ∧ Stores Instr.sth 2 ∧ Stores Instr.stw 4 ∧ Stores Instr.std 8

/-- R139, R43: a load of the next bundle sees a byte that a gated store of this bundle holds, before any proof has sealed;
every other address reads as before. -/
def Sys2Proof.Claims.StoreForwarding : Prop :=
  ∀ (s : State) (cells : List (Nat × Byte)) (a : Nat), s.me.intrap = false →
    (cells.map Prod.fst).Nodup →
    let t := (stored s cells).modArch s.cur fun x => { x with tick := x.tick + 1 }
    let u := s.modArch s.cur fun x => { x with tick := x.tick + 1 }
    t.mem = s.mem
      ∧ (∀ b, (a, b) ∈ cells → s.me.splo.toNat ≤ a → a ≤ s.me.sphi.toNat → t.nearByte s.cur a = b)
      ∧ ((∀ b, (a, b) ∉ cells) → t.nearByte s.cur a = u.nearByte s.cur a)

/-- R137: a byte out of the window reads as zero, whatever the memory holds. -/
def Sys2Proof.Claims.OutOfWindowReadsZero : Prop :=
  ∀ (s : State) (g a : Nat), ¬((s.ctx g).splo.toNat ≤ a ∧ a ≤ (s.ctx g).sphi.toNat) → s.nearByte g a = 0

/-- R206, R327: the near atomics NAADD, NACAS and NAXCH; a NACAS whose compare fails writes nothing. That one waits for the bracketing proof of its own bundle alone, and
that a handler's needs none, is the model's choice (log entries 12, 54). -/
def Sys2Proof.Claims.NearAtomicForms : Prop :=
  NearAtomic Instr.naadd (fun w old _ y => some ((old + y) % 2 ^ w))
    ∧ NearAtomic Instr.nacas (fun _ old c y => if old = c then some y else none)
    ∧ NearAtomic Instr.naxch (fun _ _ _ y => some y)

/-- R206, R327: outside a handler a near atomic whose proof is not sealed waits, and one on a misaligned address is
ILLEGAL: where it does not complete. -/
def Sys2Proof.Claims.NearAtomicWaits : Prop :=
  ∀ (d a b : BitVec 5) (z8 : Bool) (s : State), s.slot = 3 →
    ∀ i ∈ [Instr.naadd d a b z8, Instr.nacas d a b z8, Instr.naxch d a b z8],
      ((s.rs a).toNat % 2 ^ 32 % (if z8 then 8 else 4) ≠ 0 → exec i s = .next s.illegal)
      ∧ ((s.rs a).toNat % 2 ^ 32 % (if z8 then 8 else 4) = 0 → ¬bracketOpen s →
          exec i s = .next { s with iss := { s.iss with want := some .atomic, verdict := .stall } })

/-- R140, R141, R311: SPILL and VSPILL store at STKTOP and raise it by 8 or 256; FILL and VFILL read below STKTOP, lower
it and land at t + 4. Here the stack neither overflows nor underflows, so no slide stands between. That SPV and SPVIO are
recorded with the access is the model's choice (log entry 25). -/
def Obligations.StackResults : Prop :=
  (∀ (d : BitVec 5) (s : State), s.slot = 3 → storeRoom s → s.iss.verdict = .ok →
    (s.me.stackLive = true → s.me.arch.stktop.toNat + 8 ≤ s.me.stklim.toNat) →
    let cells := (lowBytes (s.me.arch.stktop.toNat / 8 * 8) 8 (s.rs d).toNat).map fun p => (p.1 % 2 ^ 32, p.2)
    exec (.spill d) s = .next (setTop (stored (s.rangeFlags 1 (cells.map Prod.fst)) cells) (s.me.arch.stktop + 8)))
  ∧ (∀ (d : BitVec 5) (s : State), s.slot = 3 → plain s d → storeRoom s → s.iss.verdict = .ok →
    (s.me.stackLive = true → s.me.arch.stktop.toNat + 256 ≤ s.me.stklim.toNat) →
    let cells := (lowBytes (s.me.arch.stktop.toNat / 4 * 4) 256 (s.me.arch.v d.toNat).toNat).map fun p => (p.1 % 2 ^ 32, p.2)
    exec (.vspill d) s = .next (setTop (stored (s.rangeFlags 1 (cells.map Prod.fst)) cells) (s.me.arch.stktop + 256)))
  ∧ (∀ (d : BitVec 5) (s : State), s.slot = 3 →
    (s.me.stackLive = true → s.me.arch.stkbase.toNat + 8 ≤ s.me.arch.stktop.toNat) →
    let as := addrsFrom ((s.me.arch.stktop - 8).toNat / 8 * 8) 8
    exec (.fill d) s = .next (pending (setTop (s.rangeFlags 4 as) (s.me.arch.stktop - 8))
      (later s 4 .scalar d.toNat fullScalar (BitVec.ofNat 2048 (leNat (as.map (s.nearByte s.cur)))) (meets s as))))
  ∧ (∀ (d : BitVec 5) (s : State), s.slot = 3 → plain s d →
    (s.me.stackLive = true → s.me.arch.stkbase.toNat + 256 ≤ s.me.arch.stktop.toNat) →
    let as := addrsFrom ((s.me.arch.stktop - 256).toNat / 4 * 4) 256
    exec (.vfill d) s = .next (pending (setTop (s.rangeFlags 4 as) (s.me.arch.stktop - 256))
      (later s 4 .vector d.toNat allLanes (BitVec.ofNat 2048 (leNat (as.map (s.nearByte s.cur)))) (meets s as))))

/-- R364, R365, R358: the vector loads and stores of registers that are no streams complete: each byte lane j of the mask,
or byte j of element i, is read from or written to its own address; a strided access is at a + i × b, an indexed one at
a + z × element i of the index, each aligned down to z. That SPV and SPVIO are recorded with the access is the model's
choice (log entry 25). -/
def Sys2Proof.Claims.VectorMemoryForms : Prop :=
  (∀ (t base : BitVec 5) (pg : BitVec 3) (off : BitVec 12) (s : State), s.slot = 3 → plain s t →
    let ea := nearEa s base off 256 4
    let lanes := ((List.range 256).filter fun j => (s.rp pg).getLsbD j).map fun j => (j, (ea + j) % 2 ^ 32)
    exec (.vld t base pg off) s = .next (vectorLoaded s 4 t (s.rp pg) lanes))
  ∧ (∀ (t base : BitVec 5) (pg : BitVec 3) (off : BitVec 12) (s : State), s.slot = 3 → plain s t → storeRoom s →
    let ea := nearEa s base off 256 4
    let cells := ((List.range 256).filter fun j => (s.rp pg).getLsbD j).map fun j =>
      ((ea + j) % 2 ^ 32, (s.me.arch.v t.toNat).extractLsb' (8 * j) 8)
    exec (.vst t base pg off) s = .next (stored (s.rangeFlags 1 (cells.map Prod.fst)) cells))
  ∧ (∀ (d a b : BitVec 5) (w : EW) (s : State), s.slot = 3 → plain s d →
    exec (.vlds d a b w) s = .next (vectorLoaded s 6 d allLanes (elementLanes w.bytes (stridedAt s a b w))))
  ∧ (∀ (d a b : BitVec 5) (w : EW) (s : State), s.slot = 3 → plain s d → plain s b →
    exec (.vgath d a b w) s = .next (vectorLoaded s 8 d allLanes (elementLanes w.bytes (indexedAt s a b w))))
  ∧ (∀ (d a b : BitVec 5) (w : EW) (s : State), s.slot = 3 → plain s d → storeRoom s →
    let cells := scatterBytes (s.me.arch.v d.toNat) (elementLanes w.bytes (stridedAt s a b w))
    exec (.vsts d a b w) s = .next (stored (s.rangeFlags 1 (cells.map Prod.fst)) cells))
  ∧ (∀ (d a b : BitVec 5) (w : EW) (s : State), s.slot = 3 → plain s d → plain s b → storeRoom s →
    let cells := scatterBytes (s.me.arch.v d.toNat) (elementLanes w.bytes (indexedAt s a b w))
    exec (.vscat d a b w) s = .next (stored (s.rangeFlags 1 (cells.map Prod.fst)) cells))

/-- R365, R358: where elements of a scatter share a byte, the highest element that covers the byte gives it. -/
def Sys2Proof.Claims.ScatterTakesTheHighestElement : Prop :=
  ∀ (v : VWord) (lanes : List (Nat × Nat)) (a : Nat),
    AMap.find (scatterBytes v lanes) a
      = ((lanes.reverse.find? fun p => p.2 == a).map fun p => v.extractLsb' (8 * p.1) 8)

/-- R51: a byte lane is written under a predicate exactly if the predicate's bit of its element's lowest byte is set. -/
def Sys2Proof.Claims.ActiveLanes : Prop :=
  ∀ (w : EW) (p : PWord) (j : Nat), j < 256 →
    (activeMask w p).getLsbD j = p.getLsbD (j / w.bytes * w.bytes)

/-- R341, R342, R370: the integer vector instructions of two sources and VABS. -/
def Sys2Proof.Claims.VectorIntegerForms : Prop :=
  Lanes2 Instr.vadd 2 (fun _ x y => x + y)
    ∧ Lanes2 Instr.vsub 2 (fun w x y => code w ((x : Int) - y))
    ∧ Lanes2 Instr.vmul 3 (fun _ x y => x * y)
    ∧ Lanes2 Instr.vmulh 3 (fun w x y => code w (sgn w x * sgn w y / 2 ^ w.bits))
    ∧ Lanes2 Instr.vmin 2 (fun w x y => code w (min (sgn w x) (sgn w y)))
    ∧ Lanes2 Instr.vmax 2 (fun w x y => code w (max (sgn w x) (sgn w y)))
    ∧ Lanes1 Instr.vabs 2 (fun w x => (sgn w x).natAbs)
    ∧ Lanes2 Instr.vand 2 (fun _ x y => x &&& y)
    ∧ Lanes2 Instr.vor 2 (fun _ x y => x ||| y)
    ∧ Lanes2 Instr.vxor 2 (fun _ x y => x ^^^ y)
    ∧ Lanes2 Instr.vandn 2 (fun w x y => x &&& (y ^^^ (2 ^ w.bits - 1)))
    ∧ Lanes2 Instr.vshl 2 (fun w x y => x * 2 ^ (y % w.bits))
    ∧ Lanes2 Instr.vshr 2 (fun w x y => x / 2 ^ (y % w.bits))
    ∧ Lanes2 Instr.vsra 2 (fun w x y => code w (sgn w x / 2 ^ (y % w.bits)))
    ∧ Lanes2 Instr.vrotl 2 (fun w x y => x * 2 ^ (y % w.bits) + x / 2 ^ (w.bits - y % w.bits))

/-- R341: VADDS clamps the signed sum, and sets SATF exactly if an active element clamps. -/
def Sys2Proof.Claims.VectorSaturatingAdd : Prop :=
  ∀ (d a b : BitVec 5) (pg : BitVec 3) (w : EW) (s : State), inSlotVW s → plain s d → plain s a → plain s b →
    let sum := fun i => sgn w (el s w a i) + sgn w (el s w b i)
    let top : Int := 2 ^ (w.bits - 1)
    let out := fun i => sum i < -top ∨ top ≤ sum i
    ∃ r, HasLanes w r (fun i => code w (max (-top) (min (top - 1) (sum i))))
      ∧ ((∃ i, i < w.count ∧ (s.rp pg).getLsbD (w.bytes * i) = true ∧ out i) →
          exec (.vadds d a b pg w) s = .next (writesV (setsFlags s 2 4) 2 d (activeMask w (s.rp pg)) r))
      ∧ ((∀ i, i < w.count → (s.rp pg).getLsbD (w.bytes * i) = true → ¬out i) →
          exec (.vadds d a b pg w) s = .next (writesV s 2 d (activeMask w (s.rp pg)) r))

/-- R346, R366: the integer compares and the instructions with a broadcast scalar. -/
def Obligations.VectorCompareAndScalarResults : Prop :=
  Compares Instr.vceq (fun _ _ x y => x = y)
    ∧ Compares Instr.vcne (fun _ _ x y => x ≠ y)
    ∧ Compares Instr.vclt (fun _ w x y => sgn w x < sgn w y)
    ∧ Compares Instr.vcle (fun _ w x y => sgn w x ≤ sgn w y)
    ∧ Compares Instr.vcltu (fun _ _ x y => x < y)
    ∧ Compares Instr.vcleu (fun _ _ x y => x ≤ y)
    ∧ LanesX Instr.vaddx 2 (fun _ x y => x + y)
    ∧ LanesX Instr.vsubx 2 (fun w x y => code w ((x : Int) - y))
    ∧ LanesX Instr.vmulx 3 (fun _ x y => x * y)
    ∧ LanesX Instr.vshlx 2 (fun w x y => x * 2 ^ (y % w.bits))
    ∧ LanesX Instr.vshrx 2 (fun w x y => x / 2 ^ (y % w.bits))
    ∧ LanesX Instr.vsrax 2 (fun w x y => code w (sgn w x / 2 ^ (y % w.bits)))
    ∧ LanesX Instr.vminx 2 (fun w x y => code w (min (sgn w x) (sgn w y)))
    ∧ LanesX Instr.vmaxx 2 (fun w x y => code w (max (sgn w x) (sgn w y)))

/-- R343, R347, R352, R362, R363, R367, R368, R371: moves, counts, selection, element access and permutations. -/
def Obligations.VectorMoveResults : Prop :=
  Lanes1 Instr.vmov 2 (fun _ x => x)
    ∧ Lanes1 Instr.vpopc 2 (fun w x => ((List.range w.bits).filter fun i => x.testBit i).length)
    ∧ Lanes1 Instr.vclz 2 (fun w x => leadingZeros w.bits x)
    ∧ (∀ (d a : BitVec 5) (pg : BitVec 3) (w : EW) (s : State), inSlotVW s → plain s d →
        ∃ r, HasLanes w r (fun _ => (s.rs a).toNat)
          ∧ exec (.vbcast d a pg w) s = .next (writesV s 2 d (activeMask w (s.rp pg)) r))
    ∧ (∀ (d : BitVec 5) (pg : BitVec 3) (w : EW) (s : State), inSlotVW s → plain s d →
        ∃ r, HasLanes w r (fun i => i) ∧ exec (.viota d pg w) s = .next (writesV s 2 d (activeMask w (s.rp pg)) r))
    ∧ (∀ (d a b : BitVec 5) (pg : BitVec 3) (w : EW) (s : State), inSlotVW s → plain s d → plain s a → plain s b →
        ∃ r, HasLanes w r (fun i => if (s.rp pg).getLsbD (w.bytes * i) then el s w a i else el s w b i)
          ∧ exec (.vsel d a b pg w) s = .next (writesV s 2 d allLanes r))
    ∧ (∀ (d a b : BitVec 5) (w : EW) (s : State), inSlotVW s → plain s a →
        exec (.vextr d a b w) s = .next (writesS s 3 d (BitVec.ofNat 64 (el s w a ((s.rs b).toNat % w.count)))))
    ∧ (∀ (d a b : BitVec 5) (w : EW) (s : State), inSlotVW s → plain s d →
        ∃ (r : VWord) (m : PWord), HasLanes w r (fun _ => (s.rs a).toNat)
          ∧ (∀ j, j < 256 → (m.getLsbD j = true ↔ j / w.bytes = (s.rs b).toNat % w.count))
          ∧ exec (.vins d a b w) s = .next (writesV s 2 d m r))
    ∧ (∀ (d a b : BitVec 5) (pg : BitVec 3) (w : EW) (s : State), inSlotVW s → plain s d → plain s a → plain s b →
        ∃ r, HasLanes w r (fun i => el s w a (el s w b i % w.count))
          ∧ exec (.vperm d a b pg w) s = .next (writesV s 3 d (activeMask w (s.rp pg)) r))
    ∧ (∀ (d a b : BitVec 5) (pg : BitVec 3) (w : EW) (s : State), inSlotVW s → plain s d → plain s a →
        ∃ r, HasLanes w r (fun i => el s w a ((i + (s.rs b).toNat) % w.count))
          ∧ exec (.vrot d a b pg w) s = .next (writesV s 3 d (activeMask w (s.rp pg)) r))
    ∧ ∀ (d a : BitVec 5) (pg : BitVec 3) (w : EW) (s : State), inSlotVW s → plain s d → plain s a →
        ∃ r, HasLanes w r (fun i => el s w a (w.count - 1 - i))
          ∧ exec (.vrev d a pg w) s = .next (writesV s 3 d (activeMask w (s.rp pg)) r)

/-- R369, R356: the reductions; an integer maximum of no active element is the least number, a minimum the greatest. -/
def Sys2Proof.Claims.VectorReductionResults : Prop :=
  Reduces Instr.vrsum (fun _ l => l.sum)
    ∧ Reduces Instr.vrmax (fun w l => code w (l.foldl (fun m x => max m (sgn w x)) (-2 ^ (w.bits - 1))))
    ∧ Reduces Instr.vrmin (fun w l => code w (l.foldl (fun m x => min m (sgn w x)) (2 ^ (w.bits - 1) - 1)))
    ∧ FloatBest Instr.vfrmax maxF
    ∧ FloatBest Instr.vfrmin minF
    ∧ ∀ (d a : BitVec 5) (pg : BitVec 3) (w : EW) (zi zo : Bool) (s : State), inSlotVW s → plain s d → plain s a →
        let r := windowSum (((List.range w.count).filter fun i => (s.rp pg).getLsbD (w.bytes * i)).map fun i =>
          fv s w zi (el s w a i)) (awinBits (fld s.me.arch.fmt 16 14))
        exec (.vfrsum d a pg w zi zo) s = .next (writesV (setsFlags s 6 (flagsOf false false r.lsf r.ufl)) 6 d allLanes
          (BitVec.ofNat 2048 r.bits))

/-- R329: the predicate instructions. PCNT and PFIRST count elements, PFIRST answers n for none, PLANES sets the bytes of
the elements below b. -/
def Sys2Proof.Claims.PredicateResults : Prop :=
  (∀ (d a b : BitVec 3) (s : State), inSlotVW s →
      exec (.pand d a b) s = .next (writesP s 1 d allLanes (s.rp a &&& s.rp b))
      ∧ exec (.por d a b) s = .next (writesP s 1 d allLanes (s.rp a ||| s.rp b))
      ∧ exec (.pxor d a b) s = .next (writesP s 1 d allLanes (s.rp a ^^^ s.rp b))
      ∧ exec (.pandn d a b) s = .next (writesP s 1 d allLanes (s.rp a &&& ~~~(s.rp b)))
      ∧ exec (.pnot d a) s = .next (writesP s 1 d allLanes (~~~(s.rp a))))
    ∧ (∀ (d : BitVec 5) (p : BitVec 3) (w : EW) (s : State), inSlotVW s → exec (.pcnt d p w) s = .next (writesS s 1 d
        (BitVec.ofNat 64 ((List.range w.count).filter fun i => (s.rp p).getLsbD (w.bytes * i)).length)))
    ∧ (∀ (d : BitVec 5) (p : BitVec 3) (w : EW) (s : State), inSlotVW s → exec (.pfirst d p w) s = .next (writesS s 1 d
        (BitVec.ofNat 64 (((List.range w.count).find? fun i => (s.rp p).getLsbD (w.bytes * i)).getD w.count))))
    ∧ ∀ (d : BitVec 3) (b : BitVec 5) (w : EW) (s : State), inSlotVW s →
        ∃ r : PWord, (∀ j, j < 256 → (r.getLsbD j = true ↔ j / w.bytes < (s.rs b).toNat))
          ∧ exec (.planes d b w) s = .next (writesP s 1 d allLanes r)

/-- R353, R354, R355: the float instructions on vectors, with the flags and the draws of RNGCTR. -/
def Sys2Proof.Claims.VectorFloatForms : Prop :=
  Float2 Instr.vfadd (fun m x y => addFV m x y)
    ∧ Float2 Instr.vfsub (fun m x y => addFV m x (negFV y))
    ∧ Float2 Instr.vfmul (fun _ x y => mulFV x y)
    ∧ Code2 Instr.vfmin minF
    ∧ Code2 Instr.vfmax maxF
    ∧ Code2 Instr.vfcps (fun f x y => f.signed (f.neg y) (f.abs x))
    ∧ Code1 Instr.vfabs (fun f x => f.signed false (f.abs x))
    ∧ Code1 Instr.vfneg (fun f x => f.signed (!f.neg x) (f.abs x))
    ∧ Fused Instr.vfma false
    ∧ Fused Instr.vfms true
    ∧ FloatCompares Instr.vfeq eqFV
    ∧ FloatCompares Instr.vfne (fun x y => !eqFV x y)
    ∧ FloatCompares Instr.vflt ltFV
    ∧ FloatCompares Instr.vfle leFV
    ∧ FloatCompares Instr.vfun (fun x y => x.isNan || y.isNan)

/-- R60, R348, R350: the dot products, whose zo changes nothing and which are ILLEGAL while FMT.SEG is 6 or 7, and the special
functions, each rounded once. That zi acts on the addend of VDOTA (log entry 19), and the approximation from which a special
function is rounded (log entry 20), are the model's choices. -/
def Sys2Proof.Claims.VectorDotAndSpecialResults : Prop :=
  Dots Instr.vdot false ∧ Dots Instr.vdota true
    ∧ Specials Instr.vrcp .rcp ∧ Specials Instr.vrsq .rsq ∧ Specials Instr.vsqrt .sqrt ∧ Specials Instr.vexp2 .exp2
    ∧ Specials Instr.vlog2 .log2 ∧ Specials Instr.vtanh .tanh ∧ Specials Instr.vsinpi .sinpi ∧ Specials Instr.verf .erf

/-- R91, R92, R93, R345, R375 to R379: the bit network with the stencil of the core once no write of it is under way, and
the transforms of slot X. -/
def Obligations.TransformResults : Prop :=
  (∀ (d a b : BitVec 5) (k : BitVec 3) (s : State), s.slot = 5 → plain s d → plain s a → plain s b →
      (∀ e ∈ (s.core (coreOf s.cur)).bnWrites, e.2.1 ≠ k.toNat) →
      ∃ r : VWord, (∀ j, j < 2048 →
          let e := (AMap.get 0 (s.core (coreOf s.cur)).stencils k.toNat).extractLsb' (14 * j) 14
          let n := (e.extractLsb' 0 12).toNat
          let bit := if n < 2048 then (s.me.arch.v a.toNat).getLsbD n else (s.me.arch.v b.toNat).getLsbD (n - 2048)
          r.getLsbD j = match (e.extractLsb' 12 2).toNat with
            | 0 => bit
            | 1 => !bit
            | 2 => false
            | _ => true)
        ∧ exec (.vbnet d a b k) s = .next (writesV s 3 d allLanes r))
    ∧ (∀ (d a : BitVec 5) (shape : XShape) (s : State), s.slot = 6 → plain s d → plain s a →
      ∃ r : VWord, (∀ j, j < 2048 / trnBits shape → fieldN (trnBits shape) r j
          = fieldN (trnBits shape) (s.me.arch.v a.toNat) (trnSource shape j))
        ∧ exec (.xtrn d a shape) s = .next (writesV s 5 d allLanes r))
    ∧ (∀ (d a : BitVec 5) (kind : XKind) (part : BitVec 3) (s : State), s.slot = 6 → plain s d → plain s a →
      ∃ r : VWord, (∀ i, i < 256 → fieldN 8 r i = (roundF e4m3 rneRnd (kindValue kind
          (fieldN (kindBits kind) (s.me.arch.v a.toNat) (256 * part.toNat + i)))).bits % 256)
        ∧ exec (.xexp d a kind part) s = .next (writesV s 5 d allLanes r))
    ∧ (∀ (d a b : BitVec 5) (s : State), s.slot = 6 → plain s d → plain s a →
      ∃ r : VWord, (∀ i, i < 64 → fieldN 32 r i =
          (if (s.rs b).toNat / 256 ^ (i / 32) % 256 = 255 then fp32.nan else
            (roundF fp32 rneRnd (scaleFV (decodeF (fp8Of s.me.arch.fmt) (fieldN 8 (s.me.arch.v a.toNat) i))
              (((s.rs b).toNat / 256 ^ (i / 32) % 256 : Nat) - 127))).bits) % 2 ^ 32)
        ∧ exec (.xscl d a b) s = .next (writesV s 6 d allLanes r))
    ∧ (∀ (d a : BitVec 5) (df sf : XFmt) (rm : XRm) (sat : Bool) (part : BitVec 3) (s : State), s.slot = 6 → plain s d →
        plain s a →
      let m := xcvtMode s df sf rm
      let nd := 2048 / df.bits
      let ns := 2048 / sf.bits
      let first := if ns < nd then part.toNat * ns else 0
      let rs := (List.range (min nd ns)).map fun i => xcvtElem df sf (drawnRnd m sat s.me.arch.rngkey s.me.arch.rngctr df.bits (first + i))
        (fieldN sf.bits (s.me.arch.v a.toNat) (if nd < ns then part.toNat * nd + i else i))
      exec (.xcvt d a df sf rm sat part) s = .next (writesV (setsFlags (drawsBy s m) 4 (if rs.any Prod.snd then 4 else 0)) 4 d
        (byteLanes (first * (df.bits / 8)) (first * (df.bits / 8) + min nd ns * (df.bits / 8)))
        (placeAt (first * df.bits) df.bits (rs.map Prod.fst))))
    ∧ (∀ (d a : BitVec 5) (kind : XKind) (part : BitVec 3) (s : State), s.slot = 6 → plain s d → plain s a →
      let rs := (List.range 256).map fun i => kindPack kind
        (drawnRnd (fmtRm s.me.arch.fmt) true s.me.arch.rngkey s.me.arch.rngctr 8 i)
        (decodeF (fp8Of s.me.arch.fmt) (fieldN 8 (s.me.arch.v a.toNat) i))
      let n := 32 * kindBits kind
      exec (.xpack d a kind part) s = .next (writesV (setsFlags (draws s) 5 (if rs.any Prod.snd then 4 else 0)) 5 d
        (byteLanes (n * part.toNat) (n * part.toNat + n)) (placeAt (8 * n * part.toNat) (kindBits kind) (rs.map Prod.fst))))
    ∧ ∀ (d a b : BitVec 5) (s : State), s.slot = 6 → plain s d → plain s a →
      let val := fun i => decodeF fp32 (fieldN 32 (s.me.arch.v a.toNat) i)
      let scale := fun k => blockScale (if fmtF8 s.me.arch.fmt then 15 else 8) ((List.range 32).map fun i => val (32 * k + i))
      let rs := (List.range 64).map fun i => match scale (i / 32) with
        | none => ((fp8Of s.me.arch.fmt).nan, false)
        | some e =>
          let r := roundF (fp8Of s.me.arch.fmt) (drawnRnd (fmtRm s.me.arch.fmt) true s.me.arch.rngkey s.me.arch.rngctr 8 i)
            (scaleFV (val i) (127 - (e : Int)))
          (r.bits, r.sat)
      exec (.xqnt d a b) s = .next (writesV (writesS (setsFlags (draws s) 6 (if rs.any Prod.snd then 4 else 0)) 6 b
        (BitVec.ofNat 64 ((scale 0).getD 255 + 256 * (scale 1).getD 255))) 6 d allLanes (placeAt 0 8 (rs.map Prod.fst)))

/-- R52, R56, R137, R146, R147, R148, R196: a vector source whose name is a read stream takes the unit at the head of the stream,
which the bundle then pops; one with no unit stalls the bundle, and one whose unit is bad raises the unit's cause in the slot
that pops it, with no effect. A result whose destination is a write stream is pushed as the stream's next unit, into the
gated buffer where there is room, with the register's bytes in the inactive lanes; in a handler it takes no entry and is
written when both contexts of the core have had their turn (log entry 5), and the earlier gated pushes no longer write its
bytes (log entry 55). A stream that has its last unit stalls the bundle. A byte of the unit outside the window sets SPV when the instruction lands (with its
address, log entry 25). A source or destination of the wrong direction is ILLEGAL. Of VADD this says which state comes of it;
of every instruction with a vector source it says that one which names a read stream does what a register with the unit would
do, and of every one with a vector destination that one which names a write stream pushes the bytes that a register would take. -/
def Obligations.VectorStreamOperands : Prop :=
  (∀ (d a b : BitVec 5) (pg : BitVec 3) (w : EW) (s : State) (st : Stream), inSlotVW s → plain s d → plain s b →
    s.me.arch.bound a.toNat = some st →
    let q := a.toNat - 24
    (st.write = true → exec (.vadd d a b pg w) s = .next s.illegal)
    ∧ (st.write = false → AMap.get [] s.me.units q = [] →
        exec (.vadd d a b pg w) s = .next { s with iss := { s.iss with verdict := .stall } })
    ∧ (∀ u l, st.write = false → AMap.get [] s.me.units q = u :: l → u.bad = none →
        let s1 : State := match u.spv with
          | some x => if s.iss.pops.contains q = true then s else s.spvAt 2 x
          | none => s
        ∃ r, HasLanes w r (fun i => lane w u.data i + el s w b i)
          ∧ exec (.vadd d a b pg w) s = .next (writesV { s1 with iss := { s.iss with pops := s.iss.pops.add q } } 2 d
              (activeMask w (s.rp pg)) r))
    ∧ (∀ u l c, st.write = false → AMap.get [] s.me.units q = u :: l → u.bad = some c → exec (.vadd d a b pg w) s = .next
        (s.raise { c with bndl := s.iss.parcel, slot := s.slot, rep := s.iss.rep, issued := s.me.arch.tick }))
    ∧ (∀ x, st.write = false → plain s x → exec (.vadd a x x pg w) s = .next s.illegal))
  ∧ (∀ (i : Instr) (q : Nat) (st : Stream) (s : State), s.me.arch.bound (24 + q) = some st →
    (∃ r ∈ vecSources i, r.toNat = 24 + q) → (∀ r ∈ vecSources i, r.toNat = 24 + q ∨ plain s r) →
    (∀ d, vecDest i = some d → plain s d) → s.iss.verdict = .ok →
    (∃ v t, exec i (registered s q v) = .next t ∧ t.iss.verdict = .ok) →
    (st.write = true → exec i s = .next s.illegal)
    ∧ (st.write = false → AMap.get [] s.me.units q = [] →
        exec i s = .next { s with iss := { s.iss with verdict := .stall } })
    ∧ ∀ u l, st.write = false → AMap.get [] s.me.units q = u :: l →
      (∀ c, u.bad = some c → exec i s = .next
        (s.raise { c with bndl := s.iss.parcel, slot := s.slot, rep := s.iss.rep, issued := s.me.arch.tick }))
      ∧ (∀ x, u.bad = none → u.spv = some x → s.iss.pops.contains q = false → ∃ lat,
        exec i s = exec i { s.spvAt lat x with iss := { s.iss with pops := s.iss.pops.add q } }
        ∧ ∀ t, exec i s = .next t → t.iss.verdict = .ok → ∀ p ∈ t.me.arch.pend,
          p ∈ s.me.arch.pend ∨ p.tick = s.me.arch.tick + lat)
      ∧ ∀ t, u.bad = none → u.spv = none ∨ s.iss.pops.contains q = true → exec i (registered s q u.data) = .next t →
        t.iss.verdict = .ok → ∃ t', exec i s = .next t' ∧ apart t t' ∧ t'.iss = { t.iss with pops := s.iss.pops.add q }
        ∧ t'.me = { t.me with arch := { t.me.arch with streams := s.me.arch.streams, vreg := s.me.arch.vreg } })
  ∧ (∀ (i : Instr) (q : Nat) (d : BitVec 5) (st : Stream) (s t : State), vecDest i = some d → d.toNat = 24 + q →
    s.me.arch.bound d.toNat = some st → d ∉ vecSources i → (∀ r ∈ vecSources i, plain s r) → s.iss.verdict = .ok →
    exec i (registered s q (s.me.arch.v d.toNat)) = .next t → t.iss.verdict = .ok →
    (st.write = false → exec i s = .next s.illegal)
    ∧ (st.write = true → streamTotal st.desc ≤ 256 * st.pos → ∃ t', exec i s = .next t' ∧ t'.iss.verdict = .stall)
    ∧ ∀ l p m, st.write = true → 256 * st.pos < streamTotal st.desc → s.me.intrap = false → storeRoom s →
      s.me.outOfRange (streamUnit st.desc st.pos) = none → t.me.arch.pend = s.me.arch.pend ++ l ++ p :: m →
      p.file = .vector → p.num = d.toNat → p.poison = none → ∃ t', exec i s = .next t' ∧ apart t t' ∧ t'.iss = t.iss
      ∧ t'.me = { t.me with
          arch := { t.me.arch with
            pend := s.me.arch.pend ++ l ++ m
            streams := AMap.put s.me.arch.streams q { st with pos := st.pos + 1 }
            vreg := s.me.arch.vreg }
          gated := t.me.gated ++ [⟨s.me.serial, s.me.arch.tick, .push q st.pos st.desc
            (merge (s.me.arch.v d.toNat) p.val (byteMask p.mask)) []⟩] })
  ∧ ∀ (d a b : BitVec 5) (pg : BitVec 3) (w : EW) (s : State) (st : Stream), inSlotVW s → plain s a → plain s b →
    s.me.arch.bound d.toNat = some st → st.write = true → s.iss.verdict = .ok →
    let q := d.toNat - 24
    let s1 : State := match s.me.outOfRange (streamUnit st.desc st.pos) with
      | some x => s.spvAt 2 x
      | none => s
    let next (t : State) : State := t.setCtx s.cur { t.ctx s.cur with arch := { (t.ctx s.cur).arch with
      streams := AMap.put (t.ctx s.cur).arch.streams q { st with pos := st.pos + 1 } } }
    (streamTotal st.desc ≤ 256 * st.pos →
      exec (.vadd d a b pg w) s = .next { s with iss := { s.iss with verdict := .stall } })
    ∧ (256 * st.pos < streamTotal st.desc → storeRoom s → ∃ r : VWord,
        (∀ i, i < w.count → lane w r i = if (s.rp pg).getLsbD (w.bytes * i) then (el s w a i + el s w b i) % 2 ^ w.bits
          else el s w d i)
        ∧ (s.me.intrap = false → exec (.vadd d a b pg w) s = .next (next (s1.setCtx s.cur { s1.me with
            gated := s.me.gated ++ [⟨s.me.serial, s.me.arch.tick, .push q st.pos st.desc r []⟩] })))
        ∧ (s.me.intrap = true → exec (.vadd d a b pg w) s = .next (next (pushesLate s1 q st r))))

/-- R45, R291, R316: the branches compare signed or unsigned and go to h + sext(off15); JMP and JMPR write the link and
transfer to h + sext(imm20) or to a[31:0], read at issue. -/
def Sys2Proof.Claims.TransferResults : Prop :=
  Branches Instr.beq (fun x y => x = y) ∧ Branches Instr.bne (fun x y => x ≠ y)
    ∧ Branches Instr.blt (fun x y => x.toInt < y.toInt) ∧ Branches Instr.bge (fun x y => y.toInt ≤ x.toInt)
    ∧ Branches Instr.bltu (fun x y => x.toNat < y.toNat) ∧ Branches Instr.bgeu (fun x y => y.toNat ≤ x.toNat)
    ∧ (∀ (d : BitVec 5) (imm : BitVec 20) (s : State), s.slot = 0 → exec (.jmp d imm) s = .next (goesTo
        (writesS s 1 d (BitVec.ofNat 64 ((s.iss.parcel.toNat + s.iss.size) % 2 ^ 32)))
        (BitVec.ofInt 32 (s.iss.parcel.toNat + imm.toInt))))
    ∧ ∀ (d a : BitVec 5) (s : State), s.slot = 0 → exec (.jmpr d a) s = .next (goesTo
        (writesS s 1 d (BitVec.ofNat 64 ((s.iss.parcel.toNat + s.iss.size) % 2 ^ 32))) (BitVec.ofNat 32 (s.rs a).toNat))

/-- R46, R320: LOOP in a bundle that is issued once, outside a second level of loops and with its body inside the loop
around it, gives the loop from the parcel after its bundle; a count of zero skips the body. Elsewhere it is ILLEGAL. -/
def Sys2Proof.Claims.LoopResults : Prop :=
  ∀ (x : BitVec 5) (b : BitVec 15) (s : State), s.slot = 0 →
    let start := s.iss.parcel + BitVec.ofNat 32 s.iss.size
    let stop := start + b.zeroExtend 32
    let count : BitVec 32 := BitVec.ofNat 32 (s.rs x).toNat
    let nests := match s.me.arch.loops with
      | [] => True
      | o :: _ => o.start.toNat ≤ start.toNat ∧ start.toNat ≤ stop.toNat ∧ stop.toNat ≤ o.stop.toNat
    let legal := s.iss.reps ≤ 1 ∧ s.me.arch.loops.length < 2 ∧ nests ∧ b ≠ 0
    (legal → count ≠ 0 → exec (.loop x b) s = .next { s with iss := { s.iss with newLoop := some ⟨start, stop, count⟩ } })
    ∧ (legal → count = 0 →
        exec (.loop x b) s = .next { s with iss := { s.iss with newLoop := some ⟨start, stop, 0⟩, skip := true } })
    ∧ (¬legal → exec (.loop x b) s = .next s.illegal)

/-- R44, R333: SETFMT takes effect four ticks on if bits [31:21] are zero and RM is below 6, and is ILLEGAL otherwise. -/
def Sys2Proof.Claims.SetfmtResults : Prop :=
  ∀ (x : BitVec 5) (s : State), s.slot = 0 →
    let v : BitVec 32 := BitVec.ofNat 32 (s.rs x).toNat
    let legal := v.toNat < 2 ^ 21 ∧ v.toNat / 2 ^ 10 % 8 < 6
    (legal → exec (.setfmt x) s = .next (s.setCtx s.cur { s.me with arch := { s.me.arch with
        shadow := s.me.arch.shadow ++ [(s.me.arch.tick + 4, v)] } }))
    ∧ (¬legal → exec (.setfmt x) s = .next s.illegal)

/-- R238, R240, R332: PROOF outside a handler and in a bundle issued once captures the context as it stands, as the
newest of at most two unsealed proofs; with two unsealed the bundle stalls; elsewhere it is ILLEGAL. -/
def Sys2Proof.Claims.ProofResults : Prop :=
  ∀ (code : BitVec 15) (s : State), s.slot = 0 →
    let legal := s.me.intrap = false ∧ s.iss.reps ≤ 1
    (legal → s.me.unsealed.length < 2 →
      exec (.proof code) s = .next
        { s.setCtx s.cur { s.me with
            serial := s.me.serial + 1
            unsealed := s.me.unsealed ++ [⟨s.me.arch, s.me.serial + 1, s.cycle, .proof⟩]
            proofpc := s.me.arch.pc } with iss := { s.iss with opened := true } })
    ∧ (legal → 2 ≤ s.me.unsealed.length →
        exec (.proof code) s = .next { s with iss := { s.iss with verdict := .stall } })
    ∧ (¬legal → exec (.proof code) s = .next s.illegal)

/-- R359: VIGIL goes on when its vigil is complete; before that it stalls, having registered the arrival as soon as no
proof is unsealed. In a handler, or with a mask that does not name the context, it is ILLEGAL. An arrival kept from a VIGIL
of another id or mask gives way (log entry 58). -/
def Sys2Proof.Claims.VigilResults : Prop :=
  ∀ (x : BitVec 5) (vid : BitVec 10) (s : State), s.slot = 0 →
    let m : BitVec 8 := BitVec.ofNat 8 (s.rs x).toNat
    let legal := s.me.intrap = false ∧ m.getLsbD (s.cur % 8) = true
    (∀ a, legal → s.me.arrival = some a → a.vid = vid → a.mask = m → a.complete = true →
      exec (.vigil x vid) s = .next (s.setCtx s.cur { s.me with arrival := none }))
    ∧ (∀ a, legal → s.me.arrival = some a → a.vid = vid → a.mask = m → a.complete = false →
        exec (.vigil x vid) s = .next { s with iss := { s.iss with verdict := .stall } })
    ∧ (legal → (∀ a, s.me.arrival = some a → a.vid ≠ vid ∨ a.mask ≠ m) → s.me.unsealed = [] → exec (.vigil x vid) s = .next
        { s.setCtx s.cur { s.me with arrival := some ⟨vid, m, s.cycle, false⟩ } with
          iss := { s.iss with verdict := .stall } })
    ∧ (legal → (∀ a, s.me.arrival = some a → a.vid ≠ vid ∨ a.mask ≠ m) → s.me.unsealed ≠ [] →
        exec (.vigil x vid) s = .next { s with iss := { s.iss with verdict := .stall } })
    ∧ (¬legal → exec (.vigil x vid) s = .next s.illegal)

/-- R203, R372: WAITA on an aligned address in the window goes on exactly if its condition holds between the memory value
and y, both of z bytes, and stalls its bundle otherwise; elsewhere it is ILLEGAL. That a poisoned value raises nothing is the
model's choice (log entry 40). -/
def Sys2Proof.Claims.WaitaResults : Prop :=
  ∀ (x y : BitVec 5) (scope : Scope) (wide : Bool) (cond : WaitCond) (s : State), s.slot = 0 →
    let z := if wide then 8 else 4
    let a := (s.rs x).toNat % 2 ^ 32
    let m := nearValue s a z
    let v := (s.rs y).toNat % 2 ^ (8 * z)
    let legal := a % z = 0 ∧ s.me.splo.toNat ≤ a ∧ a ≤ s.me.sphi.toNat ∧ s.me.splo.toNat ≤ a + z - 1 ∧ a + z - 1 ≤ s.me.sphi.toNat
    let holds := match cond with
      | .eq => m = v
      | .ne => m ≠ v
      | .geu => v ≤ m
      | .ltu => m < v
      | .andnz => m &&& v ≠ 0
    (legal → holds → exec (.waita x y scope wide cond) s = .next s)
    ∧ (legal → ¬holds → exec (.waita x y scope wide cond) s = .next { s with iss := { s.iss with verdict := .stall } })
    ∧ (¬legal → exec (.waita x y scope wide cond) s = .next s.illegal)

/-- R59, R372: a bundle that stalls leaves no ERD of its context that has come due to be taken again at the end of a cycle (log
entry 8), so that what the bundle waits with does not change. -/
def Sys2Proof.Claims.StalledBundleKeepsSamples : Prop :=
  ∀ (s : State) (words : List SlotWord) (size reps e : Nat),
    let t := s.issueBundle words size reps e
    t.iss.verdict = .stall → ∀ p ∈ t.me.arch.pend, p.tick ≤ t.me.arch.tick → p.sample = none ∧ ∀ n, t.resample t.cur n p = p

/-- R199, R200, R226, R340: FENCE and TRIG outside a handler are held with the commands of their segment. A FENCE whose
after set names N or S holds the next bundle. TRIG takes no entry of the buffer's count; in a handler, or in a spawned
context, it is ILLEGAL. -/
def Obligations.FenceAndTrigResults : Prop :=
  (∀ (after before : BitVec 5) (scope : Scope) (order : FenceOrder) (s : State), s.slot = 0 → after ≠ 0 → before ≠ 0 →
    commandRoom s →
    let s1 : State := if after.getLsbD 0 || after.getLsbD 4 then
      s.setCtx s.cur { s.me with arch := { s.me.arch with fenced := true } } else s
    exec (.fence after before scope order) s = .next (held s1 (.fence before after scope order)))
  ∧ ∀ s : State, s.slot = 0 →
    (s.me.intrap = false → s.me.spawn = 0 → exec .trig s = .next (s.setCtx s.cur { s.me with
      gated := s.me.gated ++ [⟨s.me.serial, s.me.arch.tick, .trig s.issuer⟩] }))
    ∧ (s.me.intrap = true ∨ s.me.spawn ≠ 0 → exec .trig s = .next s.illegal)

/-- R22, R23: SPAWN outside a handler claims an idle or reserved context of the cluster at once, which starts 24 cycles
later at x[31:0] with n scalar arguments; on any other target it raises the SPAWN cause, 0x05, with k. -/
def Sys2Proof.Claims.SpawnResults : Prop :=
  ∀ (x y : BitVec 5) (n : BitVec 4) (k : BitVec 3) (s : State) (kn : Nat) (kk : Kernel), s.slot = 0 → s.me.intrap = false →
    n.toNat ≤ 8 → (n.toNat ≠ 0 → y.toNat + n.toNat - 1 ≤ 31) → s.me.kernel = some kn → s.kernel kn = some kk →
    let g := spawnTarget s k
    let free := g ≠ s.cur ∧ ((s.ctx g).state = .idle ∨ (s.ctx g).state = .reserved)
    (free → ∃ t, exec (.spawn x y n k) s = .next t
      ∧ (t.ctx g).state = .running ∧ (t.ctx g).kernel = some kn ∧ (t.ctx g).arch.pc = BitVec.ofNat 32 (s.rs x).toNat
      ∧ (t.ctx g).startAt = s.cycle + 24 ∧ (t.ctx g).spawn = k.toNat + 1 ∧ (t.ctx g).parent = some (s.cur, s.me.gen)
      ∧ (t.ctx g).task = s.me.task ∧ (t.ctx g).phase = s.me.phase ∧ (t.ctx g).arch.fmt = s.me.arch.fmt
      ∧ (∀ i, i < n.toNat → (t.ctx g).arch.s (i + 1) = s.me.arch.s (y.toNat + i))
      ∧ (∀ r, n.toNat < r → r < 32 → (t.ctx g).arch.s r = 0)
      ∧ t.mem = s.mem ∧ t.cores = s.cores ∧ t.clusters = s.clusters ∧ t.cmds = s.cmds ∧ t.edge = s.edge
      ∧ ∀ h, h ≠ g → t.ctx h = s.ctx h)
    ∧ (¬free → exec (.spawn x y n k) s = .next (s.raise ⟨0x05, k.zeroExtend 32, s.iss.parcel, s.slot, false, s.iss.rep, 0,
        false, s.me.arch.tick⟩))

/-- R15, R20, R304: SUSP and DONE outside a handler end their segment at their bundle, once every context spawned has
ended and there is room for the proof; until then the bundle stalls. A SUSP's record carries x[31:0], six scalars from y
and the affinity. -/
def Sys2Proof.Claims.SegmentEndResults : Prop :=
  ∀ s : State, s.slot = 0 → s.me.intrap = false →
    let ready := s.hasChildren s.cur s.me.gen = false ∧ s.me.unsealed.length < 2
    (ready → exec .done s = .next { s with iss := { s.iss with ends := some .done } })
    ∧ (¬ready → exec .done s = .next { s with iss := { s.iss with verdict := .stall } })
    ∧ ∀ (x y : BitVec 5) (aff : Affinity) (kn : Nat), s.me.spawn = 0 → y.toNat ≤ 26 → s.me.kernel = some kn →
      (ready → ∃ r : Record, exec (.susp x y aff) s = .next { s with iss := { s.iss with ends := some (.susp r) } }
        ∧ r.kernel = kn ∧ r.resume = BitVec.ofNat 32 (s.rs x).toNat ∧ r.aff = aff ∧ r.task = s.me.task
        ∧ r.phase = s.me.phase ∧ r.entry = false ∧ r.args = (List.range 6).map fun i => s.me.arch.s (y.toNat + i))
      ∧ (¬ready → exec (.susp x y aff) s = .next { s with iss := { s.iss with verdict := .stall } })

/-- R250, R251, R294, R339: TRAP and BKPT are taken at the boundary after their bundle, as causes 0x11 and 0x10 with
their code; ERET in a handler has its bundle leave the handler, and is ILLEGAL outside one. -/
def Sys2Proof.Claims.TrapInstructionResults : Prop :=
  (∀ (code : BitVec 15) (s : State), s.slot = 0 → exec (.trap code) s = .next (takesAfter s 0x11 code.toNat))
    ∧ (∀ (code : BitVec 15) (s : State), s.slot = 0 → exec (.bkpt code) s = .next (takesAfter s 0x10 code.toNat))
    ∧ ∀ s : State, s.slot = 0 →
      (s.me.intrap = true → exec .eret s = .next { s with iss := { s.iss with eret := true } })
      ∧ (s.me.intrap = false → exec .eret s = .next s.illegal)

/-- R247, R251, R257, R294: at the boundary after its bundle a BKPT freezes the context where a debugger is present, in a handler
too: no handler is entered, and CAUSE alone of the trap registers records it; without a debugger the cause is taken. That is so
where no cause of an earlier instruction is due at that boundary; of TRAP and BKPT alike, a poisoned landing that is due there
is taken in their place. -/
def Sys2Proof.Claims.BkptForTheDebugger : Prop :=
  (∀ (s : State) (c : Cause), s.iss.after = some c → c.code = 0x10 →
    (s.me.present = true → s.iss.ends = none → s.iss.eret = false → s.iss.atomic = false →
      s.me.causes = [] ∨ (s.me.intrap = true ∧ s.me.trapCause.getLsbD 15 = true) →
      (∀ p ∈ s.me.arch.pend, p.poison = none ∨ s.me.arch.tick + 1 < p.tick) → ∀ e : Nat,
      let t := s.complete e
      let kept := fun (x : Ctx) => { x with state := s.me.state, freeze := s.me.freeze, trapCause := s.me.trapCause
                                            arch := s.me.arch, units := s.me.units, bracket := s.me.bracket, bpDone := s.me.bpDone
                                            gated := s.me.gated }
      t.me.state = .frozen ∧ t.me.freeze = some .debug ∧ t.me.trapCause.toNat = 0x10 + c.detail.toNat * 2 ^ 32
      ∧ kept t.me = s.me ∧ t.me.arch.tick = s.me.arch.tick + 1 ∧ t.me.arch.sreg = s.me.arch.sreg
      ∧ t.me.arch.vreg = s.me.arch.vreg ∧ t.me.arch.preg = s.me.arch.preg
      ∧ (s.iss.target = none → s.iss.newLoop = none → s.iss.reps ≤ s.iss.rep + 1 → s.me.arch.loops = [] →
        t.me.arch.pc = s.iss.parcel + BitVec.ofNat 32 s.iss.size ∧ t.me.arch.printRep = 0)
      ∧ t.mem = s.mem ∧ (s.iss.direct = [] → t.late = s.late) ∧ ∀ h, h ≠ s.cur → t.ctx h = s.ctx h)
    ∧ (s.me.present = false → s.me.causes = [] → s.me.badLanding = none →
      s.finishTrap s.cur c = s.take s.cur { c with rep := s.me.arch.printRep }))
  ∧ ∀ (s : State) (c : Cause) (p : Pending), s.me.badLanding = some p → s.me.causes = [] →
    (∀ q, s.me.newest = some q → q.arch.tick ≤ c.issued) →
    s.finishTrap s.cur c = (s.setCtx s.cur (s.me.dropLanding p)).take s.cur (s.me.landingCause p)

/-- R53, R54, R301, R302: CRD lands the value of an assigned control register two ticks on, CWR a write one tick on, and
both are ILLEGAL for a number that is not assigned. A few of the registers' values are spelled out. -/
def Sys2Proof.Claims.ControlRegisterForms : Prop :=
  ∀ (x : BitVec 5) (r : BitVec 12) (s : State), s.slot = 0 →
    (controlAssigned r = true → ∃ v, exec (.crd x r) s = .next (writesS s 2 x v)
      ∧ (r = 0x001 → v = s.me.trapCause) ∧ (r = 0x002 → v.toNat = s.me.trappc.toNat)
      ∧ (r = 0x003 → v.toNat = s.me.fbndl.toNat) ∧ (r = 0x004 → v.toNat = s.me.fslot.toNat)
      ∧ (r = 0x005 → v = s.me.faddr) ∧ (r = 0x006 → v.toNat = s.me.arch.tvec.toNat)
      ∧ (r = 0x007 → v.toNat = s.me.arch.tstk.toNat) ∧ (r = 0x008 → v = s.me.dfcause)
      ∧ (r = 0x010 → v = BitVec.ofNat 64 s.me.arch.tick) ∧ (r = 0x011 → v.toNat = s.me.arch.fmt.toNat)
      ∧ (r = 0x012 → v = s.me.arch.rngkey) ∧ (r = 0x013 → v = s.me.arch.rngctr)
      ∧ (r = 0x017 → v.toNat = s.me.arch.stktop.toNat) ∧ (r = 0x01E → v.toNat = s.me.arch.flags.toNat)
      ∧ (r = 0x022 → v = s.me.aevt))
    ∧ (controlAssigned r = true → exec (.cwr x r) s = .next
        (pending s (later s 1 .control r.toNat fullScalar ((s.rs x).zeroExtend 2048) none)))
    ∧ (controlAssigned r = false → exec (.crd x r) s = .next s.illegal ∧ exec (.cwr x r) s = .next s.illegal)

/-- R41, R54, R302: a write that lands in a read-only control register changes nothing, one to FLAGS or AEVT clears the bits it
sets, but for those of AEVT that an event has set in this cycle, and one to TVEC, TSTK, RNGKEY, RNGCTR or VGTMO writes them. -/
def Sys2Proof.Claims.ControlWriteLanding : Prop :=
  ∀ (c : Ctx) (v : Word),
    (∀ r ∈ [0x000, 0x001, 0x003, 0x004, 0x005, 0x008, 0x010, 0x011, 0x014, 0x015, 0x016, 0x018, 0x019, 0x01A, 0x01B, 0x01C,
      0x01D, 0x021], c.writeControl r v = c)
    ∧ (c.writeControl 0x01E v).arch.flags = c.arch.flags &&& ~~~(BitVec.ofNat 4 v.toNat)
    ∧ (∀ i, (c.writeControl 0x022 v).aevt.getLsbD i = (c.aevt.getLsbD i
      && !(decide (i < 2) && v.getLsbD i && !c.aevtNew.getLsbD i)))
    ∧ c.writeControl 0x002 v = { c with trappc := BitVec.ofNat 32 v.toNat }
    ∧ c.writeControl 0x006 v = { c with arch := { c.arch with tvec := BitVec.ofNat 32 v.toNat } }
    ∧ c.writeControl 0x007 v = { c with arch := { c.arch with tstk := BitVec.ofNat 32 v.toNat } }
    ∧ c.writeControl 0x012 v = { c with arch := { c.arch with rngkey := v } }
    ∧ c.writeControl 0x013 v = { c with arch := { c.arch with rngctr := v } }
    ∧ c.writeControl 0x017 v = { c with arch := { c.arch with stktop := BitVec.ofNat 32 v.toNat } }
    ∧ c.writeControl 0x020 v = { c with arch := { c.arch with vgtmo := BitVec.ofNat 32 v.toNat } }

/-- R35, R137, R295, R296: ENGRAVE writes the plates of the core at once from near store; BNSET puts the image of a stencil
under way, to be complete within 64 cycles, and not before an earlier one of the stencil. Source bytes out of the window read
as zero and set SPV. The cycle within the 64 is a free choice (log entry 9); that SPVIO is recorded with the access (log entry
25) and that poisoned source bytes raise nothing (log entry 40) are the model's choices. -/
def Obligations.CoreStoreResults : Prop :=
  (∀ (x y : BitVec 5) (c : BitVec 9) (s : State), s.slot = 0 →
    let a := (s.rs x).toNat % 2 ^ 32
    let f := (s.rs y).toNat % 2 ^ 32
    (c = 0 → exec (.engrave x y c) s = .next s)
    ∧ (c ≠ 0 → a % 32 = 0 → f ≠ 0 → f + c.toNat ≤ 512 → ∃ t,
        exec (.engrave x y c) s = .next t
        ∧ (∀ j, j < c.toNat → AMap.get 0 (t.core (coreOf s.cur)).plates (f + j) = BitVec.ofNat 256 (nearValue s (a + 32 * j) 32))
        ∧ (∀ p, ¬(f ≤ p ∧ p < f + c.toNat) →
            AMap.find (t.core (coreOf s.cur)).plates p = AMap.find (s.core (coreOf s.cur)).plates p)
        ∧ (∀ h, h ≠ coreOf s.cur → t.core h = s.core h)
        ∧ t.ctxs = (s.rangeFlags 1 ((List.range (32 * c.toNat)).map (a + ·))).ctxs ∧ t.mem = s.mem ∧ t.cmds = s.cmds
        ∧ (inside s ((List.range (32 * c.toNat)).map (a + ·)) → t.ctxs = s.ctxs))
    ∧ (c ≠ 0 → (a % 32 ≠ 0 ∨ f = 0 ∨ 512 < f + c.toNat) → exec (.engrave x y c) s = .next s.illegal))
  ∧ ∀ (x : BitVec 5) (k : BitVec 3) (s : State), s.slot = 0 →
    let a := (s.rs x).toNat % 2 ^ 32
    (a % 64 = 0 → a + 3584 ≤ 0x80000 → ∃ t n, exec (.bnset x k) s = .next t ∧ s.cycle < n
      ∧ (∀ w ∈ (s.core (coreOf s.cur)).bnWrites, w.2.1 = k.toNat → w.2.2.2.1 ≤ n)
      ∧ (n ≤ s.cycle + 64 ∨ ∃ w ∈ (s.core (coreOf s.cur)).bnWrites, w.2.1 = k.toNat ∧ w.2.2.2.1 = n)
      ∧ (t.core (coreOf s.cur)).bnWrites = (s.core (coreOf s.cur)).bnWrites
          ++ [(s.cur, k.toNat, s.me.arch.tick + 16, n, BitVec.ofNat 28672 (nearValue s a 3584))]
      ∧ (t.core (coreOf s.cur)).stencils = (s.core (coreOf s.cur)).stencils
      ∧ t.ctxs = (s.rangeFlags 1 (addrsFrom a 3584)).ctxs ∧ t.mem = s.mem ∧ t.cmds = s.cmds
      ∧ (inside s (addrsFrom a 3584) → t.ctxs = s.ctxs))
    ∧ ((a % 64 ≠ 0 ∨ 0x80000 < a + 3584) → exec (.bnset x k) s = .next s.illegal)

/-- R71, R328: NOP has no effect in any slot, and a word that matches no row is ILLEGAL in every slot, with the word as
the detail of the cause. -/
def Sys2Proof.Claims.NopAndIllegalWord : Prop :=
  (∀ s : State, exec .nop s = .next s)
    ∧ ∀ (w : BitVec 32) (s : State), exec (.illegalWord w) s = .next (s.raise ⟨0x01, w, s.iss.parcel, s.slot, false,
        s.iss.rep, 0, false, s.me.arch.tick⟩)

/-- R58, R59, R103, R305: EWR writes the listed bits of a writable engine register at issue and leaves a read-only one;
ERD lands a register's value six ticks on, and one of MSTAT, FSTAT, SQST or ERHT, or of the FPROG, FGROW and FPERM that the
factor engine writes at a stop, is marked to be taken again until it lands (log entry 8); an EWR of ERHT is a command that carries TAIL; a number that is not assigned is
ILLEGAL. -/
def Obligations.EngineRegisterResults : Prop :=
  (∀ (r : BitVec 10) (a : BitVec 5) (s : State), s.slot = 7 →
    let arch := fun (f : Arch → Arch) => s.setCtx s.cur { s.me with arch := f s.me.arch }
    (r = 0x010 → exec (.ewr r a) s = .next (arch fun x => { x with mgeo := s.rs a &&& 0xFFFFFF }))
    ∧ (r = 0x011 → exec (.ewr r a) s = .next (arch fun x => { x with mlim := s.rs a &&& 0xFFFFFFFF }))
    ∧ (r = 0x013 → exec (.ewr r a) s = .next (arch fun x => { x with mgcfg := s.rs a &&& 0x3F }))
    ∧ (r = 0x014 → exec (.ewr r a) s = .next (arch fun x => { x with wbcfg := s.rs a &&& 0xFFFF03 }))
    ∧ (r = 0x020 → exec (.ewr r a) s = .next (arch fun x => { x with fgeo := s.rs a &&& 0xFFFFFFFF }))
    ∧ (r = 0x024 → exec (.ewr r a) s = .next (arch fun x => { x with frhs := s.rs a &&& 0xFFFFFFFFFF }))
    ∧ (r = 0x021 → exec (.ewr r a) s = .next (s.setCtx s.cur { s.me with fprog := BitVec.ofNat 8 (s.rs a).toNat }))
    ∧ (r.toNat < 8 → ∃ t, exec (.ewr r a) s = .next t ∧ t.ctxs = s.ctxs ∧ t.mem = s.mem
        ∧ (t.core (coreOf s.cur)).erngNext = (s.core (coreOf s.cur)).erngNext ++ [(r.toNat, s.rs a)]
        ∧ (t.core (coreOf s.cur)).erng = (s.core (coreOf s.cur)).erng)
    ∧ (r = 0x012 ∨ r = 0x022 ∨ r = 0x023 ∨ (0x030 ≤ r.toNat ∧ r.toNat ≤ 0x047) → engineAssigned r = true →
        exec (.ewr r a) s = .next s)
    ∧ (engineAssigned r = false → exec (.ewr r a) s = .next s.illegal ∧ exec (.erd a r) s = .next s.illegal)
    ∧ (engineAssigned r = true → ∃ v,
        let status := r = 0x012 ∨ r = 0x021 ∨ r = 0x022 ∨ r = 0x023 ∨ (0x008 ≤ r.toNat ∧ r.toNat < 0x010)
          ∨ (0x030 ≤ r.toNat ∧ r.toNat < 0x048)
        (¬status ∨ a = 0 → exec (.erd a r) s = .next (writesS s 6 a v))
        ∧ (status → a ≠ 0 → exec (.erd a r) s = .next (pending s
          { later s 6 .scalar a.toNat fullScalar (v.zeroExtend 2048) none with sample := some r.toNat }))
        ∧ (r = 0x012 → v = BitVec.ofNat 64 (s.mstat (coreOf s.cur)))
        ∧ (r = 0x023 → v = BitVec.ofNat 64 (s.fstatWord s.cur))
        ∧ (r = 0x010 → v = s.me.arch.mgeo) ∧ (r = 0x011 → v = s.me.arch.mlim) ∧ (r = 0x013 → v = s.me.arch.mgcfg)
        ∧ (r = 0x014 → v = s.me.arch.wbcfg) ∧ (r = 0x020 → v = s.me.arch.fgeo) ∧ (r = 0x024 → v = s.me.arch.frhs)
        ∧ (r.toNat < 8 → v = AMap.get 0 (s.core (coreOf s.cur)).erng r.toNat)))
  ∧ ∀ (i : BitVec 3) (a : BitVec 5) (s : State), s.slot = 7 → commandRoom s →
    exec (.ewrErhtTail i a) s = .next (held s (.erht i.toNat (BitVec.ofNat 32 ((s.rs a).toNat / 2 ^ 32))))

/-- R105, R106, R107, R110, R112, R114, R323, R324, R326: the array commands are held with what they capture at issue, and
the chain of the bank is opened, continued or closed at issue. -/
def Sys2Proof.Claims.MatrixCommandResults : Prop :=
  (∀ (ar br : BitVec 3) (bank clr : Bool) (a : BitVec 5) (s : State), s.slot = 7 → commandRoom s →
    let j := s.matJob bank.toNat clr (s.rs a).toNat ar.toNat br.toNat
    productLegal s j → ar ≠ 7 → ar ≠ br → oddMx j.mgeo j.fmt = false →
    ringOk j.lo.toNat j.hi.toNat j.aDesc (tileA j.mgeo j.fmt) = true →
    (br = 7 → wbOk j.wbcfg (tileB j.mgeo j.fmt) = true) →
    (br ≠ 7 → ringOk j.lo.toNat j.hi.toNat j.bDesc (tileB j.mgeo j.fmt) = true) →
    chainTakes s j →
    exec (.mma ar br bank clr a) s = .next (held (kinded s bank.toNat (intProduct j) (chainAfter s j)) (.mma j)))
  ∧ (∀ (bank : Bool) (s : State), s.slot = 7 → commandRoom s →
    (s.bankOk s.cur bank.toNat = true →
      exec (.mzero bank) s = .next (held (kinded s bank.toNat false ⟨false, 0⟩) (.mzero bank.toNat)))
    ∧ (s.bankOk s.cur bank.toNat = false → exec (.mzero bank) s = .next s.illegal))
  ∧ (∀ (bank lsf : Bool) (layout : MLayout) (a b : BitVec 5) (s : State), s.slot = 7 → commandRoom s →
    s.bankOk s.cur bank.toNat = true → (low32 s a).toNat % 64 = 0 → pairOk (s.rs b) = true →
    (layout = .bf16 → kindOf s bank.toNat = false) →
    exec (.mret bank lsf layout a b) s = .next (held
      (chained s bank.toNat { s.me.chain bank.toNat with isOpen := false })
      (.mret bank.toNat lsf layout (geoM s.me.arch.mgeo) (geoN s.me.arch.mgeo) (low32 s a) (s.rs b)
        (kindOf s bank.toNat))))
  ∧ ∀ (mask : BitVec 4) (bank clr : Bool) (a b : BitVec 5) (s : State), s.slot = 7 → commandRoom s →
    let j := s.matJob bank.toNat clr (s.rs a).toNat 0 0
    productLegal s j → s.cur % 2 = bank.toNat → mask.getLsbD (coreOf s.cur % 4) = true →
    (s.rs b).toNat % 2 ^ 32 < 0x80000 → (s.memberJob (coreOf s.cur) j).overSlot = false →
    (∀ i, i < 4 → mask.getLsbD i = true → (s.ctx (clusterOf s.cur * 8 + 2 * i + bank.toNat)).state = .running
      ∧ (s.ctx (clusterOf s.cur * 8 + 2 * i + bank.toNat)).kernel = s.me.kernel) →
    chainTakes s j →
    let clash := fun i => mask.getLsbD i = true ∧ clr = false ∧ kindClashes s (clusterOf s.cur * 4 + i) bank.toNat j
    ((∀ i, i < 4 → ¬clash i) →
      exec (.mgang mask bank clr a b) s = .next (held (kinded s bank.toNat (intProduct j) (chainAfter s j)) (.gang mask j (s.rs b))))
    ∧ ((∃ i, i < 4 ∧ clash i) → exec (.mgang mask bank clr a b) s = .next s.illegal)

/-- R119, R120: the factor commands are held with the registers they capture, where the order, the stride, the addresses and
the context's own chain allow it. -/
def Sys2Proof.Claims.FactorCommandResults : Prop :=
  ∀ (a b : BitVec 5) (right upper tr unit variant : Bool) (s : State), s.slot = 7 → commandRoom s →
    let n := fld s.me.arch.fgeo 7 0
    let stride := fld s.me.arch.fgeo 31 8
    let job := fun (op : Nat) (opts : BitVec 4) => CmdOp.factor ⟨op, opts, low32 s a, s.me.arch.fgeo, s.me.arch.frhs,
      s.me.arch.fmt, s.rs b, s.me.splo, s.me.sphi, s.me.fprog.toNat, s.me.fperm, none⟩
    let v : BitVec 4 := if variant then 4 else 0
    let cols := fld s.me.arch.frhs 39 32 + 1
    1 ≤ n → n ≤ 128 → s.me.fprog.toNat < n → 4 * n ≤ stride → (low32 s a).toNat % 4 = 0 → (s.rs b).toNat % 4 = 0 →
    (s.me.chain (s.cur % 2)).isOpen = false →
    exec (.flu variant a b) s = .next (held s (job 0x76 v))
    ∧ exec (.fchol variant a b) s = .next (held s (job 0x77 v))
    ∧ (fld s.me.arch.frhs 31 0 % 4 = 0 → exec (.fqr a b) s = .next (held s (job 0x78 0)))
    ∧ (fld s.me.arch.frhs 31 0 % 4 = 0 → 4 * (if right then n else cols) ≤ stride →
        exec (.ftrsm right upper tr unit a b) s = .next (held s (job 0x79
          (BitVec.ofBool right ++ BitVec.ofBool upper ++ BitVec.ofBool tr ++ BitVec.ofBool unit))))

/-- R160, R161, R162, R184, R185, R263, R313, R330, R373: the commands of the copy, global and lifetime paths are held with
what they capture. -/
def Sys2Proof.Claims.PathCommandForms : Prop :=
  Directs Instr.gld 0 ∧ Directs Instr.gst 1 ∧ Directs Instr.gaadd 2 ∧ Directs Instr.gacas 3 ∧ Directs Instr.gaxch 4
    ∧ Directs Instr.gamax 5 ∧ Directs Instr.gamin 6
    ∧ ∀ (a b : BitVec 5) (s : State), s.slot = 7 → commandRoom s →
      (blockAt s a 64 64 → cpyOk (packetAt s a) = true →
        exec (.cpy a b) s = .next (held s (.cpy (packetAt s a) (low32 s a) (s.rs b))))
      ∧ (blockAt s a 64 64 → collOk (packetAt s a) = true → s.isPhased s.cur = false →
        exec (.coll a) s = .next (held s (.coll (packetAt s a) (low32 s a))))
      ∧ (blockAt s a 64 64 → wstrmOk (packetAt s a) s.me.arch.wbcfg = true →
        exec (.wstrm a) s = .next (held s (.wstrm (packetAt s a) (low32 s a) s.me.arch.wbcfg)))
      ∧ (let at_ := (low32 s a).toNat
        let n := (low32 s b).toNat
        n = 0 ∨ (0x10000000 ≤ at_ ∧ at_ < 0x14000000 ∧ (at_ - 0x10000000) / 1024 + n ≤ 65536) →
        exec (.lref a b) s = .next (held s (.lref ((at_ - 0x10000000) / 1024) n)))
      ∧ (0x10000000 ≤ (low32 s a).toNat → (low32 s a).toNat < 0x14000000 → blockAt s b 8 8 →
        exec (.lqry a b) s = .next (held s (.lqry (((low32 s a).toNat - 0x10000000) / 1024) (low32 s b))))
      ∧ (∀ access tier, exec (.phint access tier a b) s = .next (held s (.phint access tier (s.rs a) (s.rs b))))
      ∧ (s.isSupv s.cur = true → blockAt s a 64 64 → pmigOk (packetAt s a) s.edge.dev = true → pairOk (s.rs b) = true →
        exec (.pmig a b) s = .next (held s (.pmig (packetAt s a) (low32 s a) (s.rs b))))
      ∧ (s.isSupv s.cur = false → exec (.pmig a b) s = .next s.illegal)

/-- R143, R145: STRB of a legal descriptor binds an unbound name from the next tick on, STRU unbinds it, and of an unbound
name has no effect. -/
def Sys2Proof.Claims.StreamBindingResults : Prop :=
  (∀ (dir : Bool) (q : BitVec 3) (a : BitVec 5) (s : State), s.slot = 7 → commandRoom s →
    let d := packetAt s a
    blockAt s a 64 64 → streamOk d dir = true → AMap.find s.me.arch.streams q.toNat = none →
    (streamDec d = true → s.coreDec s.cur = false) → (dir = true → s.isPhased s.cur = false ∨ s.streamLeaves d = none) →
    exec (.strb dir q a) s = .next (held (s.setCtx s.cur { s.me with
      arch := { s.me.arch with streams := AMap.put s.me.arch.streams q.toNat ⟨d, dir, 0, s.me.serial, 0⟩ }
      units := AMap.del s.me.units q.toNat
      fetched := AMap.put s.me.fetched q.toNat 0
      fetchOff := AMap.put s.me.fetchOff q.toNat 0
      sqblock := AMap.del s.me.sqblock q.toNat }) (.strb q.toNat)))
  ∧ ∀ (q : BitVec 3) (s : State), s.slot = 7 →
    (AMap.find s.me.arch.streams q.toNat = none → exec (.stru q) s = .next s)
    ∧ (AMap.find s.me.arch.streams q.toNat ≠ none → commandRoom s → exec (.stru q) s = .next (held (s.setCtx s.cur { s.me with
        arch := { s.me.arch with streams := AMap.del s.me.arch.streams q.toNat }
        units := AMap.del s.me.units q.toNat }) (.stru q.toNat)))

/-- R239, R248: outside a handler a full gated buffer stalls its bundle while an older segment is unsealed, and raises
SEGOVF, 0x02, with detail 1 for a command, otherwise. In a handler a command is released at once, whatever the buffer holds,
and takes no entry; memory stays where no command in flight is of a saved context. Stated of PHINT, which every context may
issue. -/
def Obligations.FullGatedBuffer : Prop :=
  ∀ (access : HintAccess) (tier : HintTier) (a b : BitVec 5) (s : State), s.slot = 7 → s.iss.opened = false →
    32 ≤ commandEntries s →
    (s.me.intrap = false → (∃ e ∈ s.me.gated, e.seg < s.me.serial) →
      exec (.phint access tier a b) s = .next { s with iss := { s.iss with verdict := .stall } })
    ∧ (s.me.intrap = false → (∀ e ∈ s.me.gated, s.me.serial ≤ e.seg) → exec (.phint access tier a b) s = .next (s.raise ⟨0x02, 1, s.iss.parcel,
        s.slot, false, s.iss.rep, 0, false, s.me.arch.tick⟩))
    ∧ (s.me.intrap = true → ∃ t,
        exec (.phint access tier a b) s = .next t ∧ t = s.releaseCmd s.issuer (.phint access tier (s.rs a) (s.rs b))
          ∧ t.iss = s.iss ∧ t.me.gated = s.me.gated ∧ t.me.arch = s.me.arch
          ∧ ((∀ d ∈ s.cmds, AMap.find s.ce.saved d.by_.g = none) → t.mem = s.mem))

/-- R62 to R71: the word of every well-formed slot instruction decodes to it, and so does a parcel. -/
def Obligations.DecodeOfEncode : Prop :=
  ∀ i : Instr, (i.wf = true → i.isWord = true → decodeWord (encodeWord i) = some i)
    ∧ ∀ p, encodeParcel i = some p → decodeParcel p = some i

/-- R62, R71: a word that decodes is the word of the instruction it decodes to, so no two words mean one instruction, and
no bit of a word is ignored; the same of parcels. -/
def Obligations.EncodeOfDecode : Prop :=
  (∀ (w : BitVec 32) (i : Instr), decodeWord w = some i → i.wf = true ∧ encodeWord i = w)
    ∧ ∀ (p : BitVec 16) (i : Instr), decodeParcel p = some i → encodeParcel i = some p

/-- Example words of the spec decode to the instructions that the spec says they are. -/
def Obligations.ExampleWords : Prop :=
  decodeWord 0x04528001 = some (.addi 5 5 1)
    ∧ decodeWord 0x18530000 = some (.clz 5 6)
    ∧ decodeWord 0x18428003 = some (.brev 4 5)
    ∧ decodeWord 0x1C321400 = some (.cmov 3 4 5)
    ∧ decodeWord 0x1B354402 = some (.lea 19 10 17 2)
    ∧ decodeWord 0x0E518002 = some (.slli 5 3 2)
    ∧ decodeWord 0xF6001000 = some (.coll 4)
    ∧ decodeParcel 0x0142 = some (.print 5 2)
    ∧ decodeParcel 0x0004 = some (.print 0 4)
    ∧ decodeParcel 0x00C0 = some (.print 3 0)

/-- R38, R71: the meaning of a slot word inside its bundle is that of the instruction it decodes to, and a word that
decodes to nothing is ILLEGAL. -/
def Sys2Proof.Claims.SlotRunsItsWord : Prop :=
  ∀ (s : State) (k : Nat) (w : SlotWord),
    (∀ i t, decodeWord w = some i → exec i { s with slot := k } = .next t → s.runSlot k w = t)
    ∧ (decodeWord w = none → s.runSlot k w = ({ s with slot := k } : State).raise
        ⟨0x01, w, s.iss.parcel, k, false, s.iss.rep, 0, false, s.me.arch.tick⟩)

/-- R64, R71: a slot instruction in a slot that may not hold it is ILLEGAL, whatever its operands. -/
def Sys2Proof.Claims.WrongSlotIsIllegal : Prop :=
  ∀ (i : Instr) (s : State), i.isWord = true → s.slot < 8 → s.slot ∉ mayStand i → exec i s = .next s.illegal

/-- R30, R31, R48: what stands at the fetch position of the context that executes: the instruction of the parcel at its
parcel address, for a block with an entry in the signature table, in valid and unpoisoned rows, where the parcels it spans
do not straddle the end of an active loop. That a valid row group gives code whatever its class is the model's choice (log
entry 62). -/
def Sys2Proof.Claims.FetchReadsTheParcel : Prop :=
  ∀ (s : State) (i : Instr) (p : BitVec 16),
    let a := s.codeAddr s.cur s.me.arch.pc.toNat
    let key := ltsKey (clusterOf s.cur) (a - 0x10000000)
    s.myKernel s.cur ≠ none → (s.me.arch.crc ≠ none ∨ s.signatureOf s.cur s.me.arch.pc ≠ none) → 0x10000000 ≤ a → a + 2 ≤ 0x14000000 →
    s.poisoned key = false → (s.row (clusterOf s.cur) ((a - 0x10000000) / 1024)).valid = true →
    p = s.mem.read (key + 1) ++ s.mem.read key → decodeParcel p = some i →
    straddles s.me.arch.loops s.me.arch.pc.toNat (parcelSpan i) = false → s.fetch = .instr i

/-- R11, R31: a step of the machine at a context's turn runs the instruction at its fetch position by exec, then ends the
turn; it stops only where exec stops. The order of the turns, and of what comes between them, is the model's choice (log
entry 5). -/
def Sys2Proof.Claims.StepRunsTheFetched : Prop :=
  ∀ (s : State) (i : Instr), reaches s i →
    (∀ u, exec i s.atTurn = .next u → step s = .next (s.atTurn.endTurn u s.turnContext))
    ∧ (∀ f, exec i s.atTurn = .fault f → step s = .fault f)
    ∧ ∀ r, exec i s.atTurn ≠ .refused r

/-- R33, R37, R39, R331: PRINT of the empty bundle, in a context with nothing pending, no loop, and a signature that does
not end here, issues in one tick: TICK and the repetition or the parcel address advance, and no register, no memory and
no other context changes. -/
def Sys2Proof.Claims.PrintOfTheEmptyBundle : Prop :=
  ∀ (k : BitVec 6) (s : State), s.me.arch.pend = [] → s.me.arch.shadow = [] → s.me.arch.loops = [] →
    s.me.arch.fenced = false → s.me.bracket = none → (s.cmds.all fun d => d.by_.g != s.cur) = true →
    ((s.core (coreOf s.cur)).bnWrites.all fun w => w.1 != s.cur) = true →
    ∃ t, exec (.print 0 k) s = .next t ∧ sameOutside s t ∧ t.iss.verdict = .ok
      ∧ t.me.arch.tick = s.me.arch.tick + 1
      ∧ t.me.arch.pc = (if s.me.arch.printRep < k.toNat then s.me.arch.pc else s.me.arch.pc + 1)
      ∧ t.me.arch.printRep = (if s.me.arch.printRep < k.toNat then s.me.arch.printRep + 1 else 0)
      ∧ t.me.arch.sreg = s.me.arch.sreg ∧ t.me.arch.vreg = s.me.arch.vreg ∧ t.me.arch.preg = s.me.arch.preg
      ∧ t.me.arch.flags = s.me.arch.flags ∧ t.me.arch.fmt = s.me.arch.fmt ∧ t.me.gated = s.me.gated

/-- R33, R37, R39, R331: a PRINT of any plate runs the eight words of the plate, those of plate 0 being zero, each in its slot in
order, on the context with its due writes landed; if none stalls or raises and its block's signature fits, one repetition has
issued. For a plate whose words compute in registers alone, no stream being bound, that is one tick: the parcel address stays
and the repetition advances until the last of the k + 1, after which the next parcel follows, and no byte of memory changes. -/
def Sys2Proof.Claims.PrintRunsItsPlate : Prop :=
  ∀ (n : BitVec 9) (k : BitVec 6) (s : State),
    let plate : BitVec 256 := if n = 0 then 0 else AMap.get 0 (s.core (coreOf s.cur)).plates n.toNat
    let words : List SlotWord := (List.range 8).map fun i => plate.extractLsb' (32 * i) 32
    let s0 : State := { s with iss := { Issue.reset with
      parcel := s.me.arch.pc, size := 1, rep := s.me.arch.printRep, reps := k.toNat + 1, words := words } }
    let s2 := (s0.modCtx s.cur Ctx.land).runSlots 0 words
    s.me.arch.fenced = false → s0.waits = false → s2.iss.verdict = .ok → s2.badSignature = none →
    exec (.print n k) s = .next ((s2.complete 0).orderPushes s.cur s.me.arch.streams)
    ∧ (s.me.arch.streams = [] →
      (∀ j w, words[j]? = some w → w = 0 ∨ ∃ i, decodeWord w = some i ∧ j ∈ mayStand i ∧ j ≠ 0 ∧ j ≠ 3 ∧ j ≠ 7) →
      ∃ t, exec (.print n k) s = .next t ∧ t.mem = s.mem ∧ t.me.arch.tick = s.me.arch.tick + 1
        ∧ (s.me.arch.printRep < k.toNat → t.me.arch.pc = s.me.arch.pc ∧ t.me.arch.printRep = s.me.arch.printRep + 1
          ∧ t.me.arch.loops = s.me.arch.loops)
        ∧ (k.toNat ≤ s.me.arch.printRep → t.me.arch.printRep = 0
          ∧ (s.me.arch.loops = [] → t.me.arch.pc = s.me.arch.pc + 1)))

/-- R32, R34, R37: a full bundle runs the eight words of the sixteen parcels after its header, each in its slot in order,
on the context with its due writes landed; if none stalls or raises and its block's signature fits, the bundle has issued, and
prefetched units that no longer agree with what its pushes wrote are read again. -/
def Sys2Proof.Claims.FullBundleRunsItsWords : Prop :=
  ∀ (e : BitVec 9) (s : State) (ps : List (BitVec 16)), s.readParcels (s.me.arch.pc.toNat + 1) 16 = .ok ps →
    let s0 : State := { s with iss := { Issue.reset with
      parcel := s.me.arch.pc, size := 17, rep := s.me.arch.printRep, reps := 1, words := pairParcels ps } }
    let s2 := (s0.modCtx s.cur Ctx.land).runSlots 0 (pairParcels ps)
    s.me.arch.fenced = false → s0.waits = false → s2.iss.verdict = .ok → s2.badSignature = none →
    exec (.fullBundleHeader e) s = .next ((s2.complete e.toNat).orderPushes s.cur s.me.arch.streams)

/-- R12, R206, R248: what a bundle writes to near store at its issue, by a near atomic or in a handler, is in memory when both
contexts of its core have had their turn of the cycle: no read of the sibling's bundle of that cycle sees it. That nothing comes
between the two turns is the model's choice (log entry 5). -/
def Sys2Proof.Claims.NearWritesLandAfterBothTurns : Prop :=
  (∀ (s : State) (l : List (Nat × GatedItem)) (g a : Nat), ({ s with late := l } : State).nearByte g a = s.nearByte g a)
  ∧ (∀ (s : State) (e : Nat), s.iss.after = none → s.iss.eret = false → s.iss.direct ≠ [] →
    let t := s.complete e
    t.mem = s.mem ∧ ∃ l, t.late = s.late ++ (s.cur, .store s.iss.direct) :: l ∧ (s.iss.atomic = false → l = []))
  ∧ (∀ (before after : State) (g : Nat), before.turn % 2 = 0 →
    (before.endTurn after g).mem = after.mem ∧ (before.endTurn after g).late = after.late)
  ∧ ∀ (s : State) (g a : Nat) (b : Byte), s.late = [(g, .store [(a, b)])] → s.turn % 2 = 1 → s.turn < 96 →
    s.issues s.turnContext = false → nearKey (coreOf g) a < 0x10000000 →
    ∃ t, step s = .next t ∧ t.late = [] ∧ t.turn = s.turn + 1 ∧ t.mem.read (nearKey (coreOf g) a) = b

/-- R7, R71, R246: a bundle in which a slot raises a cause has no effect of its own: what remains is the cause raised on the
state before the bundle. -/
def Obligations.RaisingBundleHasNoEffect : Prop :=
  ∀ (s : State) (words : List SlotWord) (size reps e : Nat) (c : Cause),
    let s0 : State := { s with iss := { Issue.reset with
      parcel := s.me.arch.pc, size := size, rep := s.me.arch.printRep, reps := reps, words := words } }
    let s1 := s0.modArch s.cur fun a => { a with fenced := false }
    s0.waits = false → s.me.arch.fenced = false →
    ((s1.modCtx s.cur Ctx.land).runSlots 0 words).iss.verdict = .raised c →
    s.issueBundle words size reps e = s1.raise c

/-- R40, R41: a pending scalar write that is due, the only one, is in its register after landing, and one of s0 is
discarded; every other scalar, the vectors and the predicates stay. -/
def Sys2Proof.Claims.ScalarLanding : Prop :=
  ∀ (c : Ctx) (p : Pending), c.arch.pend = [p] → p.file = .scalar → p.mask = fullScalar → p.tick ≤ c.arch.tick →
    c.land.arch.pend = []
      ∧ c.land.arch.s p.num = (if p.num = 0 then 0 else BitVec.ofNat 64 p.val.toNat)
      ∧ (∀ r, r ≠ p.num → c.land.arch.s r = c.arch.s r)
      ∧ c.land.arch.vreg = c.arch.vreg ∧ c.land.arch.preg = c.arch.preg ∧ c.land.arch.flags = c.arch.flags

/-- R41: of the writes that are due and change a bit of one register, the one that lands last, and of those of one landing tick
the later issued, and of those of one bundle that of the higher slot, decides the bit. Pending writes stand in the order of
their issue. -/
def Sys2Proof.Claims.LandingOrder : Prop :=
  ∀ (c : Ctx) (p : Pending), (c.arch.pend.Pairwise fun x y => x.issued < y.issued ∨ (x.issued = y.issued ∧ x.slot ≤ y.slot)) →
    p ∈ c.arch.pend → p.tick ≤ c.arch.tick →
    let decides := fun (same : Pending → Prop) => ∀ x ∈ c.arch.pend, x ≠ p → x.file = p.file → x.num = p.num → same x →
      x.tick ≤ c.arch.tick → x.tick < p.tick ∨ (x.tick = p.tick ∧ (x.issued < p.issued ∨ (x.issued = p.issued ∧ x.slot < p.slot)))
    (p.file = .scalar → p.num ≠ 0 → ∀ j, j < 64 → p.mask.getLsbD j = true → decides (fun x => x.mask.getLsbD j = true) →
      (c.land.arch.s p.num).getLsbD j = p.val.getLsbD j)
    ∧ (p.file = .vector → ∀ j, j < 2048 → p.mask.getLsbD (j / 8) = true → decides (fun x => x.mask.getLsbD (j / 8) = true) →
      (c.land.arch.v p.num).getLsbD j = p.val.getLsbD j)
    ∧ (p.file = .predicate → p.num ≠ 0 → ∀ j, j < 256 → p.mask.getLsbD j = true → decides (fun x => x.mask.getLsbD j = true) →
      (c.land.arch.p p.num).getLsbD j = p.val.getLsbD j)
    ∧ (p.file = .control → p.num = 0x006 → decides (fun _ => True) → c.land.arch.tvec = p.val.truncate 32)

/-- R51: a landing vector write changes exactly the bytes of its mask. -/
def Sys2Proof.Claims.VectorLanding : Prop :=
  ∀ (c : Ctx) (p : Pending) (j : Nat), p.file = .vector → j < 2048 →
    ((c.landOne p).arch.v p.num).getLsbD j
      = (if p.mask.getLsbD (j / 8) then p.val.getLsbD j else (c.arch.v p.num).getLsbD j)

/-- R41, R50: s0 reads as zero and p0 as all ones in every state, and a landing write of either changes nothing. -/
def Sys2Proof.Claims.HardwiredRegisters : Prop :=
  ∀ (c : Ctx) (p : Pending),
    c.arch.s 0 = 0 ∧ c.arch.p 0 = BitVec.allOnes 256
      ∧ (p.num = 0 → p.file = .scalar ∨ p.file = .predicate → c.landOne p = c)

/-- R40 to R42, R288: the instructions of slots S and T change no register at their issue: their results are pending writes
after those that were pending, each of the destination register or of FLAGS, and everything else of the machine stays. -/
def Obligations.ScalarFrame : Prop :=
  ∀ (i : Instr) (s t : State), i.isWord = true → i ≠ .nop → mayStand i = [1, 2] → inSlotST s → exec i s = .next t →
    onlyMine s t ∧ t.iss = s.iss ∧ ∃ l : List Pending,
      t.me = { s.me with arch := { s.me.arch with pend := s.me.arch.pend ++ l } }
        ∧ ∀ p ∈ l, s.me.arch.tick < p.tick ∧ (p.file = .flagSet
          ∨ (p.file = .scalar ∧ p.num = ((encodeWord i).extractLsb' 20 5 : BitVec 5).toNat ∧ p.num ≠ 0))

/-- R40 to R42, R51, R88: the instructions of slots V, W and X, where no vector register's name is a stream, change no
register at their issue but RNGCTR: their results are pending writes after those that were pending, each of a destination of
the instruction or of FLAGS. Everything else of the machine stays; only a VBNET with a stencil under way (R296) uses a free
choice. -/
def Obligations.VectorFrame : Prop :=
  ∀ (i : Instr) (s t : State), i.isWord = true → (∃ k ∈ mayStand i, k = 4 ∨ k = 5 ∨ k = 6) → i ≠ .nop →
    (∀ w, i ≠ .illegalWord w) → s.slot ∈ mayStand i → s.me.arch.streams = [] → t.iss.verdict = .ok →
    s.iss.verdict = .ok → exec i s = .next t →
    sameOutside s t ∧ t.slot = s.slot ∧ t.iss = s.iss ∧ ((∀ d a b k, i ≠ .vbnet d a b k) → t.choice = s.choice)
      ∧ ∃ (l : List Pending) (n : Word), (n = 0 ∨ n = 1)
        ∧ t.me = { s.me with arch := { s.me.arch with pend := s.me.arch.pend ++ l, rngctr := s.me.arch.rngctr + n } }
        ∧ ∀ p ∈ l, lands s i p

/-- R137, R139, R206, R239: outside a handler an instruction of slot M that issues changes no byte of memory and no other
context. Of its own context it adds pending writes of its destination or of FLAGS and, a store, one entry to the gated
buffer, of exactly the bytes of its operand at the addresses of its form that lie in the window; the stack instructions move
STKTOP; SPVIO takes the first address out of range (log entry 25). A near atomic leaves for its bundle the bytes of the new
value at its address. Everything else stays. -/
def Sys2Proof.Claims.SlotMFrame : Prop :=
  ∀ (i : Instr) (s t : State), i.isWord = true → mayStand i = [3] → s.slot = 3 → s.me.arch.streams = [] →
    s.me.intrap = false → s.iss.verdict = .ok → t.iss.verdict = .ok → exec i s = .next t →
    onlyMine s t ∧ ∃ (l : List Pending) (m : List Gated),
      t.me = { s.me with
        arch := { s.me.arch with pend := s.me.arch.pend ++ l, stktop := t.me.arch.stktop, spvio := t.me.arch.spvio }
        gated := s.me.gated ++ m }
      ∧ (∀ p ∈ l, lands s i p)
      ∧ (storesNear i = false → m = [])
      ∧ (storesNear i = true → m = [⟨s.me.serial, s.me.arch.tick, .store ((postedCells s i).filter fun p =>
        s.me.splo.toNat ≤ p.1 ∧ p.1 ≤ s.me.sphi.toNat)⟩])
      ∧ (stackForm i = false → t.me.arch.stktop = s.me.arch.stktop)
      ∧ ((∀ p ∈ l, p.file ≠ .flagSet) → t.me.arch.spvio = s.me.arch.spvio)
      ∧ t.iss = { s.iss with direct := s.iss.direct ++ directCells s i, atomic := s.iss.atomic || nearAtomicForm i }

/-- R137, R239: outside a handler an instruction of slot C that raises nothing changes no memory at its issue. But for
SPAWN it changes no other context, and of its own only this: pending writes (CRD, CWR, JMP, JMPR, and SPV of ENGRAVE and
BNSET with SPVIO), the shadow of FMT (SETFMT), the gated buffer (TRIG, FENCE, and with FENCE the wait of the next bundle),
the proofs (PROOF) and the arrival (VIGIL). The stores of the core change by ENGRAVE and BNSET alone, a free choice with
BNSET. -/
def Sys2Proof.Claims.SlotCFrame : Prop :=
  ∀ (i : Instr) (s t : State), i.isWord = true → mayStand i = [0] → s.slot = 0 → s.me.intrap = false →
    s.iss.verdict = .ok → (∀ c, t.iss.verdict ≠ .raised c) → exec i s = .next t →
    t.mem = s.mem ∧ t.poison = s.poison
      ∧ ((∀ x y n k, i ≠ .spawn x y n k) → sameOutside { s with cores := t.cores } t ∧ t.slot = s.slot
        ∧ t.me = { s.me with
            arch := { s.me.arch with
              pend := t.me.arch.pend, shadow := t.me.arch.shadow, fenced := t.me.arch.fenced, spvio := t.me.arch.spvio }
            gated := t.me.gated, serial := t.me.serial, unsealed := t.me.unsealed, proofpc := t.me.proofpc
            arrival := t.me.arrival }
        ∧ (∃ l, t.me.arch.pend = s.me.arch.pend ++ l)
        ∧ (t.me.arch.pend = s.me.arch.pend ∨ ∃ x y c r z k m,
          i = .crd x r ∨ i = .cwr x r ∨ i = .jmp x m ∨ i = .jmpr x y ∨ i = .engrave x y c ∨ i = .bnset z k)
        ∧ ((∀ x, i ≠ .setfmt x) → t.me.arch.shadow = s.me.arch.shadow)
        ∧ ((∀ x y c, i ≠ .engrave x y c) → (∀ x k, i ≠ .bnset x k) → t.cores = s.cores ∧ t.me.arch.spvio = s.me.arch.spvio)
        ∧ ((∀ x k, i ≠ .bnset x k) → t.choice = s.choice)
        ∧ ((∀ a b c o, i ≠ .fence a b c o) → t.me.arch.fenced = s.me.arch.fenced ∧ (i ≠ .trig → t.me.gated = s.me.gated))
        ∧ ((∀ c, i ≠ .proof c) → t.me.serial = s.me.serial ∧ t.me.unsealed = s.me.unsealed ∧ t.me.proofpc = s.me.proofpc)
        ∧ ((∀ x v, i ≠ .vigil x v) → t.me.arrival = s.me.arrival)
        ∧ ∀ h, h ≠ coreOf s.cur → t.core h = s.core h)

/-- R58, R106, R143, R239: outside a handler an instruction of slot E that raises nothing changes no memory, no register, no
other context and no command in flight at its issue: a command takes one entry of the gated buffer, with its issuer. EWR
writes an engine register (ERNG at the end of the cycle), ERD adds a pending write, a matrix command keeps the book of its
chain and the kind of its bank, and STRB and STRU bind and unbind their stream. Everything else stays. -/
def Sys2Proof.Claims.SlotEFrame : Prop :=
  ∀ (i : Instr) (s t : State), i.isWord = true → mayStand i = [7] → s.slot = 7 → s.me.intrap = false →
    s.iss.verdict = .ok → (∀ c, t.iss.verdict ≠ .raised c) → exec i s = .next t →
    sameOutside { s with cores := t.cores } t ∧ t.slot = s.slot ∧ t.choice = s.choice
      ∧ (∀ h, h ≠ coreOf s.cur → t.core h = s.core h)
      ∧ (t.core (coreOf s.cur)) = { s.core (coreOf s.cur) with
          erngNext := (t.core (coreOf s.cur)).erngNext, kinds := (t.core (coreOf s.cur)).kinds }
      ∧ t.me = { s.me with
          arch := { s.me.arch with
            pend := t.me.arch.pend, mgeo := t.me.arch.mgeo, mlim := t.me.arch.mlim, mgcfg := t.me.arch.mgcfg
            wbcfg := t.me.arch.wbcfg, fgeo := t.me.arch.fgeo, frhs := t.me.arch.frhs, streams := t.me.arch.streams
            chains := t.me.arch.chains }
          fprog := t.me.fprog, gated := t.me.gated, units := t.me.units, fetched := t.me.fetched
          fetchOff := t.me.fetchOff, sqblock := t.me.sqblock }
      ∧ (∃ m : List Gated, t.me.gated = s.me.gated ++ m
        ∧ (m = [] ∨ ∃ op, m = [⟨s.me.serial, s.me.arch.tick, .cmd op s.issuer⟩]))
      ∧ ((∀ r a, i ≠ .ewr r a) → t.me.fprog = s.me.fprog ∧ t.me.arch.mgeo = s.me.arch.mgeo
        ∧ t.me.arch.mlim = s.me.arch.mlim ∧ t.me.arch.mgcfg = s.me.arch.mgcfg ∧ t.me.arch.wbcfg = s.me.arch.wbcfg
        ∧ t.me.arch.fgeo = s.me.arch.fgeo ∧ t.me.arch.frhs = s.me.arch.frhs
        ∧ (t.core (coreOf s.cur)).erngNext = (s.core (coreOf s.cur)).erngNext)
      ∧ ((∀ a r, i ≠ .erd a r) → t.me.arch.pend = s.me.arch.pend)
      ∧ (chainForm i = false → t.me.arch.chains = s.me.arch.chains
        ∧ (t.core (coreOf s.cur)).kinds = (s.core (coreOf s.cur)).kinds)
      ∧ ((∀ d q a, i ≠ .strb d q a) → (∀ q, i ≠ .stru q) → t.me.arch.streams = s.me.arch.streams
        ∧ t.me.units = s.me.units ∧ t.me.fetched = s.me.fetched ∧ t.me.fetchOff = s.me.fetchOff
        ∧ t.me.sqblock = s.me.sqblock)

/-- R246, R247, R248, R251: a cause of TRAP, BKPT or LTSEXP taken outside a handler with a good TSTK: the trap registers,
INTRAP, s30 and s31 saved at TSTK, s31 at TSTK, the handler at TVEC with no loop, repetition or block under way; the
pending writes are kept for the return, and the causes that are pending wait for the handler's end. No other byte of memory, no other register and no other context changes. TVEC and
TSTK are those with the writes that land at the entry's boundary (R302). -/
def Sys2Proof.Claims.TrapEntryForms : Prop :=
  ∀ (s : State) (g : Nat) (c : Cause), (s.ctx g).intrap = false → c.code = 0x10 ∨ c.code = 0x11 ∨ c.code = 0x21 →
    goodTstk (s.ctx g).land →
    let x := s.ctx g
    let t := s.take g c
    trapRegisters c x.arch.pc (t.ctx g) ∧ entered s t g x
      ∧ (t.ctx g).arch.pend = [] ∧ (∃ e, (t.ctx g).entry = some e ∧ e.pend = some x.arch.pend)
      ∧ (t.ctx g).unsealed = x.unsealed ∧ (t.ctx g).captured = x.captured ∧ (t.ctx g).serial = x.serial
      ∧ (t.ctx g).causes = [] ∧ (t.ctx g).waiting.Perm (x.waiting ++ x.causes)
      ∧ ∀ h, h ≠ g → t.ctx h = s.ctx h

/-- R243, R244, R246, R247, R248: any other cause first rewinds its context to the newest captured proof: the handler runs
on the registers of that proof, TRAPPC is its parcel address, and the entries and proofs of later segments are discarded;
the state is otherwise that of trap entry, and no context changes but those that a discarded SPAWN had claimed. -/
def Sys2Proof.Claims.TrapEntryRewinds : Prop :=
  ∀ (s : State) (g : Nat) (c : Cause) (p : Capture), (s.ctx g).intrap = false → c.toSealed = false →
    c.code ≠ 0x10 → c.code ≠ 0x11 → c.code ≠ 0x21 → (s.ctx g).newest = some p →
    goodTstk ({ s.ctx g with arch := p.arch } : Ctx).land →
    let x : Ctx := { s.ctx g with arch := p.arch, gated := (s.ctx g).gated.filter fun e => e.seg < p.serial }
    let t := s.take g c
    trapRegisters c p.arch.pc (t.ctx g) ∧ entered s t g x
      ∧ (t.ctx g).arch.pend = p.arch.pend ∧ (∃ e, (t.ctx g).entry = some e ∧ e.pend = none)
      ∧ (t.ctx g).serial = p.serial ∧ (t.ctx g).units = []
      ∧ ∀ h, h ≠ g → (∀ x ∈ s.ctxs, x.1 = h → x.2.startSeg = none) → t.ctx h = s.ctx h

/-- R249: a synchronous cause in a handler, and trap entry with a TSTK that is misaligned or whose 16 bytes leave the
window, are double faults: the context is HALTED with its cause in DFCAUSE (of a bad TSTK, ILLEGAL with TSTK as its detail),
its registers stay as the fate of its cause has left them, no handler is entered, and nothing is written at TSTK. -/
def Obligations.DoubleFaults : Prop :=
  (∀ (s : State) (g : Nat) (c : Cause), (s.ctx g).intrap = true → c.code ≠ 0x21 →
    ((s.take g c).ctx g).state = .halted
      ∧ ((s.take g c).ctx g).dfcause.toNat = c.code % 2 ^ 32 + c.detail.toNat * 2 ^ 32
      ∧ ((s.take g c).ctx g).arch = (s.ctx g).arch
      ∧ ∀ a, a < 0x10000000 → (s.take g c).mem.read a = s.mem.read a)
  ∧ (∀ (s : State) (g : Nat) (c : Cause), (s.ctx g).intrap = false → c.code = 0x10 ∨ c.code = 0x11 ∨ c.code = 0x21 →
    ¬goodTstk (s.ctx g).land →
    ((s.take g c).ctx g).state = .halted ∧ ((s.take g c).ctx g).arch = (s.ctx g).arch
      ∧ ((s.take g c).ctx g).dfcause.toNat = 1 + (s.ctx g).land.arch.tstk.toNat * 2 ^ 32
      ∧ ∀ a, a < 0x10000000 → (s.take g c).mem.read a = s.mem.read a)
  ∧ ∀ (s : State) (g : Nat) (c : Cause) (p : Capture), (s.ctx g).intrap = false → c.toSealed = false →
    c.code ≠ 0x10 → c.code ≠ 0x11 → c.code ≠ 0x21 → (s.ctx g).newest = some p →
    ¬goodTstk ({ s.ctx g with arch := p.arch } : Ctx).land →
    ((s.take g c).ctx g).state = .halted ∧ ((s.take g c).ctx g).arch = p.arch
      ∧ ((s.take g c).ctx g).dfcause.toNat = 1 + ({ s.ctx g with arch := p.arch } : Ctx).land.arch.tstk.toNat * 2 ^ 32
      ∧ ∀ a, a < 0x10000000 → (s.take g c).mem.read a = s.mem.read a

/-- R247, R248, R250: leaving the handler that a TRAP entered, with nothing changed in it, brings back the parcel address, every
scalar, the loops, the repetition, the block's state, FMT, TICK and the pending writes of the context, with every cause that was pending at the entry, and clears INTRAP. -/
def Obligations.ReturnUndoesEntry : Prop :=
  ∀ (s : State) (g : Nat) (c : Cause), (s.ctx g).intrap = false → c.code = 0x10 ∨ c.code = 0x11 →
    goodTstk (s.ctx g).land → journalOff s ∨ tstkKey (s.ctx g).land g + 16 ≤ 0x10000000 →
    let x := s.ctx g
    let y := (((s.take g c).modCtx g fun z => { z with arch := { z.arch with pend := [] } }).leaveHandler g).ctx g
    y.intrap = false ∧ y.arch.pc = x.arch.pc ∧ (∀ r, y.arch.s r = x.arch.s r) ∧ y.arch.loops = x.arch.loops
      ∧ y.arch.printRep = x.arch.printRep ∧ y.arch.crc = x.arch.crc ∧ y.arch.fmt = x.arch.fmt ∧ y.arch.tick = x.arch.tick
      ∧ y.causes.Perm (x.waiting ++ x.causes) ∧ y.waiting = []
      ∧ y.arch.rngctr = x.arch.rngctr ∧ y.arch.pend = x.arch.pend ∧ y.arch.vreg = x.arch.vreg ∧ y.arch.flags = x.arch.flags

/-- R17, R216: the machine right after reset: no queue runs, no context is at work, no command is in flight, nothing is listed
in memory, and FMT of every context is 0xC000 (R60). That memory reads as zero is the model's choice (log entry 2), and so are
the values of the other registers (log entry 3). -/
def Obligations.ResetState : Prop :=
  (∀ g, (State.reset.ctx g).state = .idle ∧ (State.reset.ctx g).arch.fmt = 0xC000 ∧ (State.reset.ctx g).intrap = false)
    ∧ (∀ q, (State.reset.queue q).running = false) ∧ State.reset.cmds = [] ∧ State.reset.ce.kernels = []
    ∧ State.reset.cycle = 0 ∧ ∀ a, State.reset.mem.read a = 0

/-- The memory of the reset state stands in its canonical form. -/
def Obligations.ResetMemoryForm : Prop := Inv State.reset

/-- Every step of the machine keeps the memory in its canonical form: addresses rising, no byte listed that reads as an
unlisted one does; so equal memories are equal data. -/
def Obligations.StepsKeepTheMemoryForm : Prop :=
  ∀ s t : State, Inv s → step s = .next t → Inv t

/-- R30, R135: the machine stops in no other way than by a fetch of code outside the LTS: no step is refused, and in one that
faults the context that fetches, the one whose turn it is or the one that a debugger steps, has a kernel whose code at the
parcel address and the 34 bytes of a full bundle from there do not lie in 0x10000000 to 0x13FFFFFF. The spec gives such a
fetch no effect; that the machine stops there is the model's choice (log entry 34). -/
def Obligations.NoStepIsRefused : Prop :=
  ∀ (s : State), (∀ r, step s ≠ .refused r) ∧ ∀ f, step s = .fault f → f = .fetchOutsideLts ∧ ∃ g k, fetches s g
    ∧ s.myKernel g = some k
    ∧ let a := k.codeBase + 2 * (s.ctx g).arch.pc.toNat
      a < 0x10000000 ∨ 0x14000000 < a + 34

/-- Memory in its canonical form is determined by what it reads as. -/
def Sys2Proof.Claims.MemoryIsItsBytes : Prop :=
  ∀ m n : Memory, m.wf → n.wf → (∀ a, m.read a = n.read a) → m = n

/-- R193: bytes written in order to distinct addresses read back, and every other byte stays. -/
def Sys2Proof.Claims.WrittenBytesReadBack : Prop :=
  ∀ (s : State) (cells : List (Nat × Byte)), (cells.map Prod.fst).Nodup →
    (∀ a b, (a, b) ∈ cells → (s.writeCells cells).mem.read a = b)
      ∧ (∀ a, a ∉ cells.map Prod.fst → (s.writeCells cells).mem.read a = s.mem.read a)
      ∧ ∀ g, (∀ i, i < 64 → g * 64 + i ∈ cells.map Prod.fst) → g ∉ (s.writeCells cells).poison

/-- R129, R193: a write of less than a granule that cannot be read leaves it poisoned, with the new bytes merged, though it was
flawed alone; so does a store to near store, at its seal. -/
def Sys2Proof.Claims.PartialWritesPoison : Prop :=
  (∀ (s : State) (cells : List (Nat × Byte)) (g : Nat), journalOff s → g ∈ s.poison → (∃ c ∈ cells, c.1 / 64 = g) →
    (∃ i, i < 64 ∧ g * 64 + i ∉ cells.map Prod.fst) →
    let t := s.mergeCells cells
    g ∈ t.poison ∧ g ∉ t.flawed ∧ t.mem = (s.writeCells cells).mem)
  ∧ ∀ (s : State) (g : Nat) (bs : List (Nat × Byte)),
    s.releaseItem g (.store bs) = s.mergeCells (bs.map fun p => (nearKey (coreOf g) p.1, p.2))

/-- R189, R190, R191, R192: a channel's retirement is recorded once and journalled; a retraining begins, and ends with the
deferred granules of its group rebuilt; a second failure poisons the granules it names that lie in the channel's group. An
activation counts in its bank's tracker, takes the place of an entry that stands at the spill count, or raises the spill
count; at the threshold the rows around it are refreshed and its count returns to the spill count. A refresh window clears
the tracker. Nothing else of the machine changes. That these events come from the environment, the granules of a second
failure with them, and that channel ch is in group ch / 16 is the model's choice (log entries 47, 49, 53). -/
def Obligations.MemoryHardwareEvents : Prop :=
  (∀ (ch : Nat) (s : State),
      (ch < 256 → (s.channel ch).retired = false → journalOff s → exec (.channelRetirement ch) s = .next (numbered
        (withChannel s ch { s.channel ch with retired := true })))
      ∧ (256 ≤ ch ∨ (s.channel ch).retired = true → exec (.channelRetirement ch) s = .next s))
  ∧ (∀ (ch : Nat) (s : State), ch < 256 →
      exec (.channelRetrain ch .start) s = .next (withChannel s ch { s.channel ch with training := true })
      ∧ (∃ d, exec (.channelRetrain ch .finish) s = .next
          { withChannel s ch { s.channel ch with training := false } with deferred := d }
        ∧ ∀ g, g ∈ d ↔ g ∈ s.deferred ∧ groupOf (64 * g) ≠ some (ch / 16))
      ∧ ∀ granules, ((s.channel ch).training = false → exec (.channelRetrain ch (.secondFailure granules)) s = .next s)
        ∧ ((s.channel ch).training = true → s.edge.frames ≤ 228880 → ∃ t p f,
          exec (.channelRetrain ch (.secondFailure granules)) s = .next t ∧ t = { s with poison := p, flawed := f }
          ∧ ∀ g, g ∈ p ↔ g ∈ s.poison ∨ ∃ a ∈ granules, a / 0x200000 < s.edge.frames ∧ a / 0x200000 % 16 = ch / 16
            ∧ g = physKey a / 64))
  ∧ (∀ (bank row : Nat) (s : State),
      let u := AMap.get ⟨[], 0, []⟩ s.edge.trackers bank
      let th := fld s.edge.hbmrh 15 0
      let br := fld s.edge.hbmrh 18 16
      let held := u.rows.find? fun p => p.1 == row
      let spare := u.rows.find? fun p => p.2 == u.spill
      let put (l : List (Nat × Nat)) (r n : Nat) := l.map fun p => if p.1 = r then (row, n) else p
      ∃ v : Tracker, exec (.rowActivation bank row) s = .next { s with edge := { s.edge with
          trackers := AMap.put s.edge.trackers bank v } }
        ∧ (∀ p, held = some p → p.2 + 1 < th → v = { u with rows := put u.rows row (p.2 + 1) })
        ∧ (∀ p, held = some p → th ≤ p.2 + 1 → v.rows = put u.rows row u.spill ∧ v.spill = u.spill
          ∧ ∀ x, x ∈ v.refreshed ↔ x ≠ row ∧ row ≤ x + br ∧ x ≤ row + br)
        ∧ (held = none → u.rows.length < 16 → u.spill = 0 → 2 ≤ th → v = { u with rows := u.rows ++ [(row, 1)] })
        ∧ (∀ p, held = none → 16 ≤ u.rows.length → spare = some p → u.spill + 1 < th →
          v = { u with rows := put (put u.rows p.1 u.spill) row (u.spill + 1) })
        ∧ (held = none → 16 ≤ u.rows.length → spare = none → v = { u with spill := u.spill + 1 }))
  ∧ ∀ (bank : Nat) (s : State), exec (.refreshWindow bank) s = .next { s with edge := { s.edge with
      trackers := AMap.put s.edge.trackers bank ⟨[], 0, []⟩ } }

/-- R155, R156, R216, R265 to R268, R270: a device reset stops every queue and context and keeps the bytes of main memory and
the configuration record; a cold start with a firmware or a record that does not verify leaves the device in reset, and
else goes through its steps, of which the last lets the queues be read and training retires the channels that fail; standby
and the capped state change PSTATE, standby while no queue is RUNNING and with every row group outside LC7 invalidated; two
partners settle on the version 1.0, or with no common major on none, which is journalled; a quote is signed over the nonce
and the measurement unless the device is in reset. That a device reset keeps main memory and the time, that memory reads as
zero after a start, and when its steps end are the model's choices (log entries 31, 2, 70), and so are the kind of the
journal's entry, the hash and the signature (log entries 47, 16). -/
def Obligations.DeviceEvents : Prop :=
  (∀ s : State, ∃ t, exec .deviceReset s = .next t ∧ t.ctxs = [] ∧ t.cmds = [] ∧ t.ce = State.reset.ce
      ∧ (∀ c, c < 12 → t.cluster c = { Cluster.reset with since := s.cycle })
      ∧ t.cores = [] ∧ t.cycle = s.cycle ∧ t.edge.frames = s.edge.frames ∧ t.edge.dev = s.edge.dev
      ∧ ∀ pa, t.mem.read (physKey pa) = s.mem.read (physKey pa))
  ∧ (∀ (b : BootChecks) (s : State), ∃ t, exec (.coldStart b) s = .next t ∧ t.ctxs = [] ∧ t.mem = [] ∧ t.poison = []
      ∧ t.edge.boot = (if b.firmwareOk ∧ b.recordOk then 2 else 1) ∧ t.edge.locked = true
      ∧ t.edge.frames = s.edge.frames ∧ t.edge.dev = s.edge.dev ∧ t.cycle = s.cycle
      ∧ t.edge.measured = if b.firmwareOk ∧ b.recordOk then measurement b.rom b.images else 0)
  ∧ (∀ s : State, (s.edge.boot = 2 → bootStep s = .next { s with edge := { s.edge with boot := 3, locked := true } })
      ∧ (s.edge.boot = 3 → ∃ t, bootStep s = .next t ∧ t.edge.boot = 4 ∧ t.edge.locked = true
        ∧ ∀ ch, ch < 256 → (t.channel ch).retired = ((s.channel ch).retired || !Config.channelPasses s.cycle ch))
      ∧ (s.edge.boot = 4 → ∃ t, bootStep s = .next t ∧ t.edge = { s.edge with boot := 5, locked := false }
        ∧ ∀ c, c < 12 → t.cluster c = { Cluster.reset with since := s.cycle }))
  ∧ (∀ s : State, (s.edge.locked = true ∨ (∃ q ∈ s.ce.queues, q.2.running = true) → exec .standbyEntry s = .next s)
      ∧ (s.edge.locked = false → (∀ q ∈ s.ce.queues, q.2.running = false) → ∃ t, exec .standbyEntry s = .next t
        ∧ t.edge = { s.edge with pstate := 3 } ∧ t.mem = s.mem ∧ t.ctxs = s.ctxs ∧ t.ce = s.ce
        ∧ (∀ c r, (t.row c r).valid = true ↔ (s.row c r).valid = true ∧ (s.row c r).cls = 7)
        ∧ ∀ c r, (s.row c r).cls = 7 → t.row c r = s.row c r))
  ∧ (∀ (c : Bool) (s : State), (s.edge.pstate ≤ 1 → exec (.cappedStateChange c) s = .next { s with
        edge := { s.edge with pstate := if c then 1 else 0 } })
      ∧ (1 < s.edge.pstate → exec (.cappedStateChange c) s = .next s))
  ∧ (∀ (i : Nat) (l : List (Nat × Nat)) (s : State), i < 5 →
      let known (v : Option (Nat × Nat)) : State := { s with edge := { s.edge with versions := AMap.put s.edge.versions i v } }
      ((∃ v ∈ l, v.1 = 1) → exec (.interfaceNegotiation i l) s = .next (known (some (1, 0))))
      ∧ ((∀ v ∈ l, v.1 ≠ 1) → journalOff s → exec (.interfaceNegotiation i l) s
        = .next (numbered { known none with choice := s.choice + 1 }))
      ∧ ∀ j : Interface, j.index = i → (known none).edge.closed j = true)
  ∧ ∀ (n : BitVec 512) (s : State), (s.edge.locked = true → exec (.attestationQuote n) s = .next s)
      ∧ (s.edge.locked = false → exec (.attestationQuote n) s = .next { s with edge := { s.edge with
          quote := some (Config.quoteSignature n s.edge.measured) } })

/-- R249, R256, R257, R266, R267: HALT freezes a running context for its debugger and a resume lets it go on; a debugger writes the
registers of a frozen context, and s0 and p0 not; a step issues one bundle and freezes the context again; a HALTED context
that is released ends. While the window's interface is closed or the device in reset none of this has an effect, but that a
HALT asked before takes hold (log entry 47). HALT of a context in a handler, a release to RESERVED, a step that waits, and what a step lets the
engines do are the model's choices (log entries 17, 30, 46). -/
def Obligations.DebugEvents : Prop :=
  (∀ (g : Nat) (target : DbgTarget) (s : State), s.hostOpen = false →
      ((s.ctx g).halt = false → exec (.dbgctlHalt g) s = .next s) ∧ exec (.debugResume g) s = .next s
      ∧ exec (.dbgctlStep g) s = .next s ∧ exec (.debuggerStateWrite g target) s = .next s
      ∧ exec (.debuggerRelease g) s = .next s)
  ∧ (∀ (g : Nat) (s : State), s.hostOpen = true ∨ (s.ctx g).halt = true → (s.ctx g).state = .running →
      exec (.dbgctlHalt g) s = .next (s.setCtx g { s.ctx g with halt := true, state := .frozen, freeze := some .debug }))
  ∧ (∀ (g : Nat) (s : State), s.hostOpen = true → (s.ctx g).state = .frozen → (s.ctx g).freeze = some .debug →
      exec (.debugResume g) s = .next (s.setCtx g { s.ctx g with state := .running, freeze := none, halt := false, step := false }))
  ∧ (∀ (g : Nat) (s : State), (s.ctx g).state ≠ .frozen → exec (.debugResume g) s = .next s ∧ exec (.dbgctlStep g) s = .next s)
  ∧ (∀ (g : Nat) (s : State), s.hostOpen = true → (s.ctx g).state = .frozen → (s.ctx g).freeze = some .debug →
      (s.ctx g).startSeg ≠ none → exec (.dbgctlStep g) s = .next (stepping s g))
  ∧ (∀ (g : Nat) (s : State), s.hostOpen = true → (s.ctx g).state = .frozen ∨ (s.ctx g).state = .halted →
      (∀ (r : BitVec 5) (v : Word), ∃ t, exec (.debuggerStateWrite g (.scalar r v)) s = .next t
        ∧ (t.ctx g).arch.s r.toNat = (if r = 0 then 0 else v) ∧ (∀ q, q ≠ r.toNat → (t.ctx g).arch.s q = (s.ctx g).arch.s q)
        ∧ (∀ h, h ≠ g → t.ctx h = s.ctx h) ∧ t.mem = s.mem)
      ∧ (∀ (r : BitVec 5) (v : VWord), ∃ t, exec (.debuggerStateWrite g (.vector r v)) s = .next t
        ∧ (t.ctx g).arch.v r.toNat = v ∧ t.mem = s.mem)
      ∧ ∀ (r : BitVec 3) (v : PWord), ∃ t, exec (.debuggerStateWrite g (.pred r v)) s = .next t
        ∧ (t.ctx g).arch.p r.toNat = (if r = 0 then BitVec.allOnes 256 else v) ∧ t.mem = s.mem)
  ∧ (∀ (g : Nat) (target : DbgTarget) (s : State), (s.ctx g).state = .running →
      exec (.debuggerStateWrite g target) s = .next s)
  ∧ (∀ (g : Nat) (s : State), (s.ctx g).state ≠ .halted → exec (.debuggerRelease g) s = .next s)
  ∧ (∀ (g : Nat) (s : State), s.hostOpen = true → (s.ctx g).state = .halted → (∀ x ∈ s.ctxs, x.2.startSeg = none) → ∃ t,
      exec (.debuggerRelease g) s = .next t ∧ ((t.ctx g).state = .idle ∨ (t.ctx g).state = .reserved)
      ∧ (t.ctx g).kernel = none ∧ (t.ctx g).gated = [] ∧ (∀ h, h ≠ g → t.ctx h = s.ctx h) ∧ t.mem = s.mem
      ∧ t.ce = { s.ce with lost := (s.ctx g).parent.toList ++ s.ce.lost })
  ∧ ∀ (g : Nat) (s : State), s.hostOpen = true → (s.ctx g).state = .frozen → (s.ctx g).freeze = some .debug →
      let u := (stepping s g).prepare g
      let v := { u with cur := g, slot := 0, iss := { Issue.reset with parcel := (u.ctx g).arch.pc } }
      (s.ctx g).startSeg = none → (s.ctx g).bankZero = false → (s.ctx g).reload = none → (u.ctx g).syncDue = false →
      u.vigilLate g = false →
      ∀ n k, v.fetch = .instr (.print n k) → ∃ w, exec (.print n k) v = .next w
        ∧ exec (.dbgctlStep g) s = .next (w.afterStep g).landLate ∧ ((w.ctx g).step = true → (w.ctx g).state = .running → w.iss.verdict ≠ .stall →
          ((w.afterStep g).ctx g).state = .frozen ∧ ((w.afterStep g).ctx g).freeze = some .debug
            ∧ ((w.afterStep g).ctx g).step = false)

/-- R258, R260, R266, R267: the host's window: a doorbell at its queue's page, an 8-byte access to a register, and main memory,
whose bytes a write of the window sets and a read gives back; nothing is written while the configuration record is not
verified or the window's interface is closed. What a closed interface leaves undone is the model's choice (log entry 47). -/
def Obligations.HostWindowEvents : Prop :=
  (∀ (off : Nat) (op : HostOp) (fw : Bool) (s : State) (bytes : List Byte),
      s.edge.locked = true ∨ s.edge.closed .window = true → op = .write bytes →
      exec (.hostWindowAccess off op fw) s = .next s)
  ∧ (∀ (q : Nat) (bytes : List Byte) (fw : Bool) (s : State), s.hostOpen = true → q < 64 → bytes.length = 4 →
      exec (.hostWindowAccess (q * 0x1000) (.write bytes) fw) s = exec (.doorbell q (BitVec.ofNat 32 (leNat bytes))) s)
  ∧ (∀ (off : Nat) (bytes : List Byte) (fw : Bool) (s : State), s.hostOpen = true → off < 0x10000 → bytes.length = 8 →
      exec (.hostWindowAccess (0x40000 + off) (.write bytes) fw) s
        = exec (.mgmtRegisterWrite off (BitVec.ofNat 64 (leNat bytes)) fw) s)
  ∧ (∀ (a n : Nat) (fw : Bool) (s : State), s.edge.locked = false → s.edge.closed .window = false → a + n ≤ 0x10000000000 → a + n ≤ 0x200000 * s.edge.frames →
      exec (.hostWindowAccess (0x10000000000 + a) (.read n) fw) s = .next { s with edge := { s.edge with
        hostRead := (List.range n).map fun i => s.mem.read (physKey (a + i)) } })
  ∧ (∀ (a : Nat) (l : List Byte) (fw : Bool) (s : State), s.hostOpen = true → a + l.length ≤ 0x10000000000 →
      s.mappedRange a l.length = true → journalOff s → ∃ t,
      exec (.hostWindowAccess (0x10000000000 + a) (.write l) fw) s = .next t ∧ t.ctxs = s.ctxs ∧ t.edge = s.edge
      ∧ readKeys t.mem (physKey a) l.length = l
      ∧ ∀ k, ¬(physKey a ≤ k ∧ k < physKey a + l.length) → t.mem.read k = s.mem.read k)
  ∧ (∀ (off : Nat) (v : BitVec 64) (s : State), s.hostOpen = true →
      (off = 0x20 → 600 ≤ v.toNat % 2 ^ 16 → v.toNat % 2 ^ 16 ≤ 2400 → exec (.mgmtRegisterWrite off v true) s = .next
        { s with edge := { s.edge with pwrlim := BitVec.ofNat 16 v.toNat } })
      ∧ (off = 0x20 → exec (.mgmtRegisterWrite off v false) s = .next s)
      ∧ (off = 0x10 → exec (.mgmtRegisterWrite off v true) s = exec (.jcfgWrite v true) s)
      ∧ (off = 0x18 → exec (.mgmtRegisterWrite off v true) s = exec (.fqptrWrite v) s))
  ∧ ∀ (g i : Nat) (v : BitVec 64) (fw : Bool) (s : State), s.hostOpen = true → g < 96 → i < 4 →
      exec (.mgmtRegisterWrite (0x3000 + 64 * g + 8 * (i + 1)) v fw) s
        = .next (s.setCtx g { s.ctx g with bps := AMap.put (s.ctx g).bps i (BitVec.ofNat 33 v.toNat) })

/-- R231, R267: a journal entry takes the next number. Where journalling is on it is written, 64 bytes with the fields of the
table, at its place in the ring, and no other byte of memory changes; when the ring is full it takes the place of the oldest.
Where journalling is off or its interface closed nothing is written. Which place an entry takes (log entry 77) and the rounding
of its times (log entry 52) are the model's choices. -/
def Obligations.JournalAppends : Prop :=
  (∀ (s : State) (e : JournalEntry), journalOff s ∨ s.edge.closed .journal = true → s.journal e = numbered s)
  ∧ (∀ (s : State) (e : JournalEntry), journalOn s →
    let t := s.journal e
    let at_ := journalSlot s
    let field := fun (o n : Nat) => readNat t.mem (at_ + o) n
    t.ce = (numbered s).ce ∧ t.ctxs = s.ctxs ∧ t.cores = s.cores ∧ t.cmds = s.cmds ∧ t.edge = s.edge
    ∧ (field 0 8 = s.ce.jseq % 2 ^ 64 ∧ field 8 4 = e.seq.toNat ∧ field 0xC 1 = e.queue % 256 ∧ field 0xD 1 = e.kind % 256
      ∧ field 0xE 1 = e.state % 256 ∧ field 0xF 1 = e.cause % 256 ∧ field 0x10 8 = e.accT % 2 ^ 64
      ∧ field 0x18 8 = e.startT % 2 ^ 64 ∧ field 0x20 8 = s.cycle * 10 / 21 % 2 ^ 64 ∧ field 0x28 8 = e.detail0.toNat
      ∧ field 0x30 8 = e.detail1.toNat ∧ field 0x38 4 = e.ctxid.toNat ∧ field 0x3C 4 = 0)
    ∧ ∀ k, ¬(at_ ≤ k ∧ k < at_ + 64) → t.mem.read k = s.mem.read k)
  ∧ ∀ (s t : State) (e : JournalEntry), journalOn t → t.ce.jcfg = s.ce.jcfg → 1 ≤ s.ce.jseq →
    t.ce.jseq = s.ce.jseq + 2 ^ fld s.ce.jcfg 4 0 →
    readNat (t.journal e).mem (journalSlot s) 8 = (s.ce.jseq + 2 ^ fld s.ce.jcfg 4 0) % 2 ^ 64

/-- R217, R218, R221, R222: the commands of a queue that stand at its head: SEMSIG adds to its word and SEMWAIT waits,
TIMESTAMP stores the time, JMARK and a QBARRIER with nothing before it complete; a word that is misaligned or not installed
ends its command faulted, with memory as it was. A SEMWAIT completes when its condition holds, and ends faulted at its
timeout. That the head advances when a SEMWAIT starts and that a condition code above 2 ends it faulted are the model's
choice (log entry 41), and so is the rounding of TIMESTAMP's time (log entry 52). -/
def Obligations.QueueCommandEvents : Prop :=
  (∀ (q : Nat) (w : BitVec 512) (s : State), atHead s q w → u8At w 0 = 2 →
    (goodWord s w → ∃ t, exec (.semsig q) s = .next t ∧ completed s t q w ∧ onlyWord s t w
      ∧ semWord t w = (semWord s w + (u64At w 0x10).toNat) % 2 ^ 64)
    ∧ (¬goodWord s w → ∃ t, exec (.semsig q) s = .next t ∧ endedFaulted s t q))
  ∧ (∀ (q : Nat) (w : BitVec 512) (s : State), atHead s q w → u8At w 0 = 3 →
    (goodWord s w → u8At w 0x1C ≤ 2 → ∃ t c, exec (.semwait q) s = .next t ∧ passed s t q w ∧ onlyQueues s t
      ∧ (t.queue q).started = [c] ∧ c.slot = w ∧ c.op = 3 ∧ c.cycle = s.cycle)
    ∧ (¬goodWord s w ∨ 2 < u8At w 0x1C → ∃ t, exec (.semwait q) s = .next t ∧ endedFaulted s t q))
  ∧ (∀ (q : Nat) (c : Started) (s : State), (s.queue q).started = [c] → c.op = 3 → journalOff s →
    let v := semWord s c.slot
    let x := (u64At c.slot 0x10).toNat
    let met := match u8At c.slot 0x1C with
      | 0 => x ≤ v
      | 1 => v = x
      | _ => v &&& x ≠ 0
    let limit := (u32At c.slot 0x18).toNat
    (goodWord s c.slot → met → ∃ t, exec (.semwaitConditionMet q) s = .next t ∧ onlyQueues s t
      ∧ (t.queue q).started = [] ∧ (t.queue q).running = (s.queue q).running)
    ∧ (goodWord s c.slot → ¬met → exec (.semwaitConditionMet q) s = .next s)
    ∧ (limit ≠ 0 → c.cycle + limit * 2 ^ 20 ≤ s.cycle → ∃ t, exec (.semtmo q) s = .next t ∧ onlyQueues s t
      ∧ (t.queue q).started = [] ∧ (t.queue q).running = false ∧ (t.queue q).faulted = true)
    ∧ (limit = 0 ∨ s.cycle < c.cycle + limit * 2 ^ 20 → exec (.semtmo q) s = .next s))
  ∧ (∀ (q : Nat) (w : BitVec 512) (s : State), atHead s q w → u8At w 0 = 4 → ∃ t, exec (.qbarrier q) s = .next t
    ∧ completed s t q w ∧ onlyQueues s t)
  ∧ (∀ (q : Nat) (w : BitVec 512) (s : State), atHead s q w → u8At w 0 = 5 →
    (s.wordOk (u64At w 8).toNat = true → ∃ t, exec (.timestamp q) s = .next t ∧ completed s t q w ∧ onlyWord s t w
      ∧ semWord t w = s.cycle * 10 / 21 % 2 ^ 64)
    ∧ (s.wordOk (u64At w 8).toNat = false → ∃ t, exec (.timestamp q) s = .next t ∧ endedFaulted s t q))
  ∧ ∀ (q : Nat) (w : BitVec 512) (s : State), atHead s q w → u8At w 0 = 6 → ∃ t, exec (.jmark q) s = .next t
    ∧ completed s t q w ∧ onlyQueues s t

/-- R16, R26, R216, R218 to R222: LAUNCH of a descriptor that passes its checks, in a partition with room, starts a kernel
and posts one entry record for each task, in task order, with the six arguments of the command; one that fails them ends the
command faulted. MIGRATE starts its packet's migration, and PARTCFG sets its partition; both need a privileged queue. That
the head advances when a command starts is the model's choice (log entry 41). -/
def Obligations.LaunchMigrateAndPartcfgEvents : Prop :=
  (∀ (q n : Nat) (p : Partition) (w : BitVec 512) (s : State), atHead s q w → u8At w 0 = 1 → s.partOf q = some (n, p) →
    let pa := (u64At w 8).toNat
    let d : VWord := BitVec.ofNat 2048 (readNat s.mem (physKey pa) 256)
    let room := (s.activeKernels n).length < 16
      ∧ ∀ k ∈ s.activeKernels n, u8At k.2.desc 0x22 &&& (s.mem.read (physKey (pa + 0x22))).toNat = 0
    let allowed := (u8At d 0x23).testBit 0 = false ∨ (s.queue q).priv = true
    (room → allowed → s.descriptorOk pa d = true → ∃ t k, exec (.launch q) s = .next t ∧ passed s t q w
      ∧ t.kernel s.ce.nextKernel = some k ∧ k.queue = q ∧ k.part = n ∧ k.desc = d ∧ k.phase = 0 ∧ k.ended = none
      ∧ k.prio = (s.queue q).prio ∧ t.ce.nextKernel = s.ce.nextKernel + 1
      ∧ (∀ m, m ≠ s.ce.nextKernel → t.kernel m = s.kernel m)
      ∧ (∃ l : List Record, t.ce.pool = s.ce.pool ++ l ∧ l.length = 1024 ∧ ∀ i, i < 1024 → ∃ r, l[i]? = some r
        ∧ r.task.toNat = i ∧ r.kernel = s.ce.nextKernel ∧ r.resume = u32At d 0xA8 ∧ r.phase = 0 ∧ r.entry = true
        ∧ r.segno = 0 ∧ r.args = (List.range 6).map fun j => u64At w (0x10 + 8 * j))
      ∧ ∀ g, (t.ctx g).arch = (s.ctx g).arch ∧ (t.ctx g).kernel = (s.ctx g).kernel)
    ∧ (room → s.descriptorOk pa d = false → ∃ t, exec (.launch q) s = .next t
      ∧ endedFaulted s t q))
  ∧ (∀ (q n : Nat) (p : Partition) (w : BitVec 512) (s : State), atHead s q w → u8At w 0 = 7 → s.partOf q = some (n, p) →
    let pa := (u64At w 8).toNat
    let pkt : BitVec 512 := BitVec.ofNat 512 (readNat s.mem (physKey pa) 64)
    ((s.queue q).priv = true → s.structureOk pa 64 = true → pmigOk pkt s.edge.dev = true → ∃ t d c,
      exec (.migrate q) s = .next t ∧ passed s t q w ∧ t.cmds = s.cmds ++ [d] ∧ d.id = s.nextCmd ∧ d.op = .pmig pkt 0 0
      ∧ d.by_.part = n ∧ (t.queue q).started = [c] ∧ c.cmd = some s.nextCmd ∧ t.mem = s.mem ∧ t.ctxs = s.ctxs)
    ∧ ((s.queue q).priv = false → ∃ t, exec (.migrate q) s = .next t ∧ endedFaulted s t q))
  ∧ ∀ (q : Nat) (w : BitVec 512) (s : State), atHead s q w → u8At w 0 = 8 →
    let n := u8At w 8
    let p := partFields w
    ((s.queue q).priv = true → s.partBad n p = false → (∀ x ∈ s.ce.queues, x.2.started = []) →
      (∀ o ∈ s.ce.parts, o.1 ≠ n → o.2.clusters &&& p.clusters = 0 ∧ o.2.groups &&& p.groups = 0 ∧ o.2.queues &&& p.queues = 0) →
      ∃ t, exec (.partcfg q) s = .next t ∧ completed s t q w ∧ t.mem = s.mem ∧ t.ctxs = s.ctxs
        ∧ AMap.find t.ce.parts n = (if p.clusters = 0 then none else some p)
        ∧ ∀ m, m ≠ n → AMap.find t.ce.parts m = AMap.find s.ce.parts m)
    ∧ ((s.queue q).priv = true → s.partBad n p = true → ∃ t, exec (.partcfg q) s = .next t ∧ endedFaulted s t q)
    ∧ ((s.queue q).priv = false → ∃ t, exec (.partcfg q) s = .next t ∧ endedFaulted s t q)

/-- R216, R217, R228, R231, R235, R257, R259 to R261, R266: the host's registers of the queues, none of them while the interface of
the window is closed or the device in reset: a doorbell moves the tail, or stops a queue that it overfills; QBASE and QCFG
set a queue up afresh; RESTART runs a stopped queue; PREEMPT asks the contexts at work on the queue's kernels (a request
that arises in a handler is held until its ERET, R247); the log pointer, JCFG, and the fault queue's read index, past which
a copy unit tied to its core's debugger leaves the replay of its side log to a debug step (log entry 17). What becomes of a command accepted before its queue is set up or restarted
(log entry 41), an FQPTR beyond the device's index (log entry 38), that RESTART leaves STANDBY (log entry 71) and what a closed
interface leaves undone (log entry 47) are the model's choice. -/
def Obligations.QueueRegisterEvents : Prop :=
  (∀ (q : Nat) (tail : BitVec 32) (s : State), s.hostOpen = true → q < 64 → (s.queue q).setUp = true →
    s.owned q = true →
    ((tail - (s.queue q).head).toNat ≤ 2 ^ (s.queue q).log2 → ∃ t, exec (.doorbell q tail) s = .next t
      ∧ t.queue q = { s.queue q with tail := tail } ∧ (∀ r, r ≠ q → t.queue r = s.queue r) ∧ t.mem = s.mem ∧ t.ctxs = s.ctxs
      ∧ t.edge.pstate = if s.edge.pstate = 3 then 0 else s.edge.pstate)
    ∧ (2 ^ (s.queue q).log2 < (tail - (s.queue q).head).toNat → ∃ t, exec (.doorbell q tail) s = .next t
      ∧ t.queue q = { s.queue q with running := false } ∧ (∀ r, r ≠ q → t.queue r = s.queue r) ∧ t.ctxs = s.ctxs))
  ∧ (∀ (q : Nat) (tail : BitVec 32) (s : State), 64 ≤ q ∨ (s.queue q).setUp = false ∨ s.owned q = false →
    exec (.doorbell q tail) s = .next s)
  ∧ (∀ (q : Nat) (tail v : BitVec 32) (w : BitVec 64) (cfg fw : Bool) (s : State), s.hostOpen = false →
    exec (.doorbell q tail) s = .next s ∧ exec (.queueConfigWrite q cfg w fw) s = .next s ∧ exec (.qctlRestart q) s = .next s
    ∧ exec (.qctlPreempt q) s = .next s ∧ exec (.replayLogReadPointer q v) s = .next s ∧ exec (.jcfgWrite w fw) s = .next s
    ∧ exec (.fqptrWrite w) s = .next s)
  ∧ (∀ (q : Nat) (cfg : Bool) (v : BitVec 64) (s : State), q < 64 → exec (.queueConfigWrite q cfg v false) s = .next s)
  ∧ (∀ (q : Nat) (v : BitVec 64) (s : State), s.hostOpen = true → q < 64 →
    (∃ t, exec (.queueConfigWrite q false v true) s = .next t ∧ (t.queue q).base.toNat = v.toNat / 64 * 64 % 2 ^ 52
      ∧ (t.queue q).head = 0 ∧ (t.queue q).tail = 0 ∧ (t.queue q).running = false ∧ (t.queue q).expect = some 1
      ∧ (t.queue q).log2 = (s.queue q).log2 ∧ ∀ r, r ≠ q → t.queue r = s.queue r)
    ∧ (v.toNat % 32 = 0 ∨ (4 ≤ v.toNat % 32 ∧ v.toNat % 32 ≤ 16) → ∃ t, exec (.queueConfigWrite q true v true) s = .next t
      ∧ (t.queue q).log2 = v.toNat % 32 ∧ (t.queue q).prio = v.toNat / 2 ^ 8 % 8 ∧ (t.queue q).priv = v.getLsbD 11
      ∧ (t.queue q).head = 0 ∧ (t.queue q).tail = 0 ∧ (t.queue q).running = false ∧ (t.queue q).expect = some 1
      ∧ (t.queue q).base = (s.queue q).base ∧ ∀ r, r ≠ q → t.queue r = s.queue r))
  ∧ (∀ (q : Nat) (s : State), q < 64 →
    ((s.queue q).running = true → exec (.qctlRestart q) s = .next s)
    ∧ (s.hostOpen = true → (s.queue q).running = false → ∃ t, exec (.qctlRestart q) s = .next t ∧ (t.queue q).running = true
      ∧ (t.queue q).faulted = false ∧ (t.queue q).head = (s.queue q).head ∧ (t.queue q).tail = (s.queue q).tail
      ∧ t.edge.pstate = (if s.edge.pstate = 3 then 0 else s.edge.pstate)
      ∧ ((s.queue q).faulted = true → (s.queue q).accepted = none → (t.queue q).expect = none)
      ∧ ((s.queue q).faulted = false → (t.queue q).expect = (s.queue q).expect) ∧ ∀ r, r ≠ q → t.queue r = s.queue r))
  ∧ (∀ (q : Nat) (s : State), s.hostOpen = true → ∃ t, exec (.qctlPreempt q) s = .next t ∧ t.mem = s.mem ∧ t.ce = s.ce ∧ ∀ g,
    (((s.myKernel g).map Kernel.queue = some q
        ∧ ((s.ctx g).state = .running ∨ (s.ctx g).state = .sealing ∨ (s.ctx g).state = .frozen)) →
      t.ctx g = { s.ctx g with
        preq := true, preqHeld := if (s.ctx g).preq then (s.ctx g).preqHeld else (s.ctx g).intrap })
    ∧ ((s.myKernel g).map Kernel.queue ≠ some q → t.ctx g = s.ctx g))
  ∧ (∀ (q : Nat) (v : BitVec 32) (s : State), s.hostOpen = true → q < 64 → ∃ t, exec (.replayLogReadPointer q v) s = .next t
    ∧ t.queue q = { s.queue q with logPtr := v } ∧ (∀ r, r ≠ q → t.queue r = s.queue r) ∧ t.mem = s.mem ∧ t.ctxs = s.ctxs)
  ∧ (∀ (v : BitVec 64) (s : State),
    let j := v.toNat % 32
    let base := v.toNat / 4096 % 2 ^ 40 * 4096
    let legal := j = 0 ∨ (8 ≤ j ∧ j ≤ 20 ∧ base + 64 * 2 ^ j ≤ s.edge.frames * 0x200000)
    (legal → s.hostOpen = true → exec (.jcfgWrite v true) s = .next { s with ce := { s.ce with jcfg := BitVec.ofNat 64 (base + j) } })
    ∧ (¬legal → exec (.jcfgWrite v true) s = .next s) ∧ exec (.jcfgWrite v false) s = .next s)
  ∧ ∀ (v : BitVec 64) (r : PageReq) (s : State), s.hostOpen = true → s.edge.fqRead < 4096 → s.edge.fqWrite < 4096 → s.faultCount ≠ 0 →
    v.toNat % 4096 = (s.edge.fqRead + 1) % 4096 → AMap.find s.edge.fq (s.edge.fqRead % 2048) = some r →
    (r.answer ≠ some false → s.tied r.unit = true → (∃ e ∈ (s.unit r.unit).side, e.req = s.edge.fqRead % 2048) →
      ∃ t, exec (.fqptrWrite v) s = .next t ∧ t.mem = s.mem ∧ t.ctxs = s.ctxs ∧ t.cmds = s.cmds
        ∧ t.unit r.unit = { s.unit r.unit with due := (s.unit r.unit).due ++ [(s.edge.fqRead % 2048, r)] })
    ∧ ((s.unit r.unit).side = [] → ∃ t, exec (.fqptrWrite v) s = .next t
      ∧ t.edge.fqRead = v.toNat % 4096 ∧ t.mem = s.mem ∧ t.ctxs = s.ctxs
      ∧ ∀ c ∈ s.cmds, (c.hold ≠ some (s.edge.fqRead % 2048) → c ∈ t.cmds)
        ∧ (c.hold = some (s.edge.fqRead % 2048) → { c with
          hold := none, denied := if r.answer = some false then some r.va else c.denied } ∈ t.cmds))

/-- R7, R13 to R17, R20, R23, R223, R240, R252: an idle context takes the record it is offered and starts on its registers; a
spawned one starts once it may; the oldest proof of a context seals 384 cycles after its issue, performs the stores before
it, and a DONE commits its task and frees the context; a context asked to be pre-empted freezes, is saved, and is
idle, with its unfinished factor commands parked; a saved one goes on with the registers of its slot, without what
stands in their reserved bits, and its first bundle waits for the reload of its unfinished factor command (R131). -/
def Obligations.ContextLifeEvents : Prop :=
  (∀ (g : Nat) (r : Record) (k : Kernel) (s : State), s.offered g = some r → s.kernel r.kernel = some k →
    ∃ t, exec (.recordPickup g) s = .next t
      ∧ (t.ctx g).state = .running ∧ (t.ctx g).kernel = some r.kernel ∧ (t.ctx g).task = r.task ∧ (t.ctx g).phase = r.phase
      ∧ (t.ctx g).segno = r.segno ∧ (t.ctx g).spawn = 0 ∧ (t.ctx g).intrap = false ∧ (t.ctx g).arch.pc = r.resume
      ∧ (t.ctx g).arch.tick = 0 ∧ (t.ctx g).arch.fmt = u32At k.desc 0x34 ∧ (t.ctx g).arch.rngkey = u64At k.desc 0x38
      ∧ (t.ctx g).arch.tvec = u32At k.desc 0x40 ∧ (t.ctx g).arch.flags = 0 ∧ (t.ctx g).arch.mlim = 0xFFFFFFFF
      ∧ (∀ i, (t.ctx g).arch.s (i + 1) = r.args.getD i 0) ∧ (∀ i, (t.ctx g).arch.v i = 0)
      ∧ (∀ i, i ≠ 0 → (t.ctx g).arch.p i = 0) ∧ (∀ h, h ≠ g → t.ctx h = s.ctx h)
      ∧ t.ce.pool = s.ce.pool.filter fun x => x.order != r.order)
  ∧ (∀ (g : Nat) (s : State), (s.offered g = none → exec (.recordPickup g) s = .next s)
    ∧ (s.offeredSaved g = none → exec (.contextResume g) s = .next s))
  ∧ (∀ (g : Nat) (s : State), (s.spawnReady g = true → ∃ t, exec (.spawnedContextStart g) s = .next t
      ∧ t.ctx g = { s.ctx g with startSeg := none, startAt := 0 } ∧ (∀ h, h ≠ g → t.ctx h = s.ctx h) ∧ t.mem = s.mem)
    ∧ (s.cycle < (s.ctx g).startAt → exec (.spawnedContextStart g) s = .next s))
  ∧ (∀ (g : Nat) (p : Capture) (l : List Capture) (s : State), (s.ctx g).unsealed = p :: l →
    (s.cycle < p.cycle + 384 → exec (.proofSeal g) s = .next s)
    ∧ (p.cycle + 384 ≤ s.cycle → p.kind = .proof → (∀ e ∈ (s.ctx g).gated, ∃ b, e.item = .store b) → ∃ t,
      exec (.proofSeal g) s = .next t ∧ (t.ctx g).captured = some p ∧ (t.ctx g).unsealed = l
      ∧ (t.ctx g).gated = (s.ctx g).gated.filter (fun e => decide (p.serial ≤ e.seg))
      ∧ (t.ctx g).arch = (s.ctx g).arch ∧ (∀ h, h ≠ g → t.ctx h = s.ctx h)
      ∧ ∀ k, (∀ e ∈ (s.ctx g).gated, e.seg < p.serial → ∀ b, e.item = .store b → ∀ x ∈ b, nearKey (coreOf g) x.1 ≠ k) →
        journalOff s ∨ s.poison = [] ∨ k < 0x10000000 → t.mem.read k = s.mem.read k)
    ∧ (∀ (a : Nat) (b : Byte), p.cycle + 384 ≤ s.cycle → p.kind = .proof → nearKey (coreOf g) a < 0x10000000 →
      (∃ e, (s.ctx g).gated = [e] ∧ e.item = .store [(a, b)] ∧ e.seg < p.serial) → ∃ t,
      exec (.proofSeal g) s = .next t ∧ t.mem.read (nearKey (coreOf g) a) = b)
    ∧ (∀ (kid : Nat) (k : Kernel), p.cycle + 384 ≤ s.cycle → p.kind = .done → (s.ctx g).gated = [] →
      (s.ctx g).kernel = some kid → s.kernel kid = some k → (s.ctx g).spawn = 0 → ∃ t k',
      exec (.proofSeal g) s = .next t ∧ (t.ctx g).kernel = none
      ∧ ((t.ctx g).state = .idle ∨ (t.ctx g).state = .reserved) ∧ t.kernel kid = some k'
      ∧ (s.ctx g).task.toNat ∈ k'.committed ∧ t.mem = s.mem ∧ ∀ h, h ≠ g → t.ctx h = s.ctx h))
  ∧ (∀ (g : Nat) (s : State), ((s.ctx g).state = .running → s.freezeDue g = true → ∃ t, exec (.preemptFreeze g) s = .next t
      ∧ (t.ctx g).state = .frozen ∧ (t.ctx g).freeze = some .preempt ∧ (t.ctx g).arch = (s.ctx g).arch
      ∧ (t.ctx g).unsealed.length = (s.ctx g).unsealed.length + 1 ∧ t.mem = s.mem ∧ ∀ h, h ≠ g → t.ctx h = s.ctx h)
    ∧ ((s.ctx g).preq = false ∨ (s.ctx g).intrap = true → exec (.preemptFreeze g) s = .next s))
  ∧ (∀ (g kid : Nat) (k : Kernel) (s : State), s.saveDue g = true → (s.ctx g).kernel = some kid → s.kernel kid = some k →
    ∃ t sv, exec (.preemptSave g) s = .next t ∧ (t.ctx g).state = .idle ∧ (t.ctx g).kernel = none
      ∧ AMap.find t.ce.saved g = some sv ∧ sv.kernel = kid ∧ sv.gen = (s.ctx g).gen ∧ sv.parent = (s.ctx g).parent
      ∧ (∀ d ∈ s.cmds, (if d.op.isFactor = true ∧ d.by_.g = g ∧ d.by_.gen = (s.ctx g).gen then { d with parked := true } else d)
        ∈ t.cmds)
      ∧ t.cores = s.cores ∧ (∀ h, h ≠ g → t.ctx h = s.ctx h) ∧ t.kernel kid = some k)
  ∧ ∀ (g : Nat) (v : Saved) (k : Kernel) (s : State), s.offeredSaved g = some v → s.kernel v.kernel = some k →
    let base := s.slotBase k.part g
    s.poison = [] → (v.job = none ∨ readNat s.mem (physKey (base + 0xC00)) 4 = 1) → ∃ t, exec (.contextResume g) s = .next t
      ∧ (t.ctx g).state = .running ∧ (t.ctx g).kernel = some v.kernel ∧ (t.ctx g).gen = v.gen
      ∧ (∀ id, v.job = some id → (t.ctx g).reload = some id)
      ∧ (t.ctx g).arch.pc.toNat = readNat s.mem (physKey (base + 0x10)) 4
      ∧ (t.ctx g).arch.tick = readNat s.mem (physKey (base + 8)) 8
      ∧ (t.ctx g).arch.fmt.toNat = readNat s.mem (physKey (base + 0x18)) 4 % 2 ^ 21
      ∧ (t.ctx g).arch.mgeo.toNat = readNat s.mem (physKey (base + 0x600)) 8 % 2 ^ 24
      ∧ (∀ i, 1 ≤ i → i < 32 → ((t.ctx g).arch.s i).toNat = readNat s.mem (physKey (base + 0x400 + 8 * i)) 8)
      ∧ (∀ i, i < 32 → ((t.ctx g).arch.v i).toNat = readNat s.mem (physKey (base + 0x1000 + 256 * i)) 256)
      ∧ (∀ i, 1 ≤ i → i < 8 → ((t.ctx g).arch.p i).toNat = readNat s.mem (physKey (base + 0x500 + 32 * i)) 32)
      ∧ ∀ h, h ≠ g → t.ctx h = s.ctx h

/-- R116, R242, R245 to R247, R257, R302, R359 to R361: what a boundary of a context takes: of an engine's cause and a poisoned
landing the one of the earlier-issued instruction, either before an expiry notice; a breakpoint's freeze, a vigil that all
its contexts have reached, after which their streams read memory again, a vigil's timeout by the VGTMO that has landed; a
strike takes both contexts of its core back to their newest sealed proofs. Nothing is taken where nothing is due. What a
rewind brings back beside the registers of R238 is the model's choice (log entries 13, 14). -/
def Sys2Proof.Claims.BoundaryEvents : Prop :=
  (∀ (g : Nat) (s : State),
    ((s.ctx g).state ≠ .running → exec (.trapEntry g) s = .next s)
    ∧ ((s.ctx g).state = .running → (s.ctx g).badLanding = none → (∀ e l, (s.ctx g).causes = e :: l →
        (s.ctx g).intrap = false →
        exec (.trapEntry g) s = .next (takesNext s g e l))
      ∧ ((s.ctx g).causes = [] → (s.ctx g).notice = true → (s.ctx g).aevt.getLsbD 0 = true → (s.ctx g).intrap = false →
        let row := (s.ctx g).aevt.extractLsb' 32 32
        exec (.trapEntry g) s = .next ((s.setCtx g { s.ctx g with notice := false }).take g ⟨0x21, row, (s.ctx g).arch.pc, 0,
          false, (s.ctx g).arch.printRep, BitVec.ofNat 64 (0x10000000 + 1024 * row.toNat), false, (s.ctx g).arch.tick⟩))
      ∧ ((s.ctx g).causes = [] → (s.ctx g).notice = false → exec (.trapEntry g) s = .next s)))
  ∧ (∀ (g : Nat) (p : Pending) (s : State), (s.ctx g).state = .running → (s.ctx g).intrap = false →
    (s.ctx g).badLanding = some p →
    let landing := (s.setCtx g ((s.ctx g).dropLanding p)).take g ((s.ctx g).landingCause p)
    ((s.ctx g).causes = [] → exec (.trapEntry g) s = .next landing)
    ∧ ∀ e l, (s.ctx g).causes = e :: l → exec (.trapEntry g) s
      = .next (if e.issued < p.issued then takesNext s g e l else landing))
  ∧ (∀ (g i : Nat) (s : State), (s.ctx g).state = .running → (s.ctx g).bpDone = false → (s.ctx g).arch.printRep = 0 →
    (i, (1 : BitVec 1) ++ (s.ctx g).arch.pc) ∈ (s.ctx g).bps → exec (.parcelBreakpoint g) s = .next
      (s.setCtx g { s.ctx g with state := .frozen, freeze := some .debug, bpDone := true }))
  ∧ (∀ (g : Nat) (s : State), (∀ p ∈ (s.ctx g).bps, p.2 ≠ (1 : BitVec 1) ++ (s.ctx g).arch.pc) →
    exec (.parcelBreakpoint g) s = .next s)
  ∧ (∀ (g : Nat) (a : Arrival) (s : State), (s.ctx g).arrival = some a → a.complete = false → s.ce.saved = [] →
    let named := fun h => h / 8 = g / 8 ∧ a.mask.getLsbD (h % 8) = true
    let there := fun h => (s.ctx h).kernel = (s.ctx g).kernel ∧ ∃ b, (s.ctx h).arrival = some b ∧ b.vid = a.vid
      ∧ b.mask = a.mask ∧ b.complete = false
    ((∀ h, named h → there h) → ∃ t, exec (.vigilCompletion g) s = .next t ∧ t.mem = s.mem
      ∧ (∀ h, named h → t.ctx h = { (s.ctx h).dropUnits with
        arrival := (s.ctx h).arrival.map fun b => { b with complete := true } })
      ∧ ∀ h, ¬named h → t.ctx h = s.ctx h)
    ∧ ((∃ h, named h ∧ ¬there h) → exec (.vigilCompletion g) s = .next s))
  ∧ (∀ (g : Nat) (a : Arrival) (s : State), (s.ctx g).arrival = some a → (s.ctx g).state = .running →
    (s.ctx g).intrap = false → a.complete = false →
    let limit := (s.ctx g).land.arch.vgtmo.toNat * 1024
    (limit ≠ 0 → a.since + limit ≤ s.cycle → exec (.vigilto g) s = .next (s.take g ⟨0x13, a.vid.zeroExtend 32,
      (s.ctx g).arch.pc, 0, false, (s.ctx g).arch.printRep, 0, false, (s.ctx g).arch.tick⟩))
    ∧ (limit = 0 ∨ s.cycle < a.since + limit → exec (.vigilto g) s = .next s))
  ∧ ∀ (core : Nat) (s : State), (∀ x ∈ s.ctxs, x.2.startSeg = none) → ∃ t, exec (.strikeReport core) s = .next t
    ∧ t.mem = s.mem ∧ (∀ k, k ≠ core → t.core k = s.core k) ∧ t.core core = { s.core core with kinds := (t.core core).kinds }
    ∧ (∀ h, h / 2 ≠ core → t.ctx h = s.ctx h)
    ∧ ∀ (g : Nat) (p : Capture), g / 2 = core → (s.ctx g).state = .running → (s.ctx g).captured = some p →
      (t.ctx g).arch = p.arch ∧ (t.ctx g).intrap = false ∧ (t.ctx g).state = .running
        ∧ (t.ctx g).gated = (s.ctx g).gated.filter (fun e => decide (e.seg < p.serial))

/-- R141, R142: a slide moves STKTOP by 4 KiB, down for a slide whose bytes have reached the overflow area and up for an
inverse one, with the stack's bytes moved by as much, and a proof that has sealed follows it; neither does anything while
its context does not wait for it. That a slide in a handler is bracketed too is the model's choice (log entry 26). -/
def Sys2Proof.Claims.StackSlideEvents : Prop :=
  (∀ (g : Nat) (s : State), (s.ctx g).bracket ≠ some .slide → exec (.stackSlide g) s = .next s)
  ∧ (∀ (g : Nat) (s : State), (s.ctx g).bracket ≠ some .inverse → exec (.inverseSlide g) s = .next s)
  ∧ (∀ (g : Nat) (c : Cmd) (s : State), s.slideDue g false = true → s.slideCmd g = some c → s.mayRun c = true → c.prog = 1 →
    c.status ≠ 1 → c.by_.g = g → (s.ctx g).gated = [] → s.ce.saved = [] → journalOff s →
    let base := (s.ctx g).arch.stkbase.toNat
    let top := (s.ctx g).arch.stktop
    ∃ t, exec (.stackSlide g) s = .next t ∧ (t.ctx g).arch.stktop = top - 4096
      ∧ (t.ctx g).arch.depth = (s.ctx g).arch.depth + 1 ∧ (t.ctx g).bracket = none ∧ gone t c.id
      ∧ (t.ctx g).unsealed = [] ∧ (t.ctx g).captured.map Capture.arch = some (t.ctx g).arch
      ∧ (∀ i, i < top.toNat - 4096 - base →
        t.mem.read (nearKey (coreOf g) (base + i)) = s.nearByte g (base + 4096 + i))
      ∧ ∀ k, ¬(nearKey (coreOf g) base ≤ k ∧ k < nearKey (coreOf g) base + (top.toNat - 4096 - base)) →
        t.mem.read k = s.mem.read k)
  ∧ ∀ (g : Nat) (c : Cmd) (s : State), s.slideDue g true = true → s.slideCmd g = some c → s.mayRun c = true → c.by_.g = g →
    (s.ctx g).gated = [] → s.ce.saved = [] → journalOff s →
    let base := (s.ctx g).arch.stkbase.toNat
    let top := (s.ctx g).arch.stktop
    let r := Move.getFlags c (Move.start s) (s.slideAt g true).toNat 4096
    r.1.live = true → (∃ t, exec (.inverseSlide g) s = .next t ∧ (t.ctx g).arch.stktop = top + 4096
      ∧ (t.ctx g).arch.depth = (s.ctx g).arch.depth - 1 ∧ (t.ctx g).bracket = none ∧ gone t c.id
      ∧ (t.ctx g).unsealed = [] ∧ (t.ctx g).captured.map Capture.arch = some (t.ctx g).arch
      ∧ (∀ i x, i < 4096 → r.2[i]? = some x → t.mem.read (nearKey (coreOf g) (base + i)) = x.1)
      ∧ ∀ i, i < top.toNat - base → t.mem.read (nearKey (coreOf g) (base + 4096 + i)) = r.1.state.nearByte g (base + i))

/-- R211, R224, R225, R229, R230, R234, R267: a phase ends when every task has committed and no engine command is in flight: its
logs are merged and the next phase's records posted; two tasks that wrote one byte outside every region end the kernel
faulted. A kernel that has come to its end leaves. A replay that has waited out its timeout ends its kernel. A queue whose
timer has run out stops its partition's queues, and the drain returns its clusters to their reset state. The reset values
that no rule gives (log entry 3), the place that a log keeps (log entry 37), that logged bytes for another device go nowhere
over a link that has closed since (log entry 82), what a command's end leaves in its queue (log
entry 41) and what a diverging replay discards (log entry 43) are the model's choice. -/
def Obligations.KernelEvents : Prop :=
  (∀ (kid : Nat) (k : Kernel) (s : State), s.kernel kid = some k → s.calendsDue kid = true → k.logs = [] → journalOff s →
    (k.phase.toNat + 1 < k.phases.toNat → ∃ t k', exec (.calends kid) s = .next t ∧ t.kernel kid = some k'
      ∧ k'.phase = k.phase + 1 ∧ k'.committed = [] ∧ k'.logs = [] ∧ k'.ended = none ∧ t.mem = s.mem ∧ t.ctxs = s.ctxs
      ∧ ∃ l : List Record, t.ce.pool = s.ce.pool ++ l ∧ l.length = 1024
        ∧ ∀ r ∈ l, r.kernel = kid ∧ r.phase = k.phase + 1 ∧ r.args = k.args)
    ∧ (k.phases.toNat ≤ k.phase.toNat + 1 → ∃ t k', exec (.calends kid) s = .next t ∧ t.kernel kid = some k'
      ∧ k'.phase = k.phase + 1 ∧ t.ce.pool = s.ce.pool ∧ t.mem = s.mem ∧ t.ctxs = s.ctxs))
  ∧ (∀ (kid task va : Nat) (k : Kernel) (b : LogByte) (s : State), s.kernel kid = some k → s.calendsDue kid = true →
    k.logs = [(task, [(va, b)])] → k.regions = [] → journalOff s →
    let at_ := s.forward ⟨b.dev, b.pa⟩
    (at_.dev = s.edge.dev → ∃ t, exec (.calends kid) s = .next t
      ∧ t.mem.read (physKey at_.pa) = b.byte ∧ ∀ a, a ≠ physKey at_.pa → t.mem.read a = s.mem.read a)
    ∧ (at_.dev ≠ s.edge.dev → s.edge.closed .link = true → ∃ t, exec (.calends kid) s = .next t
      ∧ t.mem = s.mem ∧ t.edge.link = s.edge.link))
  ∧ (∀ (kid t1 t2 va : Nat) (k : Kernel) (b c : LogByte) (s : State), s.kernel kid = some k → s.calendsDue kid = true →
    k.logs = [(t1, [(va, b)]), (t2, [(va, c)])] → k.regions = [] → journalOff s → ∃ t k', exec (.calends kid) s = .next t
      ∧ t.kernel kid = some k' ∧ k'.ended = some 0x0B ∧ t.mem = s.mem)
  ∧ (∀ (kid : Nat) (s : State), s.calendsDue kid = false → exec (.calends kid) s = .next s)
  ∧ (∀ (kid : Nat) (k : Kernel) (s : State), s.kernel kid = some k →
    (s.completionDue kid = true → journalOff s → ∃ t, exec (.kernelCompletion kid) s = .next t ∧ t.kernel kid = none
      ∧ (∀ m, m ≠ kid → t.kernel m = s.kernel m) ∧ t.mem = s.mem ∧ (∀ r ∈ t.ce.pool, r.kernel ≠ kid)
      ∧ (k.ended = none → ∀ c ∈ (t.queue k.queue).started, c.kernel ≠ some kid ∨ ∃ d, s.launchOf kid k = some d ∧ c.n ≠ d.n))
    ∧ ((s.cmds.any fun c => c.by_.kernel == some kid) = true → exec (.kernelCompletion kid) s = .next s))
  ∧ (∀ (kid since : Nat) (k : Kernel) (s : State), s.kernel kid = some k → s.lateAtomic kid k = none →
    k.waitSince = some since → k.ended = none →
    (since + k.timeout ≤ s.cycle → journalOff s → (∀ c ∈ s.cmds, c.parked = false) → ∃ t k', exec (.replaydiv kid) s = .next t ∧ t.kernel kid = some k'
      ∧ k'.ended = some 0x14 ∧ t.mem = s.mem ∧ ∀ r ∈ t.ce.pool, r.kernel ≠ kid)
    ∧ (s.cycle < since + k.timeout → exec (.replaydiv kid) s = .next s))
  ∧ (∀ s : State, ∃ t, exec .watchdogCheck s = .next t ∧ t.mem = s.mem ∧ t.ctxs = s.ctxs ∧ t.ce.kernels = s.ce.kernels
    ∧ ∀ n p, AMap.find s.ce.parts n = some p → p.drain = none →
      let late := fun q => q < 64 ∧ p.queues.getLsbD q = true ∧ (∃ c ∈ (s.queue q).started, c.op ≠ 3)
        ∧ (s.queue q).progress + p.wdt * 2 ^ 20 ≤ s.cycle
      ((∀ q, ¬late q) → AMap.find t.ce.parts n = some p)
      ∧ ∀ q, late q → (∀ r, r < q → ¬late r) → AMap.find t.ce.parts n = some { p with drain := some q }
        ∧ ∀ r, r < 64 → p.queues.getLsbD r = true → (t.queue r).running = false ∧ (t.queue r).faulted = true)
  ∧ ∀ (n q : Nat) (p : Partition) (s : State), AMap.find s.ce.parts n = some p →
    (p.drain = some q → journalOff s → ∃ t, exec (.watchdogDrain n) s = .next t
      ∧ AMap.find t.ce.parts n = some { p with drain := none }
      ∧ (∀ r, r < 64 → p.queues.getLsbD r = true → (t.queue r).started = [] ∧ (t.queue r).running = false
        ∧ (t.queue r).faulted = true)
      ∧ (∀ c ∈ t.cmds, c.by_.part ≠ n) ∧ (∀ k ∈ t.ce.kernels, k.2.part ≠ n)
      ∧ ∀ cl, cl < 12 → p.clusters.getLsbD cl = true →
        (∀ a, a < 0x4000000 → t.mem.read (ltsKey cl a) = 0)
        ∧ (∀ i a, i < 4 → a < 0x80000 → t.mem.read (nearKey (4 * cl + i) a) = 0)
        ∧ ∀ g, g / 8 = cl → (t.ctx g).state = .idle ∧ (t.ctx g).arch = Arch.reset ∧ (t.ctx g).kernel = none)
    ∧ (p.drain = none → exec (.watchdogDrain n) s = .next s)

/-- R152, R154 to R157, R160, R161: an age tick makes every row group one older and moves the band with the sensor by its
hysteresis of 2 degrees; a row group outside LC7 at its limit is invalidated; a service slot makes the row group at the head
of the refresh FIFO young; LQRY is answered with the state of its row group. The place of an almanac entry (log entry 11)
and when the background sweep reaches a row group of LC7 (log entry 69) are the model's choice. -/
def Obligations.LifetimeStoreEvents : Prop :=
  (∀ (cl : Nat) (s : State), (s.cluster cl).band ≤ 15 → ∃ t, exec (.ageTick cl) s = .next t ∧ t.mem = s.mem
    ∧ t.ctxs = s.ctxs ∧ (t.cluster cl).ages = (s.cluster cl).ages + 1 ∧ (∀ c, c ≠ cl → t.cluster c = s.cluster c)
    ∧ (∀ r, ((t.row cl r).stamp = (s.row cl r).stamp
        ∨ ((s.row cl r).valid = true ∧ (s.row cl r).cls = 7 ∧ (t.row cl r).stamp = (t.cluster cl).ages))
      ∧ (t.row cl r).valid = (s.row cl r).valid ∧ (t.row cl r).cls = (s.row cl r).cls ∧ (t.row cl r).owner = (s.row cl r).owner)
    ∧ (t.cluster cl).guards = AMap.get 0 s.edge.ltsg cl ∧ (t.cluster cl).almanac = s.edge.almanac
    ∧ (t.cluster cl).band ≤ 15
    ∧ (let at_ := (t.cluster cl).sensor
      let low := fun (b : Nat) => (-40 : Int) + 10 * b
      ((t.cluster cl).band = 15 ∨ at_ < low ((t.cluster cl).band + 1))
      ∧ ((t.cluster cl).band = 0 ∨ low (t.cluster cl).band - 2 ≤ at_)
      ∧ (low (s.cluster cl).band - 2 ≤ at_ → at_ < low ((s.cluster cl).band + 1) →
        (t.cluster cl).band = (s.cluster cl).band)))
  ∧ (∀ (cl : Nat) (s : State), ∃ t, exec (.ltsExpiry cl) s = .next t ∧ ∀ r,
      let x := s.row cl r
      let due := x.valid = true ∧ x.cls ≠ 7
        ∧ almanacAt (s.cluster cl).almanac (s.cluster cl).band x.cls.toNat ≤ min 0xFFFF ((s.cluster cl).ages - x.stamp)
      (due → (t.row cl r).valid = false) ∧ (¬due → t.row cl r = x))
  ∧ (∀ (cl r : Nat) (l : List Nat) (s : State), (s.cluster cl).fifo = r :: l →
    fifoSlot (s.cluster cl).share (s.cluster cl).slots = true → (s.row cl r).valid = true →
    ∃ t, exec (.refreshServiceSlot cl) s = .next t ∧ (t.row cl r).stamp = (s.cluster cl).ages
      ∧ (t.row cl r).queued = false ∧ (t.row cl r).valid = true ∧ (t.cluster cl).slots = (s.cluster cl).slots + 1
      ∧ (∀ q, q ≠ r → t.row cl q = s.row cl q) ∧ t.mem = s.mem ∧ t.ctxs = s.ctxs)
  ∧ ∀ (n row : Nat) (dst : BitVec 32) (c : Cmd) (s : State), inFlight s n c → c.op = .lqry row dst → c.by_.phased = false →
    c.by_.g < 96 → s.ce.saved = [] → c.by_.lo.toNat ≤ dst.toNat → dst.toNat + 7 ≤ c.by_.hi.toNat → c.by_.hi.toNat < 0x80000 →
    let key := nearKey (coreOf c.by_.g) dst.toNat
    ∃ t, exec (.lqryServed n) s = .next t ∧ gone t n
      ∧ readNat t.mem key 8 = (s.lqryWord (clusterOf c.by_.g) row).toNat
      ∧ ∀ k, ¬(key ≤ k ∧ k < key + 8) → journalOff s ∨ s.poison = [] ∨ k < 0x10000000 → t.mem.read k = s.mem.read k

/-- R101, R102, R110, R111, R113, R115, R116, R122, R129, R131, R146, R148, R166, R262, R264, R314, R374: the engines' steps and
completions: a k-step of an MMA pops one slot of each ring, and the last one ends it; a gang's claims them; one that meets
what it cannot read ends its MMA. A drain, a gang, a copy, a direct access, a collective and a weight stream leave with their
completion word; a collective of which a rank lies at a device outside the domain ends with FAULT, and one of a core that is held for its debugger waits for a debug step (R257; the pace of one such step
is the model's choice, log entry 17). A factor command loads its tile, or ends with the status of its first failing load (the
order of loads is the model's choice, log entry 66), goes from boundary to boundary, and at its stop leaves with its word; a
pre-emption request that no handler holds stops it at the next boundary, whatever keeps its context from freezing (what becomes
of it where the run ends first is the model's choice, log entry 29), where it is written back with its boundary in FPROG. A stream's prefetch adds one unit, and of the
units of the context's other streams none changes: the last may go, to be read again. -/
def Obligations.EngineCompletionEvents : Prop :=
  (∀ (core bank : Nat) (c : Cmd) (j : MatJob) (ta tb : Nat) (s : State), s.bankHead core bank = some c → s.ready c = true →
    s.pathWaits c = false → c.op = .mma j → s.stepTiles core j = some (.ok (ta, tb)) → j.aring ≠ j.bring →
    (c.prog + 1 = j.count → ∃ t, exec (.matrixKstep core bank) s = .next t ∧ gone t c.id)
    ∧ (c.prog + 1 ≠ j.count → ∃ t, exec (.matrixKstep core bank) s = .next t ∧ t.mem = s.mem ∧ t.ctxs = s.ctxs
      ∧ AMap.get 0 (t.core core).head j.aring = AMap.get 0 (s.core core).head j.aring + 1
      ∧ AMap.get 0 (t.core core).head j.bring = AMap.get 0 (s.core core).head j.bring + 1
      ∧ (t.core core).bank = ((s.runStep core j (c.prog == 0) ta tb).core core).bank
      ∧ ∀ d ∈ t.cmds, d.id = c.id → d.prog = c.prog + 1 ∨ ∃ e ∈ s.cmds, e ≠ c ∧ e.id = c.id))
  ∧ (∀ (core bank : Nat) (c : Cmd) (j : MatJob) (e : Nat × Nat × Nat) (s : State), s.bankHead core bank = some c →
    s.ready c = true → s.pathWaits c = false → c.op = .mma j → s.stepTiles core j = some (.error e) →
    ∃ t, exec (.matrixKstep core bank) s = .next t ∧ gone t c.id)
  ∧ (∀ (core bank : Nat) (mask : BitVec 4) (k j : MatJob) (pair : Word) (c : Cmd) (ta tb : Nat) (s : State),
    s.bankHead core bank = some c → s.ready c = true → s.pathWaits c = false → c.op = .gang mask k pair →
    c.parts.getD (core % 4) none = some j → c.partDone (core % 4) < j.count → s.stepTiles core j = some (.ok (ta, tb)) →
    j.aring ≠ j.bring → ∃ t, exec (.matrixKstep core bank) s = .next t ∧ t.mem = s.mem ∧ t.ctxs = s.ctxs
      ∧ (t.core core).head = (s.core core).head
      ∧ AMap.get 0 (t.core core).held j.aring = AMap.get 0 (s.core core).held j.aring + 1
      ∧ AMap.get 0 (t.core core).held j.bring = AMap.get 0 (s.core core).held j.bring + 1
      ∧ (t.core core).bank = ((s.runStep core j (c.partDone (core % 4) == 0) ta tb).core core).bank)
  ∧ (∀ (core bank : Nat) (s : State), s.bankHead core bank = none →
    exec (.matrixKstep core bank) s = .next s ∧ exec (.mretDrain core bank) s = .next s)
  ∧ (∀ (core bank b m n : Nat) (lsf isInt : Bool) (layout : MLayout) (dst : BitVec 32) (pair : Word) (c : Cmd) (s : State),
    s.bankHead core bank = some c → s.ready c = true → s.pathWaits c = false → c.op = .mret b lsf layout m n dst pair isInt → nearPair pair →
    c.by_.g < 96 →
    let w := s.engineWriteBytes c.by_ c.by_.lo.toNat c.by_.hi.toNat ((s.core core).drainBytes bank layout m n dst.toNat
      ++ if lsf then (s.core core).lsfBytes bank m n (dst.toNat + m * n * (if layout = .bf16 then 2 else 4)) else [])
    w.isolated = none → ∃ t, exec (.mretDrain core bank) s = .next t ∧ gone t c.id
      ∧ wordAt t c.by_.g pair (if w.dropped then 1 else if w.poisoned then 2 else 0))
  ∧ (∀ (n : Nat) (mask : BitVec 4) (j : MatJob) (pair : Word) (c : Cmd) (s : State), inFlight s n c →
    c.op = .gang mask j pair → c.gangDone = true → nearPair pair → c.by_.g < 96 →
    ∃ t, exec (.gangCompletion n) s = .next t ∧ gone t n ∧ ∀ i, i < 4 → mask.getLsbD i = true →
        readNat t.mem (nearKey (clusterOf c.by_.g * 4 + i) (fld pair 31 0)) 4
          = (if c.failed = 0 then 0 else 2 ^ 28) + c.failed.toNat * 2 ^ 24 + fld pair 55 32)
  ∧ (∀ (n : Nat) (j : FacJob) (c : Cmd) (s : State), inFlight s n c → c.op = .factor j → s.canFactor c = true →
    let fault := fun a => s.loadFault c.by_.g j.lo.toNat j.hi.toNat a
    let word := fun (t : State) (status : Nat) (lsf : Bool) (fprog : Nat) =>
      readNat t.mem (nearKey (coreOf c.by_.g) (fld j.pair 31 0)) 4 = (facWord status lsf fprog j.pair).toNat
    (c.work = none → (∀ a ∈ j.loads, fault a = none) → ∃ t w, exec (.factorStop n) s = .next t ∧ t.mem = s.mem
      ∧ (t.cmds.find? fun d => d.id == n) = some { c with work := some w, prog := j.first })
    ∧ (∀ l a r st code, c.work = none → j.loads = l ++ a :: r → (∀ b ∈ l, fault b = none) → fault a = some (st, code) →
      nearPair j.pair → c.by_.g < 96 → ∃ t, exec (.factorStop n) s = .next t ∧ gone t n
      ∧ word t st (c.flags.getLsbD 1) j.first)
    ∧ ∀ f gin, c.work = some (f, gin) → nearPair j.pair → c.by_.g < 96 →
      let x := s.ctx c.by_.g
      let asked := x.gen = c.by_.gen ∧ (x.state = .running ∨ x.state = .sealing ∨ x.state = .frozen) ∧ x.preq = true
        ∧ x.preqHeld = false
      let put := fun (x : Fac) => s.engineWriteBytes c.by_ j.lo.toNat j.hi.toNat (j.writeBack x)
      let failed := if j.op = 0x77 then 7 else 6
      let ends := fun (x : Fac) (k : Option Nat) => ∃ t, exec (.factorStop n) s = .next t ∧ gone t n
        ∧ word t (if (put x).dropped ∨ c.status = 1 then 1 else if k.isSome then failed else if (put x).poisoned then 2 else 0)
          (c.flags.getLsbD 1 || x.lsf) (k.getD 0)
      (j.n ≤ c.prog → ends f none)
      ∧ (c.prog < j.n → ¬asked → j.step f c.prog = none → ends f (some c.prog))
      ∧ (c.prog < j.n → ¬asked → ∀ x, j.step f c.prog = some x → (c.prog + 1 = j.n → ends x none)
        ∧ (c.prog + 1 ≠ j.n → ∃ t, exec (.factorStop n) s = .next t ∧ t.mem = s.mem ∧ t.ctxs = s.ctxs
          ∧ (t.cmds.find? fun d => d.id == n) = some { c with work := some (x, gin), prog := c.prog + 1 }))
      ∧ (c.prog < j.n → asked → ∃ t d, exec (.factorStop n) s = .next t ∧ t.mem = (put f).state.mem
        ∧ (t.cmds.find? fun d => d.id == n) = some d ∧ d.work = none ∧ d.waits = c.waits ∧ d.by_ = c.by_
        ∧ d.op = .factor { j with first := c.prog, perm := permBits f.perm, grown := some (gin, f.seen) }
        ∧ (t.ctx c.by_.g).fprog = BitVec.ofNat 8 c.prog ∧ (t.ctx c.by_.g).arch.pc = (s.ctx c.by_.g).arch.pc))
  ∧ (∀ (n : Nat) (c : Cmd) (s : State), transferred s n c →
    (∀ p addr off, c.op = .cpy p addr off → (u8At p 6).testBit 7 = false → nearPair (u64At p 0x38) →
      ∃ t, exec (.copyCompletion n) s = .next t ∧ gone t n ∧ wordAt t c.by_.g (u64At p 0x38) c.status)
    ∧ (∀ p addr brought, c.op = .coll p addr →
      (s.mayPace (coreOf c.by_.g) 1 = true → nearPair (u64At p 0x38) → s.ce.saved = [] →
        ∃ t, exec (.collCompletion n brought) s = .next t ∧ gone t n ∧ wordAt t c.by_.g (u64At p 0x38) c.status)
      ∧ (s.mayPace (coreOf c.by_.g) 1 = false → exec (.collCompletion n brought) s = .next s))
    ∧ ∀ fn order scope z d addr va, c.op = .dpath fn order scope z d addr va → nearPair (u64At d 16) →
      ∃ t, exec (.globalAccessCompletion n) s = .next t ∧ gone t n ∧ wordAt t c.by_.g (u64At d 16) c.status)
  ∧ (∀ (n r d : Nat) (p : BitVec 512) (addr : BitVec 32) (table : List Nat) (c : Cmd) (s : State), inFlight s n c →
    c.op = .coll p addr → c.prog = 0 → c.left = [] → s.mayRun c = true → s.mayPace (coreOf c.by_.g) 1 = true →
    s.sideLogged c = false → s.collTable p = some table → table[r]? = some d → r ≠ u16At p 4 → d ≠ s.edge.dev →
    d ∉ s.edge.domain → nearPair (u64At p 0x38) → s.ce.saved = [] → c.by_.g < 96 →
    ∃ t, exec (.collCompletion n []) s = .next t ∧ gone t n ∧ wordAt t c.by_.g (u64At p 0x38) 1)
  ∧ (∀ (cl : Nat) (c : Cmd) (p : BitVec 512) (addr : BitVec 32) (cfg : Word) (s : State), s.streaming cl = some c →
    c.op = .wstrm p addr cfg → c.hold = none → c.fail = none → c.by_.g < 96 →
    ((u32At p 4).toNat ≤ c.prog → s.ready c = true → nearPair (u64At p 0x20) → ∃ t, exec (.weightStreamTile cl) s = .next t
      ∧ gone t c.id ∧ wordAt t c.by_.g (u64At p 0x20) c.status)
    ∧ ((u32At p 4).toNat ≤ c.prog → s.ready c = false → exec (.weightStreamTile cl) s = .next s)
    ∧ (c.prog + 1 < (u32At p 4).toNat → s.bufferRoom cl p ((wbSlots cfg).getD 1) = true → (s.tileBytes c p).1.live = true →
      ∃ t, exec (.weightStreamTile cl) s = .next t ∧ ∀ k, k / 4 = cl → (u8At p 0).testBit (k % 4) = true →
        AMap.get 0 (t.core k).tail 7 = AMap.get 0 (s.core k).tail 7 + 1))
  ∧ (∀ (cl : Nat) (s : State), s.streaming cl = none → exec (.weightStreamTile cl) s = .next s)
  ∧ ∀ (g q : Nat) (st : Stream) (s : State), AMap.find (s.ctx g).arch.streams q = some st →
    (s.canFetch g q = true → ∃ t u, exec (.streamPrefetch g q) s = .next t ∧ t.mem = s.mem ∧ (∀ h, h ≠ g → t.ctx h = s.ctx h)
      ∧ AMap.get [] (t.ctx g).units q = AMap.get [] (s.ctx g).units q ++ [u]
      ∧ AMap.get 0 (t.ctx g).fetched q = AMap.get 0 (s.ctx g).fetched q + 1 ∧ (t.ctx g).arch = (s.ctx g).arch
      ∧ AMap.get 0 (t.ctx g).fetchOff q = AMap.get 0 (s.ctx g).fetchOff q + u.len
      ∧ (∀ r, r ≠ q → AMap.get [] (t.ctx g).units r <+: AMap.get [] (s.ctx g).units r)
      ∧ ∀ l, streamDec st.desc = false → s.streamBytes g (streamUnit st.desc (AMap.get 0 (s.ctx g).fetched q)) = .ok l →
        u.bad = none ∧ u.len = 0 ∧ u.data = BitVec.ofNat 2048 (leNat l))
    ∧ (s.canFetch g q = false → exec (.streamPrefetch g q) s = .next s)

/-- R165: a plain copy of one row within the near-store window, between ranges that do not meet, moves its bytes; no byte
outside the row's destination and the completion word changes, and the word says success. -/
def Obligations.PlainCopyMovesItsRow : Prop :=
  ∀ (n : Nat) (p : BitVec 512) (addr : BitVec 32) (off : Word) (c : Cmd) (s : State), inFlight s n c →
    c.op = .cpy p addr off → c = Cmd.new n c.by_ c.op c.waits → (s.unit (coreOf c.by_.g)).side = [] → c.by_.phased = false →
    u16At p 0 = 0 → u8At p 2 = 1 → u8At p 3 = 1 → u16At p 0x1C = 1 → u16At p 0x1E = 1 → u32At p 0x30 = 0 →
    (u8At p 6).testBit 7 = false → s.poison = [] → s.ce.saved = [] → c.by_.g < 96 →
    let src := (u64At p 8).toNat
    let dst := (u64At p 0x10).toNat
    let len := (u32At p 0x18).toNat
    let pair := u64At p 0x38
    let core := coreOf c.by_.g
    src + len ≤ 0x80000 → dst + len ≤ 0x80000 → c.by_.lo.toNat ≤ src → src + len ≤ c.by_.hi.toNat + 1 →
    c.by_.lo.toNat ≤ dst → dst + len ≤ c.by_.hi.toNat + 1 → src + len ≤ dst ∨ dst + len ≤ src →
    nearPair pair → fld pair 31 0 + 4 ≤ dst ∨ dst + len ≤ fld pair 31 0 →
    ∃ t, exec (.copyCompletion n) s = .next t ∧ gone t n ∧ wordAt t c.by_.g pair 0
      ∧ (∀ i, i < len → t.mem.read (nearKey core (dst + i)) = s.mem.read (nearKey core (src + i)))
      ∧ ∀ k, ¬(nearKey core dst ≤ k ∧ k < nearKey core dst + len) →
        ¬(nearKey core (fld pair 31 0) ≤ k ∧ k < nearKey core (fld pair 31 0) + 4) → t.mem.read k = s.mem.read k

/-- R178, R185 to R188, R193, R205, R208, R262, R266, R267: a page migration opens its window at the home of the old frame, by
a message where that is another device, and at its commit the old frame forwards there to the new one; it skips with status
FAULT a page that no leaf of its size maps, whose target is not legal, or whose old or new frame cannot be reached over Noleve
Link, then without its window; it waits for the other devices' reports of its
shootdown. A remote access of a device of the domain reads, writes and updates the memory of this one and is answered, poison
with it; the bytes of a write in an open window are parked while there is room, and those outside it land; what was parked
lands in the new frame at the commit; an old frame's bytes are those of the new one, or of the one after that; a read of one
that has moved to a device outside the domain is answered without bytes. A write of this
device's own into an open window is a migration fault. A device outside the domain, or an access
to a closed interface or a device in reset, has no effect. A shootdown drops exactly the TLB entries of its partition that it
names, and is reported. That an illegal target is skipped with FAULT (log entry 45), that a window closes
with its skipped page (log entry 78), what the devices of a domain are and send
(log entries 10, 44) and what a closed interface leaves undone (log entry 47) are the model's choices. -/
def Obligations.MigrationAndLinkEvents : Prop :=
  (∀ (n : Nat) (p : BitVec 512) (addr : BitVec 32) (pair : Word) (c : Cmd) (l : Leaf) (pte pa : Nat) (s : State),
    inFlight s n c → c.op = .pmig p addr pair → c.prog % 4 = 0 → c.prog / 4 < (u32At p 8).toNat →
    s.migLeaf c.by_.part p (c.prog / 4) = some l → s.migTarget p (c.prog / 4) = some pa → l.entry = some pte →
    s.frameReached ⟨l.dev, l.pbase⟩ l.size = true →
    ∃ t, exec (.pmigPageMigration n) s = .next t ∧ t.ctxs = s.ctxs
      ∧ t.edge.windows = s.edge.windows ++ [⟨l.dev, s.edge.dev, c.id, l.pbase, l.size⟩]
      ∧ (l.dev ≠ s.edge.dev → ⟨l.dev, l.pbase, .window c.id l.size⟩ ∈ t.edge.link)
      ∧ (t.cmds.find? fun d => d.id == n) = some { c with prog := c.prog + 1, pos := pa })
  ∧ (∀ (n : Nat) (p : BitVec 512) (addr : BitVec 32) (pair : Word) (c : Cmd) (l : Leaf) (s : State),
    inFlight s n c → c.op = .pmig p addr pair → c.prog % 4 = 2 → c.prog / 4 < (u32At p 8).toNat →
    s.migLeaf c.by_.part p (c.prog / 4) = some l → s.edge.park = [] →
    let dev := if u8At p 0xD = 2 then u16At p 0xE else s.edge.dev
    s.frameReached ⟨l.dev, l.pbase⟩ l.size = true → s.frameReached ⟨dev, c.pos⟩ l.size = true →
    ∃ t, exec (.pmigPageMigration n) s = .next t ∧ t.ctxs = s.ctxs
      ∧ t.edge = { s.edge with
          windows := s.edge.windows.filter fun w => !(w.owner == s.edge.dev && w.cmd == c.id)
          forwards := s.edge.forwards ++ [⟨l.dev, s.edge.dev, c.id, l.pbase, l.size, dev, c.pos⟩]
          link := s.edge.link ++ if l.dev = s.edge.dev then [] else [⟨l.dev, l.pbase, .forward c.id l.size dev c.pos⟩] }
      ∧ (t.cmds.find? fun d => d.id == n) = some { c with prog := c.prog + 1, pos := l.pbase })
  ∧ (∀ (n : Nat) (p : BitVec 512) (addr : BitVec 32) (pair : Word) (c : Cmd) (s : State),
    inFlight s n c → c.op = .pmig p addr pair → c.prog % 4 = 0 → c.prog / 4 + 1 < (u32At p 8).toNat →
    (∀ l, s.migLeaf c.by_.part p (c.prog / 4) = some l → s.frameReached ⟨l.dev, l.pbase⟩ l.size = false)
      ∨ s.migTarget p (c.prog / 4) = none → ∃ t, exec (.pmigPageMigration n) s = .next t ∧ t.mem = s.mem
      ∧ t.edge = s.edge ∧ (t.cmds.find? fun d => d.id == n) = some { c with prog := c.prog + 4, status := 1 })
  ∧ (∀ (n : Nat) (p : BitVec 512) (addr : BitVec 32) (pair : Word) (c : Cmd) (s : State),
    inFlight s n c → c.op = .pmig p addr pair → c.prog % 4 = 1 ∧ s.shooting c.id = false ∨ c.prog % 4 = 2 →
    c.prog / 4 + 1 < (u32At p 8).toNat → s.edge.park = [] →
    let dev := if u8At p 0xD = 2 then u16At p 0xE else s.edge.dev
    (∀ l, s.migLeaf c.by_.part p (c.prog / 4) = some l →
      s.frameReached ⟨l.dev, l.pbase⟩ l.size = false ∨ s.frameReached ⟨dev, c.pos⟩ l.size = false) →
    ∃ t, exec (.pmigPageMigration n) s = .next t ∧ t.mem = s.mem ∧ t.ctxs = s.ctxs
      ∧ (∀ w, w ∈ t.edge.windows ↔ w ∈ s.edge.windows ∧ ¬(w.owner = s.edge.dev ∧ w.cmd = c.id))
      ∧ (t.cmds.find? fun d => d.id == n) = some { c with prog := (c.prog / 4 + 1) * 4, status := 1 })
  ∧ (∀ (n : Nat) (p : BitVec 512) (addr : BitVec 32) (pair : Word) (c : Cmd) (s : State),
    inFlight s n c → c.op = .pmig p addr pair → c.prog % 4 = 1 → c.prog / 4 < (u32At p 8).toNat → s.shooting c.id = true →
    exec (.pmigPageMigration n) s = .next s)
  ∧ (∀ (src pa : Nat) (op : RemoteOp) (s : State),
    src ∉ s.edge.domain ∨ s.edge.closed .link = true ∨ s.edge.locked = true → exec (.noleveRemoteAccess src pa op) s = .next s)
  ∧ (∀ (src pa : Nat) (s : State), linked s src → s.edge.windows = [] → s.edge.forwards = [] →
    (∀ n, s.mappedRange pa n = true → ∃ bad, exec (.noleveRemoteAccess src pa (.read n)) s
        = .next (answered s src pa (readKeys s.mem (physKey pa) n) bad)
      ∧ ∀ i, i ∈ bad ↔ i < (pa % 64 + n + 63) / 64 ∧ physKey pa / 64 + i ∈ s.poison)
    ∧ (∀ l bad, s.mappedRange pa l.length = true → journalOff s → ∃ t met,
      exec (.noleveRemoteAccess src pa (.write l bad)) s = .next t ∧ t.ctxs = s.ctxs
      ∧ t.edge = (answered s src pa [] met).edge
      ∧ (∀ i, i ∈ met ↔ i < (pa % 64 + l.length + 63) / 64 ∧ physKey pa / 64 + i ∈ s.poison
        ∧ ¬(pa ≤ 64 * (pa / 64 + i) ∧ 64 * (pa / 64 + i) + 64 ≤ pa + l.length))
      ∧ (∀ g ∈ bad, 64 * (pa / 64 + g) < pa + l.length → physKey pa / 64 + g ∈ t.poison)
      ∧ readKeys t.mem (physKey pa) l.length = l ∧ onlyPhys s t pa l.length)
    ∧ ∀ a b, s.mappedRange pa 8 = true → s.poison = [] → journalOff s → ∃ t,
      exec (.noleveRemoteAccess src pa (.atomic 2 8 a b)) s = .next t ∧ t.ctxs = s.ctxs
      ∧ readNat t.mem (physKey pa) 8 = (readNat s.mem (physKey pa) 8 + a.toNat) % 2 ^ 64
      ∧ t.edge = (answered s src pa (leBytes 8 (readNat s.mem (physKey pa) 8)) []).edge)
  ∧ (∀ (src pa : Nat) (w : Window) (l : List Byte) (bad : NSet) (s : State), linked s src → s.edge.windows = [w] →
    s.edge.forwards = [] → w.home = s.edge.dev → l ≠ [] → pa + l.length ≤ w.old + w.size →
    (w.old ≤ pa → s.edge.park.length < 1024 → ∃ b, exec (.noleveRemoteAccess src pa (.write l bad)) s = .next { s with
        edge := { s.edge with park := s.edge.park ++ [⟨pa, l, b, src, pa⟩] } }
      ∧ ∀ g, g ∈ b ↔ g ∈ bad ∧ 64 * (pa / 64 + g) < pa + l.length)
    ∧ (w.old ≤ pa → 1024 ≤ s.edge.park.length → exec (.noleveRemoteAccess src pa (.write l bad)) s = .next s)
    ∧ (pa < w.old → w.old < pa + l.length → s.edge.park.length < 1024 → s.mappedRange pa (w.old - pa) = true → journalOff s →
      ∃ t b, exec (.noleveRemoteAccess src pa (.write l bad)) s = .next t ∧ t.ctxs = s.ctxs
      ∧ t.edge.park = s.edge.park ++ [⟨w.old, l.drop (w.old - pa), b, src, w.old⟩]
      ∧ readKeys t.mem (physKey pa) (w.old - pa) = l.take (w.old - pa) ∧ onlyPhys s t pa (w.old - pa)))
  ∧ (∀ (src pa : Nat) (f : Forward) (s : State), linked s src → s.edge.windows = [] → s.edge.forwards = [f] →
    f.home = s.edge.dev → f.dev = s.edge.dev → f.old ≤ pa → pa < f.old + f.size →
    f.pa = f.old ∨ f.pa + f.size ≤ f.old ∨ f.old + f.size ≤ f.pa →
    let new := f.pa + (pa - f.old)
    (∀ n, pa + n ≤ f.old + f.size → s.mappedRange new n = true → ∃ bad, exec (.noleveRemoteAccess src pa (.read n)) s
      = .next (answered s src pa (readKeys s.mem (physKey new) n) bad))
    ∧ ∀ l, pa + l.length ≤ f.old + f.size → s.mappedRange new l.length = true → journalOff s → ∃ t,
      exec (.noleveRemoteAccess src pa (.write l [])) s = .next t ∧ t.ctxs = s.ctxs
      ∧ readKeys t.mem (physKey new) l.length = l ∧ onlyPhys s t new l.length)
  ∧ (∀ (src pa : Nat) (f h : Forward) (s : State), linked s src → s.edge.forwards = [f, h] → f.home = s.edge.dev →
    f.dev = s.edge.dev → h.home = s.edge.dev → h.dev = s.edge.dev → f.old ≤ pa → pa < f.old + f.size →
    let next := f.pa + (pa - f.old)
    h.old ≤ next → next < h.old + h.size →
    let new := h.pa + (next - h.old)
    s.mappedRange new 1 = true → ∃ bad, exec (.noleveRemoteAccess src pa (.read 1)) s
      = .next (answered s src pa [s.mem.read (physKey new)] bad))
  ∧ (∀ (src pa : Nat) (f : Forward) (s : State), linked s src → s.edge.windows = [] → s.edge.forwards = [f] →
    f.home = s.edge.dev → f.dev ≠ s.edge.dev → f.dev ∉ s.edge.domain → f.old ≤ pa → pa < f.old + f.size →
    exec (.noleveRemoteAccess src pa (.read 1)) s = .next (answered s src pa [] []))
  ∧ (∀ (pa : Nat) (w : Window) (s : State), w ∈ s.edge.windows → w.home = s.edge.dev → w.old ≤ pa → pa < w.old + w.size →
    s.edge.forwards = [] → s.placed true ⟨s.edge.dev, pa⟩ = .request 2)
  ∧ (∀ (src pa tag : Nat) (s : State), linked s src →
    let ends := fun (w : Window) => w.owner == src && w.cmd == tag
    (∀ part range, ∃ t, exec (.noleveRemoteAccess src pa (.shootdown tag part range)) s
        = .next { t with edge := { t.edge with link := t.edge.link ++ [⟨src, 0, .report tag⟩] } }
      ∧ exec (.tlbShootdown part range) s = .next t)
    ∧ (exec (.noleveRemoteAccess src pa (.report tag)) s = .next { s with edge := { s.edge with
        shots := s.edge.shots.filter fun x => x != (tag, src) } })
    ∧ (∀ size, exec (.noleveRemoteAccess src pa (.window tag size)) s = .next { s with edge := { s.edge with
        windows := s.edge.windows ++ [⟨s.edge.dev, src, tag, pa, size⟩] } })
    ∧ (s.edge.park = [] → exec (.noleveRemoteAccess src pa (.close tag)) s = .next { s with edge := { s.edge with
        windows := s.edge.windows.filter fun w => !ends w } })
    ∧ (∀ size dev new, s.edge.park = [] → exec (.noleveRemoteAccess src pa (.forward tag size dev new)) s = .next { s with
        edge := { s.edge with
          windows := s.edge.windows.filter fun w => !ends w
          forwards := s.edge.forwards ++ [⟨s.edge.dev, src, tag, pa, size, dev, new⟩] }
        ce := { s.ce with kernels := s.ce.kernels.map fun k =>
          (k.1, k.2.follow ⟨s.edge.dev, src, tag, pa, size, dev, new⟩) } })
    ∧ (∀ size new w q, s.edge.park = [q] → s.edge.windows = [w] → ends w = true → w.home = s.edge.dev → w.old ≤ q.pa →
      q.pa < w.old + w.size → q.poison = [] → s.mappedRange (new + (q.pa - w.old)) q.bytes.length = true → journalOff s → ∃ t,
      exec (.noleveRemoteAccess src pa (.forward tag size s.edge.dev new)) s = .next t ∧ t.edge.park = []
      ∧ t.edge.windows = [] ∧ (∃ met, t.edge.link = s.edge.link ++ [⟨q.src, q.sent, .answer [] met⟩])
      ∧ readKeys t.mem (physKey (new + (q.pa - w.old))) q.bytes.length = q.bytes
      ∧ onlyPhys s t (new + (q.pa - w.old)) q.bytes.length)
    ∧ exec (.noleveRemoteAccess src pa (.retire tag)) s = .next { s with edge := { s.edge with
        forwards := s.edge.forwards.filter fun f => !(f.owner == src && f.cmd == tag) } })
  ∧ ∀ (part : Nat) (range : Option (Nat × Nat)) (s : State), ∃ t, exec (.tlbShootdown part range) s = .next t ∧ t.mem = s.mem
    ∧ t.ctxs = s.ctxs ∧ ∀ u e, e ∈ (t.unit u).tlb ↔ e ∈ (s.unit u).tlb ∧ ¬(e.part = part ∧ match range with
      | some (lo, n) => e.vbase < lo + n ∧ lo < e.vbase + e.size
      | none => e.glob = false)

/-- R289: the fourteen instructions of the ADD family complete with the results and the latency of the rule, and change
nothing but that pending write: no flag, no memory, no other register. R290, R319, R334: the immediate forms, the
constants and the immediate shifts. R289, R290, R319, R334: the words of majors 0x01 to 0x0A. The fields stand as the
formats of the rules have them; a function value of 14 or more, an immediate shift of kind 3, and one with a bit of
imm[14:8] set, are no instruction, and ILLEGAL. -/
def Obligations.ScalarAluResults : Prop := ScalarAluForms ∧ ScalarImmediateResults ∧ ScalarAluWords

/-- R325, R303: the products, and the quotients and remainders with their corners: a zero divisor gives all ones or the
dividend, and the most negative number over minus one gives itself. R293, R297, R298, R318: the bit instructions, LEA,
and CMOV, which makes no write at all when b is zero. R298, R303, R318, R325: the words of majors 0x0B, 0x0D and 0x0E: a
function value of 7 or more beside MUL, a nonzero fn[9:3] of LEA and a nonzero fn of CMOV are no instruction, and
ILLEGAL. -/
def Obligations.ScalarMultiplyDivideAndBitResults : Prop := ScalarMultiplyDivideResults ∧ ScalarBitResults ∧ ScalarMultiplyWords

/-- R66, R137, R317: the seven loads complete in slot M for every address, aligned or not, in the window or out of it.
That SPV and SPVIO are recorded with the access, to show when it lands, is the model's choice (log entry 25). R137: a
byte out of the window reads as zero, whatever the memory holds. -/
def Obligations.LoadResults : Prop := LoadForms ∧ OutOfWindowReadsZero

/-- R66, R137, R239, R317: the four stores complete where the gated buffer has room, or in a handler; the bytes out of
the window are dropped, and no other byte is stored. That SPV and SPVIO are recorded at the issue is the model's choice
(log entry 25). R139, R43: a load of the next bundle sees a byte that a gated store of this bundle holds, before any
proof has sealed; every other address reads as before. -/
def Obligations.StoreResults : Prop := StoreForms ∧ StoreForwarding

/-- R206, R327: the near atomics NAADD, NACAS and NAXCH; a NACAS whose compare fails writes nothing. That one waits for
the bracketing proof of its own bundle alone, and that a handler's needs none, is the model's choice (log entries 12,
54). R206, R327: outside a handler a near atomic whose proof is not sealed waits, and one on a misaligned address is
ILLEGAL: where it does not complete. -/
def Obligations.NearAtomicResults : Prop := NearAtomicForms ∧ NearAtomicWaits

/-- R364, R365, R358: the vector loads and stores of registers that are no streams complete: each byte lane j of the
mask, or byte j of element i, is read from or written to its own address; a strided access is at a + i × b, an indexed
one at a + z × element i of the index, each aligned down to z. That SPV and SPVIO are recorded with the access is the
model's choice (log entry 25). R365, R358: where elements of a scatter share a byte, the highest element that covers the
byte gives it. -/
def Obligations.VectorMemoryResults : Prop := VectorMemoryForms ∧ ScatterTakesTheHighestElement

/-- R341, R342, R370: the integer vector instructions of two sources and VABS. R341: VADDS clamps the signed sum, and
sets SATF exactly if an active element clamps. -/
def Obligations.VectorIntegerResults : Prop := VectorIntegerForms ∧ VectorSaturatingAdd

/-- R40, R41: a pending scalar write that is due, the only one, is in its register after landing, and one of s0 is
discarded; every other scalar, the vectors and the predicates stay. R41: of the writes that are due and change a bit of
one register, the one that lands last, and of those of one landing tick the later issued, and of those of one bundle
that of the higher slot, decides the bit. Pending writes stand in the order of their issue. R51: a landing vector write
changes exactly the bytes of its mask. R51: a byte lane is written under a predicate exactly if the predicate's bit of
its element's lowest byte is set. R41, R50: s0 reads as zero and p0 as all ones in every state, and a landing write of
either changes nothing. -/
def Obligations.LandingRules : Prop := ScalarLanding ∧ LandingOrder ∧ VectorLanding ∧ ActiveLanes ∧ HardwiredRegisters

/-- R353, R354, R355: the float instructions on vectors, with the flags and the draws of RNGCTR. R60, R348, R350: the
dot products, whose zo changes nothing and which are ILLEGAL while FMT.SEG is 6 or 7, and the special functions, each
rounded once. That zi acts on the addend of VDOTA (log entry 19), and the approximation from which a special function is
rounded (log entry 20), are the model's choices. -/
def Obligations.VectorFloatResults : Prop := VectorFloatForms ∧ VectorDotAndSpecialResults

/-- R369, R356: the reductions; an integer maximum of no active element is the least number, a minimum the greatest.
R329: the predicate instructions. PCNT and PFIRST count elements, PFIRST answers n for none, PLANES sets the bytes of
the elements below b. -/
def Obligations.VectorReductionAndPredicateResults : Prop := VectorReductionResults ∧ PredicateResults

/-- R46, R320: LOOP in a bundle that is issued once, outside a second level of loops and with its body inside the loop
around it, gives the loop from the parcel after its bundle; a count of zero skips the body. Elsewhere it is ILLEGAL.
R44, R333: SETFMT takes effect four ticks on if bits [31:21] are zero and RM is below 6, and is ILLEGAL otherwise. -/
def Obligations.LoopAndSetfmtResults : Prop := LoopResults ∧ SetfmtResults

/-- R238, R240, R332: PROOF outside a handler and in a bundle issued once captures the context as it stands, as the
newest of at most two unsealed proofs; with two unsealed the bundle stalls; elsewhere it is ILLEGAL. R359: VIGIL goes on
when its vigil is complete; before that it stalls, having registered the arrival as soon as no proof is unsealed. In a
handler, or with a mask that does not name the context, it is ILLEGAL. An arrival kept from a VIGIL of another id or
mask gives way (log entry 58). R203, R372: WAITA on an aligned address in the window goes on exactly if its condition
holds between the memory value and y, both of z bytes, and stalls its bundle otherwise; elsewhere it is ILLEGAL. That a
poisoned value raises nothing is the model's choice (log entry 40). R59, R372: a bundle that stalls leaves no ERD of its
context that has come due to be taken again at the end of a cycle (log entry 8), so that what the bundle waits with does
not change. -/
def Obligations.ProofVigilAndWaitaResults : Prop := ProofResults ∧ VigilResults ∧ WaitaResults ∧ StalledBundleKeepsSamples

/-- R22, R23: SPAWN outside a handler claims an idle or reserved context of the cluster at once, which starts 24 cycles
later at x[31:0] with n scalar arguments; on any other target it raises the SPAWN cause, 0x05, with k. R15, R20, R304:
SUSP and DONE outside a handler end their segment at their bundle, once every context spawned has ended and there is
room for the proof; until then the bundle stalls. A SUSP's record carries x[31:0], six scalars from y and the affinity.
-/
def Obligations.SpawnAndSegmentEndResults : Prop := SpawnResults ∧ SegmentEndResults

/-- R53, R54, R301, R302: CRD lands the value of an assigned control register two ticks on, CWR a write one tick on, and
both are ILLEGAL for a number that is not assigned. A few of the registers' values are spelled out. R41, R54, R302: a
write that lands in a read-only control register changes nothing, one to FLAGS or AEVT clears the bits it sets, but for
those of AEVT that an event has set in this cycle, and one to TVEC, TSTK, RNGKEY, RNGCTR or VGTMO writes them. -/
def Obligations.ControlRegisterResults : Prop := ControlRegisterForms ∧ ControlWriteLanding

/-- R45, R291, R316: the branches compare signed or unsigned and go to h + sext(off15); JMP and JMPR write the link and
transfer to h + sext(imm20) or to a[31:0], read at issue. R250, R251, R294, R339: TRAP and BKPT are taken at the
boundary after their bundle, as causes 0x11 and 0x10 with their code; ERET in a handler has its bundle leave the
handler, and is ILLEGAL outside one. R247, R251, R257, R294: at the boundary after its bundle a BKPT freezes the context
where a debugger is present, in a handler too: no handler is entered, and CAUSE alone of the trap registers records it;
without a debugger the cause is taken. That is so where no cause of an earlier instruction is due at that boundary; of
TRAP and BKPT alike, a poisoned landing that is due there is taken in their place. R71, R328: NOP has no effect in any
slot, and a word that matches no row is ILLEGAL in every slot, with the word as the detail of the cause. -/
def Obligations.TransferAndTrapResults : Prop := TransferResults ∧ TrapInstructionResults ∧ BkptForTheDebugger ∧ NopAndIllegalWord

/-- R160, R161, R162, R184, R185, R263, R313, R330, R373: the commands of the copy, global and lifetime paths are held
with what they capture. R143, R145: STRB of a legal descriptor binds an unbound name from the next tick on, STRU unbinds
it, and of an unbound name has no effect. -/
def Obligations.PathCommandResults : Prop := PathCommandForms ∧ StreamBindingResults

/-- R105, R106, R107, R110, R112, R114, R323, R324, R326: the array commands are held with what they capture at issue,
and the chain of the bank is opened, continued or closed at issue. R119, R120: the factor commands are held with the
registers they capture, where the order, the stride, the addresses and the context's own chain allow it. -/
def Obligations.MatrixAndFactorCommandResults : Prop := MatrixCommandResults ∧ FactorCommandResults

/-- R33, R37, R39, R331: PRINT of the empty bundle, in a context with nothing pending, no loop, and a signature that
does not end here, issues in one tick: TICK and the repetition or the parcel address advance, and no register, no memory
and no other context changes. R33, R37, R39, R331: a PRINT of any plate runs the eight words of the plate, those of
plate 0 being zero, each in its slot in order, on the context with its due writes landed; if none stalls or raises and
its block's signature fits, one repetition has issued. For a plate whose words compute in registers alone, no stream
being bound, that is one tick: the parcel address stays and the repetition advances until the last of the k + 1, after
which the next parcel follows, and no byte of memory changes. R32, R34, R37: a full bundle runs the eight words of the
sixteen parcels after its header, each in its slot in order, on the context with its due writes landed; if none stalls
or raises and its block's signature fits, the bundle has issued, and prefetched units that no longer agree with what its
pushes wrote are read again. R12, R206, R248: what a bundle writes to near store at its issue, by a near atomic or in a
handler, is in memory when both contexts of its core have had their turn of the cycle: no read of the sibling's bundle
of that cycle sees it. That nothing comes between the two turns is the model's choice (log entry 5). -/
def Obligations.ParcelRunsItsBundle : Prop := PrintOfTheEmptyBundle ∧ PrintRunsItsPlate ∧ FullBundleRunsItsWords ∧ NearWritesLandAfterBothTurns

/-- R30, R31, R48: what stands at the fetch position of the context that executes: the instruction of the parcel at its
parcel address, for a block with an entry in the signature table, in valid and unpoisoned rows, where the parcels it
spans do not straddle the end of an active loop. That a valid row group gives code whatever its class is the model's
choice (log entry 62). R11, R31: a step of the machine at a context's turn runs the instruction at its fetch position by
exec, then ends the turn; it stops only where exec stops. The order of the turns, and of what comes between them, is the
model's choice (log entry 5). -/
def Obligations.StepRunsTheInstruction : Prop := FetchReadsTheParcel ∧ StepRunsTheFetched

/-- R137, R139, R206, R239: outside a handler an instruction of slot M that issues changes no byte of memory and no
other context. Of its own context it adds pending writes of its destination or of FLAGS and, a store, one entry to the
gated buffer, of exactly the bytes of its operand at the addresses of its form that lie in the window; the stack
instructions move STKTOP; SPVIO takes the first address out of range (log entry 25). A near atomic leaves for its bundle
the bytes of the new value at its address. Everything else stays. R137, R239: outside a handler an instruction of slot C
that raises nothing changes no memory at its issue. But for SPAWN it changes no other context, and of its own only this:
pending writes (CRD, CWR, JMP, JMPR, and SPV of ENGRAVE and BNSET with SPVIO), the shadow of FMT (SETFMT), the gated
buffer (TRIG, FENCE, and with FENCE the wait of the next bundle), the proofs (PROOF) and the arrival (VIGIL). The stores
of the core change by ENGRAVE and BNSET alone, a free choice with BNSET. R58, R106, R143, R239: outside a handler an
instruction of slot E that raises nothing changes no memory, no register, no other context and no command in flight at
its issue: a command takes one entry of the gated buffer, with its issuer. EWR writes an engine register (ERNG at the
end of the cycle), ERD adds a pending write, a matrix command keeps the book of its chain and the kind of its bank, and
STRB and STRU bind and unbind their stream. Everything else stays. -/
def Obligations.SlotFrames : Prop := SlotMFrame ∧ SlotCFrame ∧ SlotEFrame

/-- Memory in its canonical form is determined by what it reads as. R193: bytes written in order to distinct addresses
read back, and every other byte stays. R129, R193: a write of less than a granule that cannot be read leaves it
poisoned, with the new bytes merged, though it was flawed alone; so does a store to near store, at its seal. -/
def Obligations.MemoryReadsBackWhatIsWritten : Prop := MemoryIsItsBytes ∧ WrittenBytesReadBack ∧ PartialWritesPoison

/-- R246, R247, R248, R251: a cause of TRAP, BKPT or LTSEXP taken outside a handler with a good TSTK: the trap
registers, INTRAP, s30 and s31 saved at TSTK, s31 at TSTK, the handler at TVEC with no loop, repetition or block under
way; the pending writes are kept for the return, and the causes that are pending wait for the handler's end. No other
byte of memory, no other register and no other context changes. TVEC and TSTK are those with the writes that land at the
entry's boundary (R302). R243, R244, R246, R247, R248: any other cause first rewinds its context to the newest captured
proof: the handler runs on the registers of that proof, TRAPPC is its parcel address, and the entries and proofs of
later segments are discarded; the state is otherwise that of trap entry, and no context changes but those that a
discarded SPAWN had claimed. -/
def Obligations.TrapEntry : Prop := TrapEntryForms ∧ TrapEntryRewinds

/-- R116, R242, R245 to R247, R257, R302, R359 to R361: what a boundary of a context takes: of an engine's cause and a
poisoned landing the one of the earlier-issued instruction, either before an expiry notice; a breakpoint's freeze, a
vigil that all its contexts have reached, after which their streams read memory again, a vigil's timeout by the VGTMO
that has landed; a strike takes both contexts of its core back to their newest sealed proofs. Nothing is taken where
nothing is due. What a rewind brings back beside the registers of R238 is the model's choice (log entries 13, 14). R141,
R142: a slide moves STKTOP by 4 KiB, down for a slide whose bytes have reached the overflow area and up for an inverse
one, with the stack's bytes moved by as much, and a proof that has sealed follows it; neither does anything while its
context does not wait for it. That a slide in a handler is bracketed too is the model's choice (log entry 26). -/
def Obligations.BoundaryAndSlideEvents : Prop := BoundaryEvents ∧ StackSlideEvents

/-- R38, R71: the meaning of a slot word inside its bundle is that of the instruction it decodes to, and a word that
decodes to nothing is ILLEGAL. R64, R71: a slot instruction in a slot that may not hold it is ILLEGAL, whatever its
operands. -/
def Obligations.SlotRunsDecodedWord : Prop := SlotRunsItsWord ∧ WrongSlotIsIllegal
end

