-- ==== Sys2Proof/Laws/Map.lean ====
section
/-!
SUPPORT. What reading and writing finite maps, number sets and the byte memory come to.
-/

namespace Sys2Proof.Machine

/-! Finite maps. -/

@[simp] theorem AMap.find_nil {α : Type} (k : Nat) : AMap.find ([] : AMap α) k = none := rfl
@[simp] theorem AMap.get_nil {α : Type} (d : α) (k : Nat) : AMap.get d ([] : AMap α) k = d := rfl

/-- A key that has been written holds what was written. -/
@[simp] theorem AMap.find_put_self {α : Type} (m : AMap α) (k : Nat) (v : α) : AMap.find (AMap.put m k v) k = some v := by
  induction m with
  | nil => simp [AMap.put, AMap.find]
  | cons p t ih =>
    obtain ⟨a, x⟩ := p
    simp only [AMap.put]
    split
    · simp [AMap.find]
    · split
      · simp [AMap.find]
      · rename_i h _; simp [AMap.find, h, ih]

/-- A write leaves every other key alone. -/
theorem AMap.find_put_other {α : Type} (m : AMap α) {k j : Nat} (v : α) (h : j ≠ k) :
    AMap.find (AMap.put m k v) j = AMap.find m j := by
  induction m with
  | nil => simp [AMap.put, AMap.find, h]
  | cons p t ih =>
    obtain ⟨a, x⟩ := p
    simp only [AMap.put]
    split
    · rename_i e; subst e; simp [AMap.find, h]
    · split
      · simp [AMap.find, h]
      · simp [AMap.find, ih]

theorem AMap.find_put {α : Type} (m : AMap α) (k j : Nat) (v : α) :
    AMap.find (AMap.put m k v) j = if j = k then some v else AMap.find m j := by
  split
  · rename_i h; subst h; exact AMap.find_put_self m j v
  · rename_i h; exact AMap.find_put_other m v h

@[simp] theorem AMap.get_put_self {α : Type} (d : α) (m : AMap α) (k : Nat) (v : α) : AMap.get d (AMap.put m k v) k = v := by
  simp [AMap.get]

theorem AMap.get_put_other {α : Type} (d : α) (m : AMap α) {k j : Nat} (v : α) (h : j ≠ k) :
    AMap.get d (AMap.put m k v) j = AMap.get d m j := by
  simp [AMap.get, AMap.find_put_other m v h]

/-- A key that has been removed holds nothing; the others are left alone. -/
theorem AMap.find_del {α : Type} (m : AMap α) (k j : Nat) :
    AMap.find (AMap.del m k) j = if j = k then none else AMap.find m j := by
  induction m with
  | nil => simp [AMap.del]
  | cons p t ih =>
    obtain ⟨a, x⟩ := p
    simp only [AMap.del, List.filter_cons] at ih ⊢
    by_cases ha : a = k
    · subst ha; simp only [bne_self_eq_false]
      simp only [Bool.false_eq_true, if_false, ih, AMap.find]
      by_cases hj : j = a <;> simp [hj]
    · have : (a != k) = true := by simpa using ha
      simp only [this, if_true, AMap.find, ih]
      by_cases hj : j = a
      · subst hj; simp [ha]
      · simp [hj]

@[simp] theorem AMap.find_del_self {α : Type} (m : AMap α) (k : Nat) : AMap.find (AMap.del m k) k = none := by
  simp [AMap.find_del]

/-- What a filter by key keeps, it leaves as it was. -/
theorem AMap.find_filter {α : Type} (m : AMap α) (f : Nat → Bool) (j : Nat) :
    AMap.find (m.filter fun p => f p.1) j = if f j then AMap.find m j else none := by
  induction m with
  | nil => simp
  | cons p t ih =>
    obtain ⟨a, x⟩ := p
    simp only [List.filter_cons]
    cases ha : f a
    · simp only [Bool.false_eq_true, if_false, ih, AMap.find]
      by_cases hj : j = a
      · subst hj; simp [ha]
      · simp [hj]
    · simp only [if_true, AMap.find, ih]
      by_cases hj : j = a
      · subst hj; simp [ha]
      · simp [hj]

/-! Number sets. -/

theorem NSet.mem_add (s : NSet) (k j : Nat) : j ∈ NSet.add s k ↔ j = k ∨ j ∈ s := by
  induction s with
  | nil => simp [NSet.add]
  | cons a t ih =>
    simp only [NSet.add]
    split
    · rename_i h; subst h; simp
    · split
      · simp
      · simp only [List.mem_cons, ih]; tauto

theorem NSet.mem_del (s : NSet) (k j : Nat) : j ∈ NSet.del s k ↔ j ∈ s ∧ j ≠ k := by simp [NSet.del]

/-! The byte memory. -/

/-- A byte that has been written reads back; every other byte is left alone. -/
theorem Memory.read_write (m : Memory) (k j : Nat) (v : Byte) :
    (m.write k v).read j = if j = k then v else m.read j := by
  unfold Memory.write Memory.read AMap.get
  split
  · rename_i h; subst h; rw [AMap.find_del]; split <;> simp
  · rw [AMap.find_put]; split <;> simp

@[simp] theorem Memory.read_write_self (m : Memory) (k : Nat) (v : Byte) : (m.write k v).read k = v := by
  simp [Memory.read_write]

theorem Memory.read_write_other (m : Memory) {k j : Nat} (v : Byte) (h : j ≠ k) : (m.write k v).read j = m.read j := by
  simp [Memory.read_write, h]

/-- A byte that no entry lists reads as the unlisted value. -/
@[simp] theorem Memory.read_nil (k : Nat) : Memory.read [] k = Memory.unlisted := rfl

theorem Memory.wf_nil : Memory.wf [] := ⟨List.Pairwise.nil, by simp⟩

/-- Whatever a filter keeps of a memory in canonical form is in canonical form. -/
theorem Memory.wf_filter {m : Memory} (h : m.wf) (f : Host.Cell → Bool) : Memory.wf (m.filter f) :=
  ⟨h.1.filter f, fun p hp => h.2 p (List.mem_filter.1 hp).1⟩

/-- The keys of a map after a write are those before it and the written one. -/
theorem AMap.mem_put {α : Type} {m : AMap α} {k : Nat} {v : α} {p : Nat × α} (h : p ∈ AMap.put m k v) :
    p = (k, v) ∨ p ∈ m := by
  induction m with
  | nil => simpa [AMap.put] using h
  | cons q t ih =>
    obtain ⟨a, x⟩ := q
    simp only [AMap.put] at h
    split at h
    · rcases List.mem_cons.1 h with h | h
      · exact .inl h
      · exact .inr (List.mem_cons_of_mem _ h)
    · split at h
      · rcases List.mem_cons.1 h with h | h
        · exact .inl h
        · exact .inr h
      · rcases List.mem_cons.1 h with h | h
        · exact .inr (h ▸ List.mem_cons_self)
        · rcases ih h with h | h
          · exact .inl h
          · exact .inr (List.mem_cons_of_mem _ h)

/-- A map in rising order stays so. -/
theorem AMap.pairwise_put {α : Type} {m : AMap α} (h : m.Pairwise fun p q => p.1 < q.1) (k : Nat) (v : α) :
    (AMap.put m k v).Pairwise fun p q => p.1 < q.1 := by
  induction m with
  | nil => simp [AMap.put]
  | cons q t ih =>
    obtain ⟨a, x⟩ := q
    obtain ⟨h1, h2⟩ := List.pairwise_cons.1 h
    simp only [AMap.put]
    split
    · rename_i e; exact List.pairwise_cons.2 ⟨fun p hp => by have := h1 p hp; simp_all, h2⟩
    · split
      · rename_i e
        refine List.pairwise_cons.2 ⟨fun p hp => ?_, h⟩
        rcases List.mem_cons.1 hp with hp | hp
        · subst hp; exact e
        · exact lt_trans e (h1 p hp)
      · rename_i e1 e2
        refine List.pairwise_cons.2 ⟨fun p hp => ?_, ih h2⟩
        rcases AMap.mem_put hp with hp | hp
        · subst hp; simp only; omega
        · exact h1 p hp

/-- A write of a byte keeps the canonical form. -/
theorem Memory.wf_write {m : Memory} (h : m.wf) (k : Nat) (v : Byte) : (m.write k v).wf := by
  unfold Memory.write
  split
  · exact Memory.wf_filter h _
  · rename_i hv
    refine ⟨AMap.pairwise_put h.1 k v, fun p hp => ?_⟩
    rcases AMap.mem_put hp with hp | hp
    · subst hp; exact hv
    · exact h.2 p hp

/-- Writes of bytes keep the canonical form. -/
theorem Memory.wf_foldl_write (l : List (Nat × Byte)) {m : Memory} (h : m.wf) :
    (l.foldl (fun m c => m.write c.1 c.2) m).wf := by
  induction l generalizing m with
  | nil => exact h
  | cons c t ih => exact ih (Memory.wf_write h c.1 c.2)

/-- A byte that no write of a list names is as before. -/
theorem Memory.read_foldl_write_other (l : List (Nat × Byte)) (m : Memory) {k : Nat} (h : ∀ c ∈ l, c.1 ≠ k) :
    (l.foldl (fun m c => m.write c.1 c.2) m).read k = m.read k := by
  induction l generalizing m with
  | nil => rfl
  | cons c t ih =>
    rw [List.foldl_cons, ih _ fun d hd => h d (List.mem_cons_of_mem _ hd),
      Memory.read_write_other _ _ (Ne.symm (h c List.mem_cons_self))]

/-- A byte holds what the last write of it in a list wrote. -/
theorem Memory.read_foldl_write (l : List (Nat × Byte)) (m : Memory) (k : Nat) :
    (l.foldl (fun m c => m.write c.1 c.2) m).read k = ((l.reverse.find? fun c => c.1 == k).map Prod.snd).getD (m.read k) := by
  induction l generalizing m with
  | nil => rfl
  | cons c t ih =>
    rw [List.foldl_cons, ih, List.reverse_cons, List.find?_append]
    cases h : t.reverse.find? fun c => c.1 == k with
    | some d => simp
    | none =>
      by_cases e : c.1 = k
      · subst e; simp
      · have : (c.1 == k) = false := by simpa using e
        simp [this, Memory.read_write_other _ _ (Ne.symm e)]

end Sys2Proof.Machine
end

