-- ==== Sys2Proof/Laws/State.lean ====
section
/-!
SUPPORT. What each update of the state leaves as it was, field by field, and what it can be read back as.
-/

namespace Sys2Proof.Machine

@[simp] theorem State.setCtx_cycle (s : State) (g : Nat) (c : Ctx) : (s.setCtx g c).cycle = s.cycle := rfl
@[simp] theorem State.setCtx_turn (s : State) (g : Nat) (c : Ctx) : (s.setCtx g c).turn = s.turn := rfl
@[simp] theorem State.setCtx_busy (s : State) (g : Nat) (c : Ctx) : (s.setCtx g c).busy = s.busy := rfl
@[simp] theorem State.setCtx_late (s : State) (g : Nat) (c : Ctx) : (s.setCtx g c).late = s.late := rfl
@[simp] theorem State.setCtx_cur (s : State) (g : Nat) (c : Ctx) : (s.setCtx g c).cur = s.cur := rfl
@[simp] theorem State.setCtx_slot (s : State) (g : Nat) (c : Ctx) : (s.setCtx g c).slot = s.slot := rfl
@[simp] theorem State.setCtx_iss (s : State) (g : Nat) (c : Ctx) : (s.setCtx g c).iss = s.iss := rfl
@[simp] theorem State.setCtx_cores (s : State) (g : Nat) (c : Ctx) : (s.setCtx g c).cores = s.cores := rfl
@[simp] theorem State.setCtx_clusters (s : State) (g : Nat) (c : Ctx) : (s.setCtx g c).clusters = s.clusters := rfl
@[simp] theorem State.setCtx_units (s : State) (g : Nat) (c : Ctx) : (s.setCtx g c).units = s.units := rfl
@[simp] theorem State.setCtx_mem (s : State) (g : Nat) (c : Ctx) : (s.setCtx g c).mem = s.mem := rfl
@[simp] theorem State.setCtx_poison (s : State) (g : Nat) (c : Ctx) : (s.setCtx g c).poison = s.poison := rfl
@[simp] theorem State.setCtx_flawed (s : State) (g : Nat) (c : Ctx) : (s.setCtx g c).flawed = s.flawed := rfl
@[simp] theorem State.setCtx_deferred (s : State) (g : Nat) (c : Ctx) : (s.setCtx g c).deferred = s.deferred := rfl
@[simp] theorem State.setCtx_cmds (s : State) (g : Nat) (c : Ctx) : (s.setCtx g c).cmds = s.cmds := rfl
@[simp] theorem State.setCtx_nextCmd (s : State) (g : Nat) (c : Ctx) : (s.setCtx g c).nextCmd = s.nextCmd := rfl
@[simp] theorem State.setCtx_ce (s : State) (g : Nat) (c : Ctx) : (s.setCtx g c).ce = s.ce := rfl
@[simp] theorem State.setCtx_edge (s : State) (g : Nat) (c : Ctx) : (s.setCtx g c).edge = s.edge := rfl
@[simp] theorem State.setCtx_inbox (s : State) (g : Nat) (c : Ctx) : (s.setCtx g c).inbox = s.inbox := rfl
@[simp] theorem State.setCtx_choice (s : State) (g : Nat) (c : Ctx) : (s.setCtx g c).choice = s.choice := rfl

@[simp] theorem State.modCtx_cycle (s : State) (g : Nat) (f : Ctx → Ctx) : (s.modCtx g f).cycle = s.cycle := rfl
@[simp] theorem State.modCtx_turn (s : State) (g : Nat) (f : Ctx → Ctx) : (s.modCtx g f).turn = s.turn := rfl
@[simp] theorem State.modCtx_busy (s : State) (g : Nat) (f : Ctx → Ctx) : (s.modCtx g f).busy = s.busy := rfl
@[simp] theorem State.modCtx_late (s : State) (g : Nat) (f : Ctx → Ctx) : (s.modCtx g f).late = s.late := rfl
@[simp] theorem State.modCtx_cur (s : State) (g : Nat) (f : Ctx → Ctx) : (s.modCtx g f).cur = s.cur := rfl
@[simp] theorem State.modCtx_slot (s : State) (g : Nat) (f : Ctx → Ctx) : (s.modCtx g f).slot = s.slot := rfl
@[simp] theorem State.modCtx_iss (s : State) (g : Nat) (f : Ctx → Ctx) : (s.modCtx g f).iss = s.iss := rfl
@[simp] theorem State.modCtx_cores (s : State) (g : Nat) (f : Ctx → Ctx) : (s.modCtx g f).cores = s.cores := rfl
@[simp] theorem State.modCtx_clusters (s : State) (g : Nat) (f : Ctx → Ctx) : (s.modCtx g f).clusters = s.clusters := rfl
@[simp] theorem State.modCtx_units (s : State) (g : Nat) (f : Ctx → Ctx) : (s.modCtx g f).units = s.units := rfl
@[simp] theorem State.modCtx_mem (s : State) (g : Nat) (f : Ctx → Ctx) : (s.modCtx g f).mem = s.mem := rfl
@[simp] theorem State.modCtx_poison (s : State) (g : Nat) (f : Ctx → Ctx) : (s.modCtx g f).poison = s.poison := rfl
@[simp] theorem State.modCtx_flawed (s : State) (g : Nat) (f : Ctx → Ctx) : (s.modCtx g f).flawed = s.flawed := rfl
@[simp] theorem State.modCtx_deferred (s : State) (g : Nat) (f : Ctx → Ctx) : (s.modCtx g f).deferred = s.deferred := rfl
@[simp] theorem State.modCtx_cmds (s : State) (g : Nat) (f : Ctx → Ctx) : (s.modCtx g f).cmds = s.cmds := rfl
@[simp] theorem State.modCtx_nextCmd (s : State) (g : Nat) (f : Ctx → Ctx) : (s.modCtx g f).nextCmd = s.nextCmd := rfl
@[simp] theorem State.modCtx_ce (s : State) (g : Nat) (f : Ctx → Ctx) : (s.modCtx g f).ce = s.ce := rfl
@[simp] theorem State.modCtx_edge (s : State) (g : Nat) (f : Ctx → Ctx) : (s.modCtx g f).edge = s.edge := rfl
@[simp] theorem State.modCtx_inbox (s : State) (g : Nat) (f : Ctx → Ctx) : (s.modCtx g f).inbox = s.inbox := rfl
@[simp] theorem State.modCtx_choice (s : State) (g : Nat) (f : Ctx → Ctx) : (s.modCtx g f).choice = s.choice := rfl

@[simp] theorem State.modArch_cycle (s : State) (g : Nat) (f : Arch → Arch) : (s.modArch g f).cycle = s.cycle := rfl
@[simp] theorem State.modArch_turn (s : State) (g : Nat) (f : Arch → Arch) : (s.modArch g f).turn = s.turn := rfl
@[simp] theorem State.modArch_busy (s : State) (g : Nat) (f : Arch → Arch) : (s.modArch g f).busy = s.busy := rfl
@[simp] theorem State.modArch_late (s : State) (g : Nat) (f : Arch → Arch) : (s.modArch g f).late = s.late := rfl
@[simp] theorem State.modArch_cur (s : State) (g : Nat) (f : Arch → Arch) : (s.modArch g f).cur = s.cur := rfl
@[simp] theorem State.modArch_slot (s : State) (g : Nat) (f : Arch → Arch) : (s.modArch g f).slot = s.slot := rfl
@[simp] theorem State.modArch_iss (s : State) (g : Nat) (f : Arch → Arch) : (s.modArch g f).iss = s.iss := rfl
@[simp] theorem State.modArch_cores (s : State) (g : Nat) (f : Arch → Arch) : (s.modArch g f).cores = s.cores := rfl
@[simp] theorem State.modArch_clusters (s : State) (g : Nat) (f : Arch → Arch) : (s.modArch g f).clusters = s.clusters := rfl
@[simp] theorem State.modArch_units (s : State) (g : Nat) (f : Arch → Arch) : (s.modArch g f).units = s.units := rfl
@[simp] theorem State.modArch_mem (s : State) (g : Nat) (f : Arch → Arch) : (s.modArch g f).mem = s.mem := rfl
@[simp] theorem State.modArch_poison (s : State) (g : Nat) (f : Arch → Arch) : (s.modArch g f).poison = s.poison := rfl
@[simp] theorem State.modArch_flawed (s : State) (g : Nat) (f : Arch → Arch) : (s.modArch g f).flawed = s.flawed := rfl
@[simp] theorem State.modArch_deferred (s : State) (g : Nat) (f : Arch → Arch) : (s.modArch g f).deferred = s.deferred := rfl
@[simp] theorem State.modArch_cmds (s : State) (g : Nat) (f : Arch → Arch) : (s.modArch g f).cmds = s.cmds := rfl
@[simp] theorem State.modArch_nextCmd (s : State) (g : Nat) (f : Arch → Arch) : (s.modArch g f).nextCmd = s.nextCmd := rfl
@[simp] theorem State.modArch_ce (s : State) (g : Nat) (f : Arch → Arch) : (s.modArch g f).ce = s.ce := rfl
@[simp] theorem State.modArch_edge (s : State) (g : Nat) (f : Arch → Arch) : (s.modArch g f).edge = s.edge := rfl
@[simp] theorem State.modArch_inbox (s : State) (g : Nat) (f : Arch → Arch) : (s.modArch g f).inbox = s.inbox := rfl
@[simp] theorem State.modArch_choice (s : State) (g : Nat) (f : Arch → Arch) : (s.modArch g f).choice = s.choice := rfl

@[simp] theorem State.modCore_cycle (s : State) (c : Nat) (f : Core → Core) : (s.modCore c f).cycle = s.cycle := rfl
@[simp] theorem State.modCore_turn (s : State) (c : Nat) (f : Core → Core) : (s.modCore c f).turn = s.turn := rfl
@[simp] theorem State.modCore_busy (s : State) (c : Nat) (f : Core → Core) : (s.modCore c f).busy = s.busy := rfl
@[simp] theorem State.modCore_late (s : State) (c : Nat) (f : Core → Core) : (s.modCore c f).late = s.late := rfl
@[simp] theorem State.modCore_cur (s : State) (c : Nat) (f : Core → Core) : (s.modCore c f).cur = s.cur := rfl
@[simp] theorem State.modCore_slot (s : State) (c : Nat) (f : Core → Core) : (s.modCore c f).slot = s.slot := rfl
@[simp] theorem State.modCore_iss (s : State) (c : Nat) (f : Core → Core) : (s.modCore c f).iss = s.iss := rfl
@[simp] theorem State.modCore_ctxs (s : State) (c : Nat) (f : Core → Core) : (s.modCore c f).ctxs = s.ctxs := rfl
@[simp] theorem State.modCore_clusters (s : State) (c : Nat) (f : Core → Core) : (s.modCore c f).clusters = s.clusters := rfl
@[simp] theorem State.modCore_units (s : State) (c : Nat) (f : Core → Core) : (s.modCore c f).units = s.units := rfl
@[simp] theorem State.modCore_mem (s : State) (c : Nat) (f : Core → Core) : (s.modCore c f).mem = s.mem := rfl
@[simp] theorem State.modCore_poison (s : State) (c : Nat) (f : Core → Core) : (s.modCore c f).poison = s.poison := rfl
@[simp] theorem State.modCore_flawed (s : State) (c : Nat) (f : Core → Core) : (s.modCore c f).flawed = s.flawed := rfl
@[simp] theorem State.modCore_deferred (s : State) (c : Nat) (f : Core → Core) : (s.modCore c f).deferred = s.deferred := rfl
@[simp] theorem State.modCore_cmds (s : State) (c : Nat) (f : Core → Core) : (s.modCore c f).cmds = s.cmds := rfl
@[simp] theorem State.modCore_nextCmd (s : State) (c : Nat) (f : Core → Core) : (s.modCore c f).nextCmd = s.nextCmd := rfl
@[simp] theorem State.modCore_ce (s : State) (c : Nat) (f : Core → Core) : (s.modCore c f).ce = s.ce := rfl
@[simp] theorem State.modCore_edge (s : State) (c : Nat) (f : Core → Core) : (s.modCore c f).edge = s.edge := rfl
@[simp] theorem State.modCore_inbox (s : State) (c : Nat) (f : Core → Core) : (s.modCore c f).inbox = s.inbox := rfl
@[simp] theorem State.modCore_choice (s : State) (c : Nat) (f : Core → Core) : (s.modCore c f).choice = s.choice := rfl

@[simp] theorem State.modCluster_cycle (s : State) (c : Nat) (f : Cluster → Cluster) : (s.modCluster c f).cycle = s.cycle := rfl
@[simp] theorem State.modCluster_turn (s : State) (c : Nat) (f : Cluster → Cluster) : (s.modCluster c f).turn = s.turn := rfl
@[simp] theorem State.modCluster_busy (s : State) (c : Nat) (f : Cluster → Cluster) : (s.modCluster c f).busy = s.busy := rfl
@[simp] theorem State.modCluster_late (s : State) (c : Nat) (f : Cluster → Cluster) : (s.modCluster c f).late = s.late := rfl
@[simp] theorem State.modCluster_cur (s : State) (c : Nat) (f : Cluster → Cluster) : (s.modCluster c f).cur = s.cur := rfl
@[simp] theorem State.modCluster_slot (s : State) (c : Nat) (f : Cluster → Cluster) : (s.modCluster c f).slot = s.slot := rfl
@[simp] theorem State.modCluster_iss (s : State) (c : Nat) (f : Cluster → Cluster) : (s.modCluster c f).iss = s.iss := rfl
@[simp] theorem State.modCluster_ctxs (s : State) (c : Nat) (f : Cluster → Cluster) : (s.modCluster c f).ctxs = s.ctxs := rfl
@[simp] theorem State.modCluster_cores (s : State) (c : Nat) (f : Cluster → Cluster) : (s.modCluster c f).cores = s.cores := rfl
@[simp] theorem State.modCluster_units (s : State) (c : Nat) (f : Cluster → Cluster) : (s.modCluster c f).units = s.units := rfl
@[simp] theorem State.modCluster_mem (s : State) (c : Nat) (f : Cluster → Cluster) : (s.modCluster c f).mem = s.mem := rfl
@[simp] theorem State.modCluster_poison (s : State) (c : Nat) (f : Cluster → Cluster) : (s.modCluster c f).poison = s.poison := rfl
@[simp] theorem State.modCluster_flawed (s : State) (c : Nat) (f : Cluster → Cluster) : (s.modCluster c f).flawed = s.flawed := rfl
@[simp] theorem State.modCluster_deferred (s : State) (c : Nat) (f : Cluster → Cluster) : (s.modCluster c f).deferred = s.deferred := rfl
@[simp] theorem State.modCluster_cmds (s : State) (c : Nat) (f : Cluster → Cluster) : (s.modCluster c f).cmds = s.cmds := rfl
@[simp] theorem State.modCluster_nextCmd (s : State) (c : Nat) (f : Cluster → Cluster) : (s.modCluster c f).nextCmd = s.nextCmd := rfl
@[simp] theorem State.modCluster_ce (s : State) (c : Nat) (f : Cluster → Cluster) : (s.modCluster c f).ce = s.ce := rfl
@[simp] theorem State.modCluster_edge (s : State) (c : Nat) (f : Cluster → Cluster) : (s.modCluster c f).edge = s.edge := rfl
@[simp] theorem State.modCluster_inbox (s : State) (c : Nat) (f : Cluster → Cluster) : (s.modCluster c f).inbox = s.inbox := rfl
@[simp] theorem State.modCluster_choice (s : State) (c : Nat) (f : Cluster → Cluster) : (s.modCluster c f).choice = s.choice := rfl

@[simp] theorem State.modUnit_cycle (s : State) (c : Nat) (f : CopyUnit → CopyUnit) : (s.modUnit c f).cycle = s.cycle := rfl
@[simp] theorem State.modUnit_turn (s : State) (c : Nat) (f : CopyUnit → CopyUnit) : (s.modUnit c f).turn = s.turn := rfl
@[simp] theorem State.modUnit_busy (s : State) (c : Nat) (f : CopyUnit → CopyUnit) : (s.modUnit c f).busy = s.busy := rfl
@[simp] theorem State.modUnit_late (s : State) (c : Nat) (f : CopyUnit → CopyUnit) : (s.modUnit c f).late = s.late := rfl
@[simp] theorem State.modUnit_cur (s : State) (c : Nat) (f : CopyUnit → CopyUnit) : (s.modUnit c f).cur = s.cur := rfl
@[simp] theorem State.modUnit_slot (s : State) (c : Nat) (f : CopyUnit → CopyUnit) : (s.modUnit c f).slot = s.slot := rfl
@[simp] theorem State.modUnit_iss (s : State) (c : Nat) (f : CopyUnit → CopyUnit) : (s.modUnit c f).iss = s.iss := rfl
@[simp] theorem State.modUnit_ctxs (s : State) (c : Nat) (f : CopyUnit → CopyUnit) : (s.modUnit c f).ctxs = s.ctxs := rfl
@[simp] theorem State.modUnit_cores (s : State) (c : Nat) (f : CopyUnit → CopyUnit) : (s.modUnit c f).cores = s.cores := rfl
@[simp] theorem State.modUnit_clusters (s : State) (c : Nat) (f : CopyUnit → CopyUnit) : (s.modUnit c f).clusters = s.clusters := rfl
@[simp] theorem State.modUnit_mem (s : State) (c : Nat) (f : CopyUnit → CopyUnit) : (s.modUnit c f).mem = s.mem := rfl
@[simp] theorem State.modUnit_poison (s : State) (c : Nat) (f : CopyUnit → CopyUnit) : (s.modUnit c f).poison = s.poison := rfl
@[simp] theorem State.modUnit_flawed (s : State) (c : Nat) (f : CopyUnit → CopyUnit) : (s.modUnit c f).flawed = s.flawed := rfl
@[simp] theorem State.modUnit_deferred (s : State) (c : Nat) (f : CopyUnit → CopyUnit) : (s.modUnit c f).deferred = s.deferred := rfl
@[simp] theorem State.modUnit_cmds (s : State) (c : Nat) (f : CopyUnit → CopyUnit) : (s.modUnit c f).cmds = s.cmds := rfl
@[simp] theorem State.modUnit_nextCmd (s : State) (c : Nat) (f : CopyUnit → CopyUnit) : (s.modUnit c f).nextCmd = s.nextCmd := rfl
@[simp] theorem State.modUnit_ce (s : State) (c : Nat) (f : CopyUnit → CopyUnit) : (s.modUnit c f).ce = s.ce := rfl
@[simp] theorem State.modUnit_edge (s : State) (c : Nat) (f : CopyUnit → CopyUnit) : (s.modUnit c f).edge = s.edge := rfl
@[simp] theorem State.modUnit_inbox (s : State) (c : Nat) (f : CopyUnit → CopyUnit) : (s.modUnit c f).inbox = s.inbox := rfl
@[simp] theorem State.modUnit_choice (s : State) (c : Nat) (f : CopyUnit → CopyUnit) : (s.modUnit c f).choice = s.choice := rfl

@[simp] theorem State.modQueue_cycle (s : State) (q : Nat) (f : Queue → Queue) : (s.modQueue q f).cycle = s.cycle := rfl
@[simp] theorem State.modQueue_turn (s : State) (q : Nat) (f : Queue → Queue) : (s.modQueue q f).turn = s.turn := rfl
@[simp] theorem State.modQueue_busy (s : State) (q : Nat) (f : Queue → Queue) : (s.modQueue q f).busy = s.busy := rfl
@[simp] theorem State.modQueue_late (s : State) (q : Nat) (f : Queue → Queue) : (s.modQueue q f).late = s.late := rfl
@[simp] theorem State.modQueue_cur (s : State) (q : Nat) (f : Queue → Queue) : (s.modQueue q f).cur = s.cur := rfl
@[simp] theorem State.modQueue_slot (s : State) (q : Nat) (f : Queue → Queue) : (s.modQueue q f).slot = s.slot := rfl
@[simp] theorem State.modQueue_iss (s : State) (q : Nat) (f : Queue → Queue) : (s.modQueue q f).iss = s.iss := rfl
@[simp] theorem State.modQueue_ctxs (s : State) (q : Nat) (f : Queue → Queue) : (s.modQueue q f).ctxs = s.ctxs := rfl
@[simp] theorem State.modQueue_cores (s : State) (q : Nat) (f : Queue → Queue) : (s.modQueue q f).cores = s.cores := rfl
@[simp] theorem State.modQueue_clusters (s : State) (q : Nat) (f : Queue → Queue) : (s.modQueue q f).clusters = s.clusters := rfl
@[simp] theorem State.modQueue_units (s : State) (q : Nat) (f : Queue → Queue) : (s.modQueue q f).units = s.units := rfl
@[simp] theorem State.modQueue_mem (s : State) (q : Nat) (f : Queue → Queue) : (s.modQueue q f).mem = s.mem := rfl
@[simp] theorem State.modQueue_poison (s : State) (q : Nat) (f : Queue → Queue) : (s.modQueue q f).poison = s.poison := rfl
@[simp] theorem State.modQueue_flawed (s : State) (q : Nat) (f : Queue → Queue) : (s.modQueue q f).flawed = s.flawed := rfl
@[simp] theorem State.modQueue_deferred (s : State) (q : Nat) (f : Queue → Queue) : (s.modQueue q f).deferred = s.deferred := rfl
@[simp] theorem State.modQueue_cmds (s : State) (q : Nat) (f : Queue → Queue) : (s.modQueue q f).cmds = s.cmds := rfl
@[simp] theorem State.modQueue_nextCmd (s : State) (q : Nat) (f : Queue → Queue) : (s.modQueue q f).nextCmd = s.nextCmd := rfl
@[simp] theorem State.modQueue_edge (s : State) (q : Nat) (f : Queue → Queue) : (s.modQueue q f).edge = s.edge := rfl
@[simp] theorem State.modQueue_inbox (s : State) (q : Nat) (f : Queue → Queue) : (s.modQueue q f).inbox = s.inbox := rfl
@[simp] theorem State.modQueue_choice (s : State) (q : Nat) (f : Queue → Queue) : (s.modQueue q f).choice = s.choice := rfl

@[simp] theorem State.modIss_cycle (s : State) (f : Issue → Issue) : (s.modIss f).cycle = s.cycle := rfl
@[simp] theorem State.modIss_turn (s : State) (f : Issue → Issue) : (s.modIss f).turn = s.turn := rfl
@[simp] theorem State.modIss_busy (s : State) (f : Issue → Issue) : (s.modIss f).busy = s.busy := rfl
@[simp] theorem State.modIss_late (s : State) (f : Issue → Issue) : (s.modIss f).late = s.late := rfl
@[simp] theorem State.modIss_cur (s : State) (f : Issue → Issue) : (s.modIss f).cur = s.cur := rfl
@[simp] theorem State.modIss_slot (s : State) (f : Issue → Issue) : (s.modIss f).slot = s.slot := rfl
@[simp] theorem State.modIss_ctxs (s : State) (f : Issue → Issue) : (s.modIss f).ctxs = s.ctxs := rfl
@[simp] theorem State.modIss_cores (s : State) (f : Issue → Issue) : (s.modIss f).cores = s.cores := rfl
@[simp] theorem State.modIss_clusters (s : State) (f : Issue → Issue) : (s.modIss f).clusters = s.clusters := rfl
@[simp] theorem State.modIss_units (s : State) (f : Issue → Issue) : (s.modIss f).units = s.units := rfl
@[simp] theorem State.modIss_mem (s : State) (f : Issue → Issue) : (s.modIss f).mem = s.mem := rfl
@[simp] theorem State.modIss_poison (s : State) (f : Issue → Issue) : (s.modIss f).poison = s.poison := rfl
@[simp] theorem State.modIss_flawed (s : State) (f : Issue → Issue) : (s.modIss f).flawed = s.flawed := rfl
@[simp] theorem State.modIss_deferred (s : State) (f : Issue → Issue) : (s.modIss f).deferred = s.deferred := rfl
@[simp] theorem State.modIss_cmds (s : State) (f : Issue → Issue) : (s.modIss f).cmds = s.cmds := rfl
@[simp] theorem State.modIss_nextCmd (s : State) (f : Issue → Issue) : (s.modIss f).nextCmd = s.nextCmd := rfl
@[simp] theorem State.modIss_ce (s : State) (f : Issue → Issue) : (s.modIss f).ce = s.ce := rfl
@[simp] theorem State.modIss_edge (s : State) (f : Issue → Issue) : (s.modIss f).edge = s.edge := rfl
@[simp] theorem State.modIss_inbox (s : State) (f : Issue → Issue) : (s.modIss f).inbox = s.inbox := rfl
@[simp] theorem State.modIss_choice (s : State) (f : Issue → Issue) : (s.modIss f).choice = s.choice := rfl

@[simp] theorem State.stall_cycle (s : State)  : (s.stall).cycle = s.cycle := rfl
@[simp] theorem State.stall_turn (s : State)  : (s.stall).turn = s.turn := rfl
@[simp] theorem State.stall_busy (s : State)  : (s.stall).busy = s.busy := rfl
@[simp] theorem State.stall_late (s : State)  : (s.stall).late = s.late := rfl
@[simp] theorem State.stall_cur (s : State)  : (s.stall).cur = s.cur := rfl
@[simp] theorem State.stall_slot (s : State)  : (s.stall).slot = s.slot := rfl
@[simp] theorem State.stall_ctxs (s : State)  : (s.stall).ctxs = s.ctxs := rfl
@[simp] theorem State.stall_cores (s : State)  : (s.stall).cores = s.cores := rfl
@[simp] theorem State.stall_clusters (s : State)  : (s.stall).clusters = s.clusters := rfl
@[simp] theorem State.stall_units (s : State)  : (s.stall).units = s.units := rfl
@[simp] theorem State.stall_mem (s : State)  : (s.stall).mem = s.mem := rfl
@[simp] theorem State.stall_poison (s : State)  : (s.stall).poison = s.poison := rfl
@[simp] theorem State.stall_flawed (s : State)  : (s.stall).flawed = s.flawed := rfl
@[simp] theorem State.stall_deferred (s : State)  : (s.stall).deferred = s.deferred := rfl
@[simp] theorem State.stall_cmds (s : State)  : (s.stall).cmds = s.cmds := rfl
@[simp] theorem State.stall_nextCmd (s : State)  : (s.stall).nextCmd = s.nextCmd := rfl
@[simp] theorem State.stall_ce (s : State)  : (s.stall).ce = s.ce := rfl
@[simp] theorem State.stall_edge (s : State)  : (s.stall).edge = s.edge := rfl
@[simp] theorem State.stall_inbox (s : State)  : (s.stall).inbox = s.inbox := rfl
@[simp] theorem State.stall_choice (s : State)  : (s.stall).choice = s.choice := rfl

@[simp] theorem State.writeCells_cycle (s : State) (l : List (Nat × Byte)) : (s.writeCells l).cycle = s.cycle := rfl
@[simp] theorem State.writeCells_turn (s : State) (l : List (Nat × Byte)) : (s.writeCells l).turn = s.turn := rfl
@[simp] theorem State.writeCells_busy (s : State) (l : List (Nat × Byte)) : (s.writeCells l).busy = s.busy := rfl
@[simp] theorem State.writeCells_late (s : State) (l : List (Nat × Byte)) : (s.writeCells l).late = s.late := rfl
@[simp] theorem State.writeCells_cur (s : State) (l : List (Nat × Byte)) : (s.writeCells l).cur = s.cur := rfl
@[simp] theorem State.writeCells_slot (s : State) (l : List (Nat × Byte)) : (s.writeCells l).slot = s.slot := rfl
@[simp] theorem State.writeCells_iss (s : State) (l : List (Nat × Byte)) : (s.writeCells l).iss = s.iss := rfl
@[simp] theorem State.writeCells_ctxs (s : State) (l : List (Nat × Byte)) : (s.writeCells l).ctxs = s.ctxs := rfl
@[simp] theorem State.writeCells_cores (s : State) (l : List (Nat × Byte)) : (s.writeCells l).cores = s.cores := rfl
@[simp] theorem State.writeCells_clusters (s : State) (l : List (Nat × Byte)) : (s.writeCells l).clusters = s.clusters := rfl
@[simp] theorem State.writeCells_units (s : State) (l : List (Nat × Byte)) : (s.writeCells l).units = s.units := rfl
@[simp] theorem State.writeCells_cmds (s : State) (l : List (Nat × Byte)) : (s.writeCells l).cmds = s.cmds := rfl
@[simp] theorem State.writeCells_nextCmd (s : State) (l : List (Nat × Byte)) : (s.writeCells l).nextCmd = s.nextCmd := rfl
@[simp] theorem State.writeCells_ce (s : State) (l : List (Nat × Byte)) : (s.writeCells l).ce = s.ce := rfl
@[simp] theorem State.writeCells_edge (s : State) (l : List (Nat × Byte)) : (s.writeCells l).edge = s.edge := rfl
@[simp] theorem State.writeCells_inbox (s : State) (l : List (Nat × Byte)) : (s.writeCells l).inbox = s.inbox := rfl
@[simp] theorem State.writeCells_choice (s : State) (l : List (Nat × Byte)) : (s.writeCells l).choice = s.choice := rfl

@[simp] theorem State.addPoison_cycle (s : State) (l : List Nat) : (s.addPoison l).cycle = s.cycle := rfl
@[simp] theorem State.addPoison_turn (s : State) (l : List Nat) : (s.addPoison l).turn = s.turn := rfl
@[simp] theorem State.addPoison_busy (s : State) (l : List Nat) : (s.addPoison l).busy = s.busy := rfl
@[simp] theorem State.addPoison_late (s : State) (l : List Nat) : (s.addPoison l).late = s.late := rfl
@[simp] theorem State.addPoison_cur (s : State) (l : List Nat) : (s.addPoison l).cur = s.cur := rfl
@[simp] theorem State.addPoison_slot (s : State) (l : List Nat) : (s.addPoison l).slot = s.slot := rfl
@[simp] theorem State.addPoison_iss (s : State) (l : List Nat) : (s.addPoison l).iss = s.iss := rfl
@[simp] theorem State.addPoison_ctxs (s : State) (l : List Nat) : (s.addPoison l).ctxs = s.ctxs := rfl
@[simp] theorem State.addPoison_cores (s : State) (l : List Nat) : (s.addPoison l).cores = s.cores := rfl
@[simp] theorem State.addPoison_clusters (s : State) (l : List Nat) : (s.addPoison l).clusters = s.clusters := rfl
@[simp] theorem State.addPoison_units (s : State) (l : List Nat) : (s.addPoison l).units = s.units := rfl
@[simp] theorem State.addPoison_mem (s : State) (l : List Nat) : (s.addPoison l).mem = s.mem := rfl
@[simp] theorem State.addPoison_cmds (s : State) (l : List Nat) : (s.addPoison l).cmds = s.cmds := rfl
@[simp] theorem State.addPoison_nextCmd (s : State) (l : List Nat) : (s.addPoison l).nextCmd = s.nextCmd := rfl
@[simp] theorem State.addPoison_ce (s : State) (l : List Nat) : (s.addPoison l).ce = s.ce := rfl
@[simp] theorem State.addPoison_edge (s : State) (l : List Nat) : (s.addPoison l).edge = s.edge := rfl
@[simp] theorem State.addPoison_inbox (s : State) (l : List Nat) : (s.addPoison l).inbox = s.inbox := rfl
@[simp] theorem State.addPoison_choice (s : State) (l : List Nat) : (s.addPoison l).choice = s.choice := rfl

@[simp] theorem State.modRow_cycle (s : State) (cl r : Nat) (f : RowGroup → RowGroup) : (s.modRow cl r f).cycle = s.cycle := rfl
@[simp] theorem State.modRow_turn (s : State) (cl r : Nat) (f : RowGroup → RowGroup) : (s.modRow cl r f).turn = s.turn := rfl
@[simp] theorem State.modRow_busy (s : State) (cl r : Nat) (f : RowGroup → RowGroup) : (s.modRow cl r f).busy = s.busy := rfl
@[simp] theorem State.modRow_late (s : State) (cl r : Nat) (f : RowGroup → RowGroup) : (s.modRow cl r f).late = s.late := rfl
@[simp] theorem State.modRow_cur (s : State) (cl r : Nat) (f : RowGroup → RowGroup) : (s.modRow cl r f).cur = s.cur := rfl
@[simp] theorem State.modRow_slot (s : State) (cl r : Nat) (f : RowGroup → RowGroup) : (s.modRow cl r f).slot = s.slot := rfl
@[simp] theorem State.modRow_iss (s : State) (cl r : Nat) (f : RowGroup → RowGroup) : (s.modRow cl r f).iss = s.iss := rfl
@[simp] theorem State.modRow_ctxs (s : State) (cl r : Nat) (f : RowGroup → RowGroup) : (s.modRow cl r f).ctxs = s.ctxs := rfl
@[simp] theorem State.modRow_cores (s : State) (cl r : Nat) (f : RowGroup → RowGroup) : (s.modRow cl r f).cores = s.cores := rfl
@[simp] theorem State.modRow_units (s : State) (cl r : Nat) (f : RowGroup → RowGroup) : (s.modRow cl r f).units = s.units := rfl
@[simp] theorem State.modRow_mem (s : State) (cl r : Nat) (f : RowGroup → RowGroup) : (s.modRow cl r f).mem = s.mem := rfl
@[simp] theorem State.modRow_poison (s : State) (cl r : Nat) (f : RowGroup → RowGroup) : (s.modRow cl r f).poison = s.poison := rfl
@[simp] theorem State.modRow_flawed (s : State) (cl r : Nat) (f : RowGroup → RowGroup) : (s.modRow cl r f).flawed = s.flawed := rfl
@[simp] theorem State.modRow_deferred (s : State) (cl r : Nat) (f : RowGroup → RowGroup) : (s.modRow cl r f).deferred = s.deferred := rfl
@[simp] theorem State.modRow_cmds (s : State) (cl r : Nat) (f : RowGroup → RowGroup) : (s.modRow cl r f).cmds = s.cmds := rfl
@[simp] theorem State.modRow_nextCmd (s : State) (cl r : Nat) (f : RowGroup → RowGroup) : (s.modRow cl r f).nextCmd = s.nextCmd := rfl
@[simp] theorem State.modRow_ce (s : State) (cl r : Nat) (f : RowGroup → RowGroup) : (s.modRow cl r f).ce = s.ce := rfl
@[simp] theorem State.modRow_edge (s : State) (cl r : Nat) (f : RowGroup → RowGroup) : (s.modRow cl r f).edge = s.edge := rfl
@[simp] theorem State.modRow_inbox (s : State) (cl r : Nat) (f : RowGroup → RowGroup) : (s.modRow cl r f).inbox = s.inbox := rfl
@[simp] theorem State.modRow_choice (s : State) (cl r : Nat) (f : RowGroup → RowGroup) : (s.modRow cl r f).choice = s.choice := rfl

@[simp] theorem State.modQueue_ce_parts (s : State) (q : Nat) (f : Queue → Queue) : (s.modQueue q f).ce.parts = s.ce.parts := rfl
@[simp] theorem State.modQueue_ce_kernels (s : State) (q : Nat) (f : Queue → Queue) : (s.modQueue q f).ce.kernels = s.ce.kernels := rfl
@[simp] theorem State.modQueue_ce_pool (s : State) (q : Nat) (f : Queue → Queue) : (s.modQueue q f).ce.pool = s.ce.pool := rfl
@[simp] theorem State.modQueue_ce_saved (s : State) (q : Nat) (f : Queue → Queue) : (s.modQueue q f).ce.saved = s.ce.saved := rfl
@[simp] theorem State.modQueue_ce_nextKernel (s : State) (q : Nat) (f : Queue → Queue) : (s.modQueue q f).ce.nextKernel = s.ce.nextKernel := rfl
@[simp] theorem State.modQueue_ce_nextOrder (s : State) (q : Nat) (f : Queue → Queue) : (s.modQueue q f).ce.nextOrder = s.ce.nextOrder := rfl
@[simp] theorem State.modQueue_ce_nextGen (s : State) (q : Nat) (f : Queue → Queue) : (s.modQueue q f).ce.nextGen = s.ce.nextGen := rfl
@[simp] theorem State.modQueue_ce_rrStart (s : State) (q : Nat) (f : Queue → Queue) : (s.modQueue q f).ce.rrStart = s.ce.rrStart := rfl
@[simp] theorem State.modQueue_ce_jcfg (s : State) (q : Nat) (f : Queue → Queue) : (s.modQueue q f).ce.jcfg = s.ce.jcfg := rfl
@[simp] theorem State.modQueue_ce_jseq (s : State) (q : Nat) (f : Queue → Queue) : (s.modQueue q f).ce.jseq = s.ce.jseq := rfl

@[simp] theorem Arch.setS_vreg (a : Arch) (r : Nat) (v : Word) : (a.setS r v).vreg = a.vreg := by unfold Arch.setS; split <;> rfl
@[simp] theorem Arch.setS_preg (a : Arch) (r : Nat) (v : Word) : (a.setS r v).preg = a.preg := by unfold Arch.setS; split <;> rfl
@[simp] theorem Arch.setS_pc (a : Arch) (r : Nat) (v : Word) : (a.setS r v).pc = a.pc := by unfold Arch.setS; split <;> rfl
@[simp] theorem Arch.setS_tick (a : Arch) (r : Nat) (v : Word) : (a.setS r v).tick = a.tick := by unfold Arch.setS; split <;> rfl
@[simp] theorem Arch.setS_fmt (a : Arch) (r : Nat) (v : Word) : (a.setS r v).fmt = a.fmt := by unfold Arch.setS; split <;> rfl
@[simp] theorem Arch.setS_shadow (a : Arch) (r : Nat) (v : Word) : (a.setS r v).shadow = a.shadow := by unfold Arch.setS; split <;> rfl
@[simp] theorem Arch.setS_rngkey (a : Arch) (r : Nat) (v : Word) : (a.setS r v).rngkey = a.rngkey := by unfold Arch.setS; split <;> rfl
@[simp] theorem Arch.setS_rngctr (a : Arch) (r : Nat) (v : Word) : (a.setS r v).rngctr = a.rngctr := by unfold Arch.setS; split <;> rfl
@[simp] theorem Arch.setS_tvec (a : Arch) (r : Nat) (v : Word) : (a.setS r v).tvec = a.tvec := by unfold Arch.setS; split <;> rfl
@[simp] theorem Arch.setS_tstk (a : Arch) (r : Nat) (v : Word) : (a.setS r v).tstk = a.tstk := by unfold Arch.setS; split <;> rfl
@[simp] theorem Arch.setS_vgtmo (a : Arch) (r : Nat) (v : Word) : (a.setS r v).vgtmo = a.vgtmo := by unfold Arch.setS; split <;> rfl
@[simp] theorem Arch.setS_flags (a : Arch) (r : Nat) (v : Word) : (a.setS r v).flags = a.flags := by unfold Arch.setS; split <;> rfl
@[simp] theorem Arch.setS_spvio (a : Arch) (r : Nat) (v : Word) : (a.setS r v).spvio = a.spvio := by unfold Arch.setS; split <;> rfl
@[simp] theorem Arch.setS_stktop (a : Arch) (r : Nat) (v : Word) : (a.setS r v).stktop = a.stktop := by unfold Arch.setS; split <;> rfl
@[simp] theorem Arch.setS_stkbase (a : Arch) (r : Nat) (v : Word) : (a.setS r v).stkbase = a.stkbase := by unfold Arch.setS; split <;> rfl
@[simp] theorem Arch.setS_depth (a : Arch) (r : Nat) (v : Word) : (a.setS r v).depth = a.depth := by unfold Arch.setS; split <;> rfl
@[simp] theorem Arch.setS_mgeo (a : Arch) (r : Nat) (v : Word) : (a.setS r v).mgeo = a.mgeo := by unfold Arch.setS; split <;> rfl
@[simp] theorem Arch.setS_mlim (a : Arch) (r : Nat) (v : Word) : (a.setS r v).mlim = a.mlim := by unfold Arch.setS; split <;> rfl
@[simp] theorem Arch.setS_mgcfg (a : Arch) (r : Nat) (v : Word) : (a.setS r v).mgcfg = a.mgcfg := by unfold Arch.setS; split <;> rfl
@[simp] theorem Arch.setS_wbcfg (a : Arch) (r : Nat) (v : Word) : (a.setS r v).wbcfg = a.wbcfg := by unfold Arch.setS; split <;> rfl
@[simp] theorem Arch.setS_fgeo (a : Arch) (r : Nat) (v : Word) : (a.setS r v).fgeo = a.fgeo := by unfold Arch.setS; split <;> rfl
@[simp] theorem Arch.setS_frhs (a : Arch) (r : Nat) (v : Word) : (a.setS r v).frhs = a.frhs := by unfold Arch.setS; split <;> rfl
@[simp] theorem Arch.setS_loops (a : Arch) (r : Nat) (v : Word) : (a.setS r v).loops = a.loops := by unfold Arch.setS; split <;> rfl
@[simp] theorem Arch.setS_printRep (a : Arch) (r : Nat) (v : Word) : (a.setS r v).printRep = a.printRep := by unfold Arch.setS; split <;> rfl
@[simp] theorem Arch.setS_crc (a : Arch) (r : Nat) (v : Word) : (a.setS r v).crc = a.crc := by unfold Arch.setS; split <;> rfl
@[simp] theorem Arch.setS_streams (a : Arch) (r : Nat) (v : Word) : (a.setS r v).streams = a.streams := by unfold Arch.setS; split <;> rfl
@[simp] theorem Arch.setS_chains (a : Arch) (r : Nat) (v : Word) : (a.setS r v).chains = a.chains := by unfold Arch.setS; split <;> rfl
@[simp] theorem Arch.setS_pend (a : Arch) (r : Nat) (v : Word) : (a.setS r v).pend = a.pend := by unfold Arch.setS; split <;> rfl
@[simp] theorem Arch.setS_fenced (a : Arch) (r : Nat) (v : Word) : (a.setS r v).fenced = a.fenced := by unfold Arch.setS; split <;> rfl

@[simp] theorem Arch.setV_sreg (a : Arch) (r : Nat) (v : VWord) : (a.setV r v).sreg = a.sreg := rfl
@[simp] theorem Arch.setV_preg (a : Arch) (r : Nat) (v : VWord) : (a.setV r v).preg = a.preg := rfl
@[simp] theorem Arch.setV_pc (a : Arch) (r : Nat) (v : VWord) : (a.setV r v).pc = a.pc := rfl
@[simp] theorem Arch.setV_tick (a : Arch) (r : Nat) (v : VWord) : (a.setV r v).tick = a.tick := rfl
@[simp] theorem Arch.setV_fmt (a : Arch) (r : Nat) (v : VWord) : (a.setV r v).fmt = a.fmt := rfl
@[simp] theorem Arch.setV_shadow (a : Arch) (r : Nat) (v : VWord) : (a.setV r v).shadow = a.shadow := rfl
@[simp] theorem Arch.setV_rngkey (a : Arch) (r : Nat) (v : VWord) : (a.setV r v).rngkey = a.rngkey := rfl
@[simp] theorem Arch.setV_rngctr (a : Arch) (r : Nat) (v : VWord) : (a.setV r v).rngctr = a.rngctr := rfl
@[simp] theorem Arch.setV_tvec (a : Arch) (r : Nat) (v : VWord) : (a.setV r v).tvec = a.tvec := rfl
@[simp] theorem Arch.setV_tstk (a : Arch) (r : Nat) (v : VWord) : (a.setV r v).tstk = a.tstk := rfl
@[simp] theorem Arch.setV_vgtmo (a : Arch) (r : Nat) (v : VWord) : (a.setV r v).vgtmo = a.vgtmo := rfl
@[simp] theorem Arch.setV_flags (a : Arch) (r : Nat) (v : VWord) : (a.setV r v).flags = a.flags := rfl
@[simp] theorem Arch.setV_spvio (a : Arch) (r : Nat) (v : VWord) : (a.setV r v).spvio = a.spvio := rfl
@[simp] theorem Arch.setV_stktop (a : Arch) (r : Nat) (v : VWord) : (a.setV r v).stktop = a.stktop := rfl
@[simp] theorem Arch.setV_stkbase (a : Arch) (r : Nat) (v : VWord) : (a.setV r v).stkbase = a.stkbase := rfl
@[simp] theorem Arch.setV_depth (a : Arch) (r : Nat) (v : VWord) : (a.setV r v).depth = a.depth := rfl
@[simp] theorem Arch.setV_mgeo (a : Arch) (r : Nat) (v : VWord) : (a.setV r v).mgeo = a.mgeo := rfl
@[simp] theorem Arch.setV_mlim (a : Arch) (r : Nat) (v : VWord) : (a.setV r v).mlim = a.mlim := rfl
@[simp] theorem Arch.setV_mgcfg (a : Arch) (r : Nat) (v : VWord) : (a.setV r v).mgcfg = a.mgcfg := rfl
@[simp] theorem Arch.setV_wbcfg (a : Arch) (r : Nat) (v : VWord) : (a.setV r v).wbcfg = a.wbcfg := rfl
@[simp] theorem Arch.setV_fgeo (a : Arch) (r : Nat) (v : VWord) : (a.setV r v).fgeo = a.fgeo := rfl
@[simp] theorem Arch.setV_frhs (a : Arch) (r : Nat) (v : VWord) : (a.setV r v).frhs = a.frhs := rfl
@[simp] theorem Arch.setV_loops (a : Arch) (r : Nat) (v : VWord) : (a.setV r v).loops = a.loops := rfl
@[simp] theorem Arch.setV_printRep (a : Arch) (r : Nat) (v : VWord) : (a.setV r v).printRep = a.printRep := rfl
@[simp] theorem Arch.setV_crc (a : Arch) (r : Nat) (v : VWord) : (a.setV r v).crc = a.crc := rfl
@[simp] theorem Arch.setV_streams (a : Arch) (r : Nat) (v : VWord) : (a.setV r v).streams = a.streams := rfl
@[simp] theorem Arch.setV_chains (a : Arch) (r : Nat) (v : VWord) : (a.setV r v).chains = a.chains := rfl
@[simp] theorem Arch.setV_pend (a : Arch) (r : Nat) (v : VWord) : (a.setV r v).pend = a.pend := rfl
@[simp] theorem Arch.setV_fenced (a : Arch) (r : Nat) (v : VWord) : (a.setV r v).fenced = a.fenced := rfl

@[simp] theorem Arch.setP_sreg (a : Arch) (r : Nat) (v : PWord) : (a.setP r v).sreg = a.sreg := by unfold Arch.setP; split <;> rfl
@[simp] theorem Arch.setP_vreg (a : Arch) (r : Nat) (v : PWord) : (a.setP r v).vreg = a.vreg := by unfold Arch.setP; split <;> rfl
@[simp] theorem Arch.setP_pc (a : Arch) (r : Nat) (v : PWord) : (a.setP r v).pc = a.pc := by unfold Arch.setP; split <;> rfl
@[simp] theorem Arch.setP_tick (a : Arch) (r : Nat) (v : PWord) : (a.setP r v).tick = a.tick := by unfold Arch.setP; split <;> rfl
@[simp] theorem Arch.setP_fmt (a : Arch) (r : Nat) (v : PWord) : (a.setP r v).fmt = a.fmt := by unfold Arch.setP; split <;> rfl
@[simp] theorem Arch.setP_shadow (a : Arch) (r : Nat) (v : PWord) : (a.setP r v).shadow = a.shadow := by unfold Arch.setP; split <;> rfl
@[simp] theorem Arch.setP_rngkey (a : Arch) (r : Nat) (v : PWord) : (a.setP r v).rngkey = a.rngkey := by unfold Arch.setP; split <;> rfl
@[simp] theorem Arch.setP_rngctr (a : Arch) (r : Nat) (v : PWord) : (a.setP r v).rngctr = a.rngctr := by unfold Arch.setP; split <;> rfl
@[simp] theorem Arch.setP_tvec (a : Arch) (r : Nat) (v : PWord) : (a.setP r v).tvec = a.tvec := by unfold Arch.setP; split <;> rfl
@[simp] theorem Arch.setP_tstk (a : Arch) (r : Nat) (v : PWord) : (a.setP r v).tstk = a.tstk := by unfold Arch.setP; split <;> rfl
@[simp] theorem Arch.setP_vgtmo (a : Arch) (r : Nat) (v : PWord) : (a.setP r v).vgtmo = a.vgtmo := by unfold Arch.setP; split <;> rfl
@[simp] theorem Arch.setP_flags (a : Arch) (r : Nat) (v : PWord) : (a.setP r v).flags = a.flags := by unfold Arch.setP; split <;> rfl
@[simp] theorem Arch.setP_spvio (a : Arch) (r : Nat) (v : PWord) : (a.setP r v).spvio = a.spvio := by unfold Arch.setP; split <;> rfl
@[simp] theorem Arch.setP_stktop (a : Arch) (r : Nat) (v : PWord) : (a.setP r v).stktop = a.stktop := by unfold Arch.setP; split <;> rfl
@[simp] theorem Arch.setP_stkbase (a : Arch) (r : Nat) (v : PWord) : (a.setP r v).stkbase = a.stkbase := by unfold Arch.setP; split <;> rfl
@[simp] theorem Arch.setP_depth (a : Arch) (r : Nat) (v : PWord) : (a.setP r v).depth = a.depth := by unfold Arch.setP; split <;> rfl
@[simp] theorem Arch.setP_mgeo (a : Arch) (r : Nat) (v : PWord) : (a.setP r v).mgeo = a.mgeo := by unfold Arch.setP; split <;> rfl
@[simp] theorem Arch.setP_mlim (a : Arch) (r : Nat) (v : PWord) : (a.setP r v).mlim = a.mlim := by unfold Arch.setP; split <;> rfl
@[simp] theorem Arch.setP_mgcfg (a : Arch) (r : Nat) (v : PWord) : (a.setP r v).mgcfg = a.mgcfg := by unfold Arch.setP; split <;> rfl
@[simp] theorem Arch.setP_wbcfg (a : Arch) (r : Nat) (v : PWord) : (a.setP r v).wbcfg = a.wbcfg := by unfold Arch.setP; split <;> rfl
@[simp] theorem Arch.setP_fgeo (a : Arch) (r : Nat) (v : PWord) : (a.setP r v).fgeo = a.fgeo := by unfold Arch.setP; split <;> rfl
@[simp] theorem Arch.setP_frhs (a : Arch) (r : Nat) (v : PWord) : (a.setP r v).frhs = a.frhs := by unfold Arch.setP; split <;> rfl
@[simp] theorem Arch.setP_loops (a : Arch) (r : Nat) (v : PWord) : (a.setP r v).loops = a.loops := by unfold Arch.setP; split <;> rfl
@[simp] theorem Arch.setP_printRep (a : Arch) (r : Nat) (v : PWord) : (a.setP r v).printRep = a.printRep := by unfold Arch.setP; split <;> rfl
@[simp] theorem Arch.setP_crc (a : Arch) (r : Nat) (v : PWord) : (a.setP r v).crc = a.crc := by unfold Arch.setP; split <;> rfl
@[simp] theorem Arch.setP_streams (a : Arch) (r : Nat) (v : PWord) : (a.setP r v).streams = a.streams := by unfold Arch.setP; split <;> rfl
@[simp] theorem Arch.setP_chains (a : Arch) (r : Nat) (v : PWord) : (a.setP r v).chains = a.chains := by unfold Arch.setP; split <;> rfl
@[simp] theorem Arch.setP_pend (a : Arch) (r : Nat) (v : PWord) : (a.setP r v).pend = a.pend := by unfold Arch.setP; split <;> rfl
@[simp] theorem Arch.setP_fenced (a : Arch) (r : Nat) (v : PWord) : (a.setP r v).fenced = a.fenced := by unfold Arch.setP; split <;> rfl

/-! What an update is read back as. -/

@[simp] theorem State.ctx_setCtx_self (s : State) (g : Nat) (c : Ctx) : (s.setCtx g c).ctx g = c := AMap.get_put_self _ _ _ _
theorem State.ctx_setCtx_other (s : State) {g h : Nat} (c : Ctx) (n : h ≠ g) : (s.setCtx g c).ctx h = s.ctx h :=
  AMap.get_put_other _ _ _ n
@[simp] theorem State.ctx_modCtx_self (s : State) (g : Nat) (f : Ctx → Ctx) : (s.modCtx g f).ctx g = f (s.ctx g) :=
  AMap.get_put_self _ _ _ _
theorem State.ctx_modCtx_other (s : State) {g h : Nat} (f : Ctx → Ctx) (n : h ≠ g) : (s.modCtx g f).ctx h = s.ctx h :=
  AMap.get_put_other _ _ _ n
@[simp] theorem State.ctx_modArch_self (s : State) (g : Nat) (f : Arch → Arch) :
    (s.modArch g f).ctx g = { s.ctx g with arch := f (s.ctx g).arch } := AMap.get_put_self _ _ _ _
theorem State.ctx_modArch_other (s : State) {g h : Nat} (f : Arch → Arch) (n : h ≠ g) :
    (s.modArch g f).ctx h = s.ctx h := AMap.get_put_other _ _ _ n
@[simp] theorem State.core_modCore_self (s : State) (c : Nat) (f : Core → Core) :
    (s.modCore c f).core c = f (s.core c) := AMap.get_put_self _ _ _ _
theorem State.core_modCore_other (s : State) {c d : Nat} (f : Core → Core) (n : d ≠ c) :
    (s.modCore c f).core d = s.core d := AMap.get_put_other _ _ _ n
@[simp] theorem State.cluster_modCluster_self (s : State) (c : Nat) (f : Cluster → Cluster) :
    (s.modCluster c f).cluster c = f (s.cluster c) := AMap.get_put_self _ _ _ _
theorem State.cluster_modCluster_other (s : State) {c d : Nat} (f : Cluster → Cluster) (n : d ≠ c) :
    (s.modCluster c f).cluster d = s.cluster d := AMap.get_put_other _ _ _ n
@[simp] theorem State.unit_modUnit_self (s : State) (c : Nat) (f : CopyUnit → CopyUnit) :
    (s.modUnit c f).unit c = f (s.unit c) := AMap.get_put_self _ _ _ _
theorem State.unit_modUnit_other (s : State) {c d : Nat} (f : CopyUnit → CopyUnit) (n : d ≠ c) :
    (s.modUnit c f).unit d = s.unit d := AMap.get_put_other _ _ _ n
@[simp] theorem State.queue_modQueue_self (s : State) (q : Nat) (f : Queue → Queue) :
    (s.modQueue q f).queue q = f (s.queue q) := AMap.get_put_self _ _ _ _
theorem State.queue_modQueue_other (s : State) {q r : Nat} (f : Queue → Queue) (n : r ≠ q) :
    (s.modQueue q f).queue r = s.queue r := AMap.get_put_other _ _ _ n
@[simp] theorem State.row_modRow_self (s : State) (cl r : Nat) (f : RowGroup → RowGroup) :
    (s.modRow cl r f).row cl r = f (s.row cl r) := by
  unfold State.modRow
  rw [State.row, State.cluster_modCluster_self]
  exact AMap.get_put_self _ _ _ _
theorem State.row_modRow_other (s : State) {cl r q : Nat} (f : RowGroup → RowGroup) (n : q ≠ r) :
    (s.modRow cl r f).row cl q = s.row cl q := by
  unfold State.modRow
  rw [State.row, State.cluster_modCluster_self]
  exact AMap.get_put_other _ _ _ n

/-! The registers of a context (R41, R50). -/

@[simp] theorem Arch.s_zero (a : Arch) : a.s 0 = 0 := rfl
@[simp] theorem Arch.p_zero (a : Arch) : a.p 0 = BitVec.allOnes 256 := rfl
theorem Arch.s_setS (a : Arch) (r q : Nat) (v : Word) : (a.setS r v).s q = if q = r ∧ r ≠ 0 then v else a.s q := by
  unfold Arch.setS Arch.s
  by_cases hr : r = 0
  · simp [hr]
  · by_cases hq : q = 0
    · subst hq; simp [hr, Ne.symm hr]
    · by_cases h : q = r
      · subst h; simp [hr]
      · simp [hr, hq, h, AMap.get_put_other _ _ _ h]
theorem Arch.v_setV (a : Arch) (r q : Nat) (v : VWord) : (a.setV r v).v q = if q = r then v else a.v q := by
  unfold Arch.setV Arch.v
  by_cases h : q = r
  · subst h; simp
  · simp [h, AMap.get_put_other _ _ _ h]
theorem Arch.p_setP (a : Arch) (r q : Nat) (v : PWord) : (a.setP r v).p q = if q = r ∧ r ≠ 0 then v else a.p q := by
  unfold Arch.setP Arch.p
  by_cases hr : r = 0
  · simp [hr]
  · by_cases hq : q = 0
    · subst hq; simp [hr, Ne.symm hr]
    · by_cases h : q = r
      · subst h; simp [hr]
      · simp [hr, hq, h, AMap.get_put_other _ _ _ h]
@[simp] theorem Arch.v_setS (a : Arch) (r q : Nat) (v : Word) : (a.setS r v).v q = a.v q := by simp [Arch.v]
@[simp] theorem Arch.p_setS (a : Arch) (r q : Nat) (v : Word) : (a.setS r v).p q = a.p q := by simp [Arch.p]
@[simp] theorem Arch.s_setV (a : Arch) (r q : Nat) (v : VWord) : (a.setV r v).s q = a.s q := rfl
@[simp] theorem Arch.p_setV (a : Arch) (r q : Nat) (v : VWord) : (a.setV r v).p q = a.p q := rfl
@[simp] theorem Arch.s_setP (a : Arch) (r q : Nat) (v : PWord) : (a.setP r v).s q = a.s q := by simp [Arch.s]
@[simp] theorem Arch.v_setP (a : Arch) (r q : Nat) (v : PWord) : (a.setP r v).v q = a.v q := by simp [Arch.v]

end Sys2Proof.Machine
end

