-- ==== Sys2Proof/Laws/Memory.lean ====
section
/-!
SUPPORT. Every operation on the memory keeps its canonical form, and what each leaves alone.
-/

namespace Sys2Proof.Machine

theorem State.reset_wf : State.reset.mem.wf := Memory.wf_nil

/-! Cells. -/

theorem State.writeCells_wf {s : State} (h : s.mem.wf) (l : List (Nat × Byte)) : (s.writeCells l).mem.wf :=
  Memory.wf_foldl_write l h
/-- A byte that no cell names is as before. -/
theorem State.read_writeCells_other (s : State) (l : List (Nat × Byte)) {k : Nat} (h : ∀ c ∈ l, c.1 ≠ k) :
    (s.writeCells l).mem.read k = s.mem.read k := Memory.read_foldl_write_other l s.mem h
/-- Cells of consecutive keys read back in order. -/
theorem State.read_writeCells_at (s : State) (key : Nat) (l : List Byte) (i : Nat) (h : i < l.length) :
    (s.writeCells (l.zipIdx.map fun p => (key + p.2, p.1))).mem.read (key + i) = l[i] := by
  unfold State.writeCells
  simp only [Memory.read_foldl_write]
  have e : (List.map (fun p => (key + p.2, p.1)) l.zipIdx).reverse.find? (fun c => c.1 == key + i)
      = some (key + i, l[i]) := by
    refine (List.find?_eq_some_iff_append).2 ⟨by simp, ?_⟩
    refine ⟨((l.zipIdx.map fun p => (key + p.2, p.1)).drop (i + 1)).reverse,
      ((l.zipIdx.map fun p => (key + p.2, p.1)).take i).reverse, ?_, ?_⟩
    · have hl : i < (l.zipIdx.map fun p => (key + p.2, p.1)).length := by simpa using h
      have : (l.zipIdx.map fun p => (key + p.2, p.1)) =
          (l.zipIdx.map fun p => (key + p.2, p.1)).take i ++ (key + i, l[i]) ::
            (l.zipIdx.map fun p => (key + p.2, p.1)).drop (i + 1) := by
        conv_lhs => rw [← List.take_append_drop i (l.zipIdx.map fun p => (key + p.2, p.1))]
        rw [List.drop_eq_getElem_cons hl]
        simp
      conv_lhs => rw [this]
      simp
    · intro c hc
      rw [List.mem_reverse] at hc
      obtain ⟨j, hj, rfl⟩ := List.mem_iff_getElem.1 hc
      simp only [List.getElem_drop, List.getElem_map, List.getElem_zipIdx]
      simp; omega
  rw [e]; rfl
theorem State.addPoison_wf {s : State} (h : s.mem.wf) (l : List Nat) : (s.addPoison l).mem.wf := h

/-! Row groups and stores (R153). -/

@[simp] theorem State.touchRow_ctxs (s : State) (cl r : Nat) (o : Option (Nat × Option Nat)) (ca : Option (Nat × Nat)) :
    (s.touchRow cl r o ca).ctxs = s.ctxs := by
  unfold State.touchRow; by_cases h : (s.row cl r).valid = true <;> simp [h]
@[simp] theorem State.touchRow_ce (s : State) (cl r : Nat) (o : Option (Nat × Option Nat)) (ca : Option (Nat × Nat)) :
    (s.touchRow cl r o ca).ce = s.ce := by
  unfold State.touchRow; by_cases h : (s.row cl r).valid = true <;> simp [h]
@[simp] theorem State.touchRow_cmds (s : State) (cl r : Nat) (o : Option (Nat × Option Nat)) (ca : Option (Nat × Nat)) :
    (s.touchRow cl r o ca).cmds = s.cmds := by
  unfold State.touchRow; by_cases h : (s.row cl r).valid = true <;> simp [h]
@[simp] theorem State.touchRow_edge (s : State) (cl r : Nat) (o : Option (Nat × Option Nat)) (ca : Option (Nat × Nat)) :
    (s.touchRow cl r o ca).edge = s.edge := by
  unfold State.touchRow; by_cases h : (s.row cl r).valid = true <;> simp [h]
@[simp] theorem State.touchRow_cores (s : State) (cl r : Nat) (o : Option (Nat × Option Nat)) (ca : Option (Nat × Nat)) :
    (s.touchRow cl r o ca).cores = s.cores := by
  unfold State.touchRow; by_cases h : (s.row cl r).valid = true <;> simp [h]
theorem State.touchRow_wf {s : State} (h : s.mem.wf) (cl r : Nat) (o : Option (Nat × Option Nat))
    (ca : Option (Nat × Nat)) : (s.touchRow cl r o ca).mem.wf := by
  unfold State.touchRow
  by_cases hv : (s.row cl r).valid = true
  · simpa [hv] using h
  · have := Memory.wf_filter h fun c => !(decide (ltsKey cl (1024 * r) ≤ c.1) && decide (c.1 < ltsKey cl (1024 * r) + 1024))
    simpa [hv] using this

/-- A fold that keeps something at each step keeps it. -/
theorem foldl_keeps {α β : Type} {P : β → Prop} (f : β → α → β) (h : ∀ b a, P b → P (f b a)) (l : List α) (b : β)
    (hb : P b) : P (l.foldl f b) := by
  induction l generalizing b with
  | nil => exact hb
  | cons a t ih => exact ih _ (h b a hb)

theorem State.touchRows_wf {s : State} (h : s.mem.wf) (l : List (Nat × Byte)) (o : Option (Nat × Option Nat))
    (ca : Option (Nat × Nat)) : (s.touchRows l o ca).mem.wf :=
  foldl_keeps (P := fun t : State => t.mem.wf) _ (fun _ p ht => State.touchRow_wf ht p.1 p.2 o ca) _ s h
@[simp] theorem State.touchRows_ctxs (s : State) (l : List (Nat × Byte)) (o : Option (Nat × Option Nat))
    (ca : Option (Nat × Nat)) : (s.touchRows l o ca).ctxs = s.ctxs :=
  foldl_keeps (P := fun t : State => t.ctxs = s.ctxs) _ (fun _ p ht => (State.touchRow_ctxs _ p.1 p.2 o ca).trans ht) _ s rfl
@[simp] theorem State.touchRows_ce (s : State) (l : List (Nat × Byte)) (o : Option (Nat × Option Nat))
    (ca : Option (Nat × Nat)) : (s.touchRows l o ca).ce = s.ce :=
  foldl_keeps (P := fun t : State => t.ce = s.ce) _ (fun _ p ht => (State.touchRow_ce _ p.1 p.2 o ca).trans ht) _ s rfl
@[simp] theorem State.touchRows_cmds (s : State) (l : List (Nat × Byte)) (o : Option (Nat × Option Nat))
    (ca : Option (Nat × Nat)) : (s.touchRows l o ca).cmds = s.cmds :=
  foldl_keeps (P := fun t : State => t.cmds = s.cmds) _ (fun _ p ht => (State.touchRow_cmds _ p.1 p.2 o ca).trans ht) _ s rfl
@[simp] theorem State.touchRows_edge (s : State) (l : List (Nat × Byte)) (o : Option (Nat × Option Nat))
    (ca : Option (Nat × Nat)) : (s.touchRows l o ca).edge = s.edge :=
  foldl_keeps (P := fun t : State => t.edge = s.edge) _ (fun _ p ht => (State.touchRow_edge _ p.1 p.2 o ca).trans ht) _ s rfl
@[simp] theorem State.touchRows_cores (s : State) (l : List (Nat × Byte)) (o : Option (Nat × Option Nat))
    (ca : Option (Nat × Nat)) : (s.touchRows l o ca).cores = s.cores :=
  foldl_keeps (P := fun t : State => t.cores = s.cores) _ (fun _ p ht => (State.touchRow_cores _ p.1 p.2 o ca).trans ht) _ s rfl
/-- Cells below the lifetime store touch no row group. -/
theorem State.touchRows_near (s : State) (l : List (Nat × Byte)) (o : Option (Nat × Option Nat)) (ca : Option (Nat × Nat))
    (h : ∀ c ∈ l, c.1 < 0x10000000) : s.touchRows l o ca = s := by
  have : ltsRows l = [] := by
    unfold ltsRows
    rw [List.filterMap_eq_nil_iff.2 fun c hc => if_neg fun e => by have := h c hc; omega]
    rfl
  unfold State.touchRows
  rw [this]; rfl
theorem State.store_wf {s : State} (h : s.mem.wf) (l : List (Nat × Byte)) (o : Option (Nat × Option Nat))
    (ca : Option (Nat × Nat)) : (s.store l o ca).mem.wf := State.writeCells_wf (State.touchRows_wf h l o ca) l
@[simp] theorem State.store_ctxs (s : State) (l : List (Nat × Byte)) (o : Option (Nat × Option Nat))
    (ca : Option (Nat × Nat)) : (s.store l o ca).ctxs = s.ctxs := s.touchRows_ctxs l o ca
@[simp] theorem State.store_ce (s : State) (l : List (Nat × Byte)) (o : Option (Nat × Option Nat))
    (ca : Option (Nat × Nat)) : (s.store l o ca).ce = s.ce := s.touchRows_ce l o ca
@[simp] theorem State.store_cmds (s : State) (l : List (Nat × Byte)) (o : Option (Nat × Option Nat))
    (ca : Option (Nat × Nat)) : (s.store l o ca).cmds = s.cmds := s.touchRows_cmds l o ca
@[simp] theorem State.store_edge (s : State) (l : List (Nat × Byte)) (o : Option (Nat × Option Nat))
    (ca : Option (Nat × Nat)) : (s.store l o ca).edge = s.edge := s.touchRows_edge l o ca
@[simp] theorem State.store_cores (s : State) (l : List (Nat × Byte)) (o : Option (Nat × Option Nat))
    (ca : Option (Nat × Nat)) : (s.store l o ca).cores = s.cores := s.touchRows_cores l o ca
/-- Cells below the lifetime store are written and nothing else is. -/
theorem State.store_near (s : State) (l : List (Nat × Byte)) (o : Option (Nat × Option Nat)) (ca : Option (Nat × Nat))
    (h : ∀ c ∈ l, c.1 < 0x10000000) : s.store l o ca = s.writeCells l := by
  unfold State.store
  rw [s.touchRows_near l o ca h]

/-! The journal (R231). -/

/-- While the journal is off, an entry costs its number and nothing else. -/
theorem State.journal_off (s : State) (e : JournalEntry) (h : fld s.ce.jcfg 4 0 = 0) :
    s.journal e = { s with ce := { s.ce with jseq := s.ce.jseq + 1 } } := by simp [State.journal, h]
/-- An entry costs its number, and is written where the journal is on and its interface open. -/
theorem State.journal_cases (s : State) (e : JournalEntry) :
    s.journal e = { s with ce := { s.ce with jseq := s.ce.jseq + 1 } }
      ∨ ∃ l, s.journal e = ({ s with ce := { s.ce with jseq := s.ce.jseq + 1 } } : State).writeCells l := by
  simp only [State.journal]
  split
  · exact .inl rfl
  · exact .inr ⟨_, rfl⟩
@[simp] theorem State.journal_ctxs (s : State) (e : JournalEntry) : (s.journal e).ctxs = s.ctxs := by
  obtain h | ⟨l, h⟩ := s.journal_cases e <;> simp [h]
@[simp] theorem State.journal_cmds (s : State) (e : JournalEntry) : (s.journal e).cmds = s.cmds := by
  obtain h | ⟨l, h⟩ := s.journal_cases e <;> simp [h]
@[simp] theorem State.journal_edge (s : State) (e : JournalEntry) : (s.journal e).edge = s.edge := by
  obtain h | ⟨l, h⟩ := s.journal_cases e <;> simp [h]
@[simp] theorem State.journal_cores (s : State) (e : JournalEntry) : (s.journal e).cores = s.cores := by
  obtain h | ⟨l, h⟩ := s.journal_cases e <;> simp [h]
@[simp] theorem State.journal_ce (s : State) (e : JournalEntry) :
    (s.journal e).ce = { s.ce with jseq := s.ce.jseq + 1 } := by
  obtain h | ⟨l, h⟩ := s.journal_cases e <;> simp [h]
theorem State.journal_wf {s : State} (h : s.mem.wf) (e : JournalEntry) : (s.journal e).mem.wf := by
  obtain j | ⟨l, j⟩ := s.journal_cases e
  · rw [j]; exact h
  · rw [j]; exact State.writeCells_wf (s := { s with ce := { s.ce with jseq := s.ce.jseq + 1 } }) h l
/-- The journal names a granule by one entry, or not at all. -/
theorem State.journalGranule_cases (s : State) (g : Nat) : s.journalGranule g = s ∨ ∃ e, s.journalGranule g = s.journal e := by
  unfold State.journalGranule
  split
  · exact .inr ⟨_, rfl⟩
  · exact .inr ⟨_, rfl⟩
  · exact .inl rfl
theorem State.journalPoison_wf {s : State} (h : s.mem.wf) (l : List Nat) : (s.journalPoison l).mem.wf := by
  refine foldl_keeps (P := fun t : State => t.mem.wf) _ (fun t g ht => ?_) l s h
  obtain e | ⟨e, he⟩ := t.journalGranule_cases g
  · rwa [e]
  · rw [he]; exact State.journal_wf ht _
@[simp] theorem State.journalPoison_ctxs (s : State) (l : List Nat) : (s.journalPoison l).ctxs = s.ctxs := by
  refine foldl_keeps (P := fun t : State => t.ctxs = s.ctxs) _ (fun t g ht => ?_) l s rfl
  obtain e | ⟨e, he⟩ := t.journalGranule_cases g
  · rwa [e]
  · rw [he]; exact (State.journal_ctxs _ _).trans ht

/-! Writes of less than a granule (R193). -/

/-- Cells that write no granule in part that cannot be read are written and nothing else is. -/
theorem State.mergeCells_clean (s : State) (l : List (Nat × Byte)) (h : s.poisonHits l = []) :
    s.mergeCells l = s.writeCells l := by simp only [State.mergeCells, h]; rfl
theorem State.mergeCells_wf {s : State} (h : s.mem.wf) (l : List (Nat × Byte)) : (s.mergeCells l).mem.wf :=
  State.journalPoison_wf (s := (s.writeCells l).addPoison _) (State.writeCells_wf h l) _
@[simp] theorem State.mergeCells_ctxs (s : State) (l : List (Nat × Byte)) : (s.mergeCells l).ctxs = s.ctxs := by
  simp [State.mergeCells]

theorem State.mergeStore_wf {s : State} (h : s.mem.wf) (l : List (Nat × Byte)) (o : Option (Nat × Option Nat))
    (ca : Option (Nat × Nat)) : (s.mergeStore l o ca).mem.wf := State.mergeCells_wf (State.touchRows_wf h l o ca) l
@[simp] theorem State.mergeStore_ctxs (s : State) (l : List (Nat × Byte)) (o : Option (Nat × Option Nat))
    (ca : Option (Nat × Nat)) : (s.mergeStore l o ca).ctxs = s.ctxs :=
  (State.mergeCells_ctxs _ l).trans (s.touchRows_ctxs l o ca)
/-- A store that finds no poison in the granules that it writes in part is a plain store. -/
theorem State.mergeStore_clean (s : State) (l : List (Nat × Byte)) (o : Option (Nat × Option Nat)) (ca : Option (Nat × Nat))
    (h : (s.touchRows l o ca).poisonHits l = []) : s.mergeStore l o ca = s.store l o ca :=
  State.mergeCells_clean _ l h

/-! The device's own writes (R170, R193). -/

theorem State.writePhys_wf {s : State} (h : s.mem.wf) (pa : Nat) (l : List Byte) : (s.writePhys pa l).mem.wf := by
  unfold State.writePhys
  split
  · exact h
  · exact State.mergeCells_wf h _
@[simp] theorem State.writePhys_ctxs (s : State) (pa : Nat) (l : List Byte) : (s.writePhys pa l).ctxs = s.ctxs := by
  unfold State.writePhys
  split
  · rfl
  · simp

/-! Exceptions (R246 to R250). -/

theorem State.wf_ite {c : Prop} [Decidable c] {a b : State} (ha : a.mem.wf) (hb : b.mem.wf) :
    (if c then a else b).mem.wf := by split <;> assumption

theorem State.doubleFault_wf {s : State} (h : s.mem.wf) (g : Nat) (df : Word) : (s.doubleFault g df).mem.wf :=
  State.journal_wf (s := s.modCtx g _) h _
theorem State.storeDirect_wf {s : State} (h : s.mem.wf) (g : Nat) (l : List (Nat × Byte)) : (s.storeDirect g l).mem.wf := by
  unfold State.storeDirect
  refine State.wf_ite h ?_
  rw [State.modCtx_mem]
  exact State.mergeCells_wf (by exact h) _
/-- What a bundle writes at issue reaches memory later. -/
@[simp] theorem State.storeLate_mem (s : State) (g : Nat) (l : List (Nat × Byte)) : (s.storeLate g l).mem = s.mem := by
  unfold State.storeLate
  split <;> rfl
theorem State.enterHandler_wf {s : State} (h : s.mem.wf) (g : Nat) (c : Cause) : (s.enterHandler g c).mem.wf := by
  unfold State.enterHandler
  exact State.wf_ite (State.doubleFault_wf (s := s.setCtx g _) h _ _) (State.storeDirect_wf (s := s.setCtx g _) h g _)
theorem State.unclaim_mem (s : State) (g n : Nat) : (s.unclaim g n).mem = s.mem := by
  refine foldl_keeps (P := fun t : State => t.mem = s.mem) _ (fun t p ht => ?_) _ s rfl
  split
  · split <;> exact ht
  · exact ht
theorem State.rewindCtx_mem (s : State) (g : Nat) (b : Bool) : (s.rewindCtx g b).mem = s.mem := by
  unfold State.rewindCtx
  split
  · exact State.unclaim_mem _ _ _
  · rfl
theorem State.take_wf {s : State} (h : s.mem.wf) (g : Nat) (c : Cause) : (s.take g c).mem.wf := by
  unfold State.take
  exact State.wf_ite (State.doubleFault_wf h _ _)
    (State.wf_ite (State.enterHandler_wf h _ _) (State.enterHandler_wf (by rw [State.rewindCtx_mem]; exact h) _ _))
theorem State.noteBlock_mem (s : State) (c : Cause) : (s.noteBlock c).mem = s.mem := by
  unfold State.noteBlock
  split
  · rfl
  · dsimp only; split <;> rfl
/-- A raised cause keeps the canonical form. -/
theorem State.raise_wf {s : State} (h : s.mem.wf) (c : Cause) : (s.raise c).mem.wf :=
  State.take_wf (by rw [State.noteBlock_mem]; exact h) _ _
/-- A return from an exception writes no memory. -/
theorem State.leaveHandler_mem (s : State) (g : Nat) : (s.leaveHandler g).mem = s.mem := by
  unfold State.leaveHandler
  dsimp only
  split <;> rfl

end Sys2Proof.Machine
end

