-- ==== Sys2Proof/Laws/Ops.lean ====
section
/-!
SUPPORT. What the shared operations of the slot instructions can do: slots, results, flags, sources, stores, landing,
captures.
-/

namespace Sys2Proof.Machine

/-! Slots (R64, R71). -/

theorem inSlot_ok {ok : Nat → Bool} {s : State} (h : ok s.slot = true) (k : State → State) : inSlot ok s k = .next (k s) := by
  simp [inSlot, h]
theorem inSlot_wrong {ok : Nat → Bool} {s : State} (h : ok s.slot = false) (k : State → State) :
    inSlot ok s k = .next s.illegal := by simp [inSlot, h]

/-! Results and flags (R40, R56, R137). -/

/-- Of s, at most the captured part of the context in execution and the record of the bundle in issue have changed. -/
structure OnlyArch (s t : State) : Prop where
  cycle : t.cycle = s.cycle
  turn : t.turn = s.turn
  busy : t.busy = s.busy
  late : t.late = s.late
  cur : t.cur = s.cur
  slot : t.slot = s.slot
  cores : t.cores = s.cores
  clusters : t.clusters = s.clusters
  units : t.units = s.units
  mem : t.mem = s.mem
  poison : t.poison = s.poison
  flawed : t.flawed = s.flawed
  deferred : t.deferred = s.deferred
  cmds : t.cmds = s.cmds
  nextCmd : t.nextCmd = s.nextCmd
  ce : t.ce = s.ce
  edge : t.edge = s.edge
  inbox : t.inbox = s.inbox
  choice : t.choice = s.choice
  other : ∀ g, g ≠ s.cur → t.ctx g = s.ctx g
  own : t.me = { s.me with arch := t.me.arch }

theorem OnlyArch.refl (s : State) : OnlyArch s s :=
  ⟨rfl, rfl, rfl, rfl, rfl, rfl, rfl, rfl, rfl, rfl, rfl, rfl, rfl, rfl, rfl, rfl, rfl, rfl, rfl, fun _ _ => rfl, rfl⟩
theorem OnlyArch.trans {s t u : State} (a : OnlyArch s t) (b : OnlyArch t u) : OnlyArch s u :=
  ⟨b.cycle.trans a.cycle, b.turn.trans a.turn, b.busy.trans a.busy, b.late.trans a.late, b.cur.trans a.cur, b.slot.trans a.slot,
    b.cores.trans a.cores, b.clusters.trans a.clusters, b.units.trans a.units, b.mem.trans a.mem, b.poison.trans a.poison,
    b.flawed.trans a.flawed, b.deferred.trans a.deferred, b.cmds.trans a.cmds, b.nextCmd.trans a.nextCmd, b.ce.trans a.ce, b.edge.trans a.edge, b.inbox.trans a.inbox,
    b.choice.trans a.choice, fun g h => (b.other g (a.cur ▸ h)).trans (a.other g h), by rw [b.own, a.own]⟩

theorem State.modArch_only (s : State) (f : Arch → Arch) : OnlyArch s (s.modArch s.cur f) :=
  ⟨rfl, rfl, rfl, rfl, rfl, rfl, rfl, rfl, rfl, rfl, rfl, rfl, rfl, rfl, rfl, rfl, rfl, rfl, rfl,
    fun _ h => State.ctx_modArch_other s f h, by
      show (s.modArch s.cur f).ctx s.cur = _
      rw [State.ctx_modArch_self]
      show _ = { s.me with arch := ((s.modArch s.cur f).ctx s.cur).arch }
      rw [State.ctx_modArch_self]; rfl⟩
theorem State.modIss_only (s : State) (f : Issue → Issue) : OnlyArch s (s.modIss f) :=
  ⟨rfl, rfl, rfl, rfl, rfl, rfl, rfl, rfl, rfl, rfl, rfl, rfl, rfl, rfl, rfl, rfl, rfl, rfl, rfl, fun _ _ => rfl, rfl⟩
theorem State.stall_only (s : State) : OnlyArch s s.stall := s.modIss_only _
theorem State.landAt_only (s : State) (l : Nat) (file : RegFile) (num : Nat) (mask : PWord) (val : VWord)
    (poison : Option Word) : OnlyArch s (s.landAt l file num mask val poison) := s.modArch_only _
theorem State.landS_only (s : State) (l d : Nat) (v : Word) : OnlyArch s (s.landS l d v) := by
  unfold State.landS; split
  · exact .refl s
  · exact s.landAt_only ..
theorem State.landP_only (s : State) (l d : Nat) (m v : PWord) : OnlyArch s (s.landP l d m v) := by
  unfold State.landP; split
  · exact .refl s
  · exact s.landAt_only ..
theorem State.raiseFlags_only (s : State) (l : Nat) (f : BitVec 4) : OnlyArch s (s.raiseFlags l f) := by
  unfold State.raiseFlags; split
  · exact .refl s
  · exact s.landAt_only ..
theorem State.spvAt_only (s : State) (l a : Nat) : OnlyArch s (s.spvAt l a) := s.modArch_only _
theorem State.rangeFlags_only (s : State) (l : Nat) (as_ : List Nat) : OnlyArch s (s.rangeFlags l as_) := by
  unfold State.rangeFlags
  split
  · exact .refl s
  · exact s.spvAt_only l _
/-- An access that lies wholly in the window raises no flag. -/
theorem State.rangeFlags_inside (s : State) (l : Nat) (as_ : List Nat) (h : ∀ a ∈ as_, s.me.inWindow a = true) :
    s.rangeFlags l as_ = s := by
  unfold State.rangeFlags
  rw [List.filter_eq_nil_iff.2 fun a ha => by simp [h a ha]]
  rfl

/-- A scalar result joins the pending writes of its context. -/
theorem State.landS_pend (s : State) (l d : Nat) (v : Word) (h : d ≠ 0) :
    ((s.landS l d v).ctx s.cur).arch.pend = s.me.arch.pend
      ++ [⟨.scalar, d, s.me.arch.tick + l, s.slot, fullScalar, v.zeroExtend 2048, s.iss.parcel, s.iss.rep, none,
        s.me.arch.tick, none, none⟩] := by
  simp [State.landS, h, State.landAt, State.me]
theorem State.landS_zero (s : State) (l : Nat) (v : Word) : s.landS l 0 v = s := rfl
theorem State.landP_zero (s : State) (l : Nat) (m v : PWord) : s.landP l 0 m v = s := rfl

/-! Sources (R52). -/

/-- A vector source that no stream is bound to is its register. -/
theorem State.readV_register {s : State} {r : BitVec 5} (h : s.me.arch.bound r.toNat = none) (l : Nat) (k : VWord → State → State) :
    s.readV l r k = k (s.me.arch.v r.toNat) s := by simp [State.readV, h]
theorem State.readV_write {s : State} {r : BitVec 5} {st : Stream} (h : s.me.arch.bound r.toNat = some st)
    (w : st.write = true) (l : Nat) (k : VWord → State → State) : s.readV l r k = s.illegal := by simp [State.readV, h, w]
theorem State.readV_empty {s : State} {r : BitVec 5} {st : Stream} (h : s.me.arch.bound r.toNat = some st)
    (w : st.write = false) (e : AMap.get [] s.me.units (r.toNat - 24) = []) (l : Nat) (k : VWord → State → State) :
    s.readV l r k = s.stall := by simp [State.readV, h, w, e]
/-- A vector result that no stream takes lands in its register. -/
theorem State.landV_register {s : State} {d : BitVec 5} (h : s.me.arch.bound d.toNat = none) (l : Nat) (m : PWord)
    (v : VWord) : s.landV l d m v = s.landAt l .vector d.toNat m v none := by simp [State.landV, h]
theorem State.landLoaded_register {s : State} {d : BitVec 5} (h : s.me.arch.bound d.toNat = none) (l : Nat) (m : PWord)
    (v : VWord) (bad : Option Word) : s.landLoaded l d m v bad = s.landAt l .vector d.toNat m v bad := by
  simp [State.landLoaded, h]
theorem State.checkDst_register {s : State} {d : BitVec 5} (h : s.me.arch.bound d.toNat = none) (k : State → State) :
    s.checkDst d k = k s := by simp [State.checkDst, h]

/-! The gated buffer (R239). -/

/-- Room in the buffer for an item. -/
def State.gateRoom (s : State) (item : GatedItem) : Prop :=
  let used := (s.me.gated.filter fun e => e.item.isStore == item.isStore && e.item.isCommand == item.isCommand).length
  (item.isStore = true → used < Config.gatedStores) ∧ (item.isCommand = true → used < Config.gatedCommands)
/-- Outside a handler, an item that has room joins the buffer of its context. -/
theorem State.gate_room {s : State} {item : GatedItem} (h : s.gateRoom item) (t : s.me.intrap = false) :
    s.gate item = s.modCtx s.cur fun x => { x with gated := x.gated ++ [⟨x.serial, x.arch.tick, item⟩] } := by
  obtain ⟨h1, h2⟩ := h
  unfold State.gate
  dsimp only
  rw [if_neg (by simp [t]), if_neg]
  simp only [Bool.or_eq_true, Bool.and_eq_true, decide_eq_true_eq, not_or, not_and, not_le]
  exact ⟨h1, h2⟩

/-! Landing (R41). -/

/-- Where nothing is pending and no SETFMT is in its shadow, a boundary lands nothing. -/
theorem Ctx.land_nothing (c : Ctx) (h : c.arch.pend = []) (e : c.arch.shadow = []) : c.land = c := by
  obtain ⟨a, _⟩ := c
  simp only at h e
  obtain ⟨⟩ := a
  simp only at h e
  subst h; subst e
  rfl
/-- One scalar write lands in its register. -/
theorem Ctx.landOne_scalar (c : Ctx) (p : Pending) (h : p.file = .scalar) : c.landOne p = { c with
    arch := c.arch.setS p.num (merge (c.arch.s p.num) (p.val.truncate 64) (p.mask.truncate 64)) } := by
  simp [Ctx.landOne, h]
theorem Ctx.landOne_vector (c : Ctx) (p : Pending) (h : p.file = .vector) : c.landOne p = { c with
    arch := c.arch.setV p.num (merge (c.arch.v p.num) p.val (byteMask p.mask)) } := by simp [Ctx.landOne, h]
theorem Ctx.landOne_predicate (c : Ctx) (p : Pending) (h : p.file = .predicate) : c.landOne p = { c with
    arch := c.arch.setP p.num (merge (c.arch.p p.num) (p.val.truncate 256) p.mask) } := by simp [Ctx.landOne, h]
theorem Ctx.landOne_flags (c : Ctx) (p : Pending) (h : p.file = .flagSet) : c.landOne p = { c with
    arch := { c.arch with flags := c.arch.flags ||| p.val.truncate 4 } } := by simp [Ctx.landOne, h]
theorem Ctx.landOne_control (c : Ctx) (p : Pending) (h : p.file = .control) :
    c.landOne p = c.writeControl p.num (p.val.truncate 64) := by simp [Ctx.landOne, h]
/-- A write under a mask of ones is the value. -/
@[simp] theorem merge_ones {n : Nat} (old new : BitVec n) : merge old new (BitVec.allOnes n) = new := by simp [merge]
@[simp] theorem merge_zero {n : Nat} (old new : BitVec n) : merge old new 0 = old := by simp [merge]

/-! Captures and rewinds (R237, R244). -/

@[simp] theorem Ctx.capture_arch (c : Ctx) (n : Nat) (k : CapKind) : (c.capture n k).arch = c.arch := rfl
@[simp] theorem Ctx.capture_gated (c : Ctx) (n : Nat) (k : CapKind) : (c.capture n k).gated = c.gated := rfl
@[simp] theorem Ctx.capture_state (c : Ctx) (n : Nat) (k : CapKind) : (c.capture n k).state = c.state := rfl
@[simp] theorem Ctx.capture_serial (c : Ctx) (n : Nat) (k : CapKind) : (c.capture n k).serial = c.serial + 1 := rfl
@[simp] theorem Ctx.dropUnits_arch (c : Ctx) : c.dropUnits.arch = c.arch := rfl
@[simp] theorem Ctx.dropUnits_gated (c : Ctx) : c.dropUnits.gated = c.gated := rfl
@[simp] theorem Ctx.dropUnits_units (c : Ctx) : c.dropUnits.units = [] := rfl
@[simp] theorem Ctx.rewindTo_arch (c : Ctx) (p : Capture) : (c.rewindTo p).arch = p.arch := rfl
@[simp] theorem Ctx.rewindTo_state (c : Ctx) (p : Capture) : (c.rewindTo p).state = c.state := rfl
/-- A capture followed by a rewind to it gives the captured part back. -/
theorem Ctx.rewind_capture (c : Ctx) (n : Nat) (k : CapKind) :
    ((c.capture n k).newest.map fun p => ((c.capture n k).rewindTo p).arch) = some c.arch := by
  simp [Ctx.newest, Ctx.capture, Ctx.rewindTo]

/-- Where no context waits to start, nothing is claimed. -/
theorem State.unclaim_none (s : State) (g n : Nat) (h : ∀ x ∈ s.ctxs, x.2.startSeg = none) : s.unclaim g n = s := by
  have : ∀ (l : List (Nat × Ctx)) (t : State), (∀ x ∈ l, x.2.startSeg = none) →
      l.foldl (fun s p => match p.2.startSeg with
        | some (h, gen, seg) => if h = g ∧ gen = (s.ctx g).gen ∧ n ≤ seg then
            s.modCtx p.1 fun x => { x with state := s.restState p.1, kernel := none, startSeg := none, parent := none }
          else s
        | none => s) t = t := by
    intro l
    induction l with
    | nil => intro t _; rfl
    | cons x l ih =>
      intro t hl
      rw [List.foldl_cons, hl x List.mem_cons_self]
      exact ih t fun y hy => hl y (List.mem_cons_of_mem _ hy)
  exact this s.ctxs s h

end Sys2Proof.Machine
end

