-- ==== Sys2Proof/Laws/Devices.lean ====
section
/-!
SUPPORT. The device's shared operations on memory keep its canonical form, and what a command's end leaves alone.
-/

namespace Sys2Proof.Machine

/-! Completion words and engine writes (R110, R111, R166). -/

@[simp] theorem State.progressOf_mem (s : State) (k : Option Nat) : (s.progressOf k).mem = s.mem := by
  unfold State.progressOf; split <;> rfl
@[simp] theorem State.progressOf_ctxs (s : State) (k : Option Nat) : (s.progressOf k).ctxs = s.ctxs := by
  unfold State.progressOf; split <;> rfl
@[simp] theorem State.progressOf_cmds (s : State) (k : Option Nat) : (s.progressOf k).cmds = s.cmds := by
  unfold State.progressOf; split <;> rfl
theorem State.completionWord_wf {s : State} (h : s.mem.wf) (i : Issuer) (a v : BitVec 32) :
    (s.completionWord i a v).mem.wf := by
  unfold State.completionWord
  split
  · exact h
  · dsimp only
    rw [State.progressOf_mem]
    exact State.mergeStore_wf h _ _ _
@[simp] theorem State.completionWord_ctxs (s : State) (i : Issuer) (a v : BitVec 32) :
    (s.completionWord i a v).ctxs = s.ctxs := by
  unfold State.completionWord
  split
  · rfl
  · dsimp only
    rw [State.progressOf_ctxs]
    exact State.mergeStore_ctxs _ _ _ _
theorem State.engineWriteBytes_wf {s : State} (h : s.mem.wf) (i : Issuer) (lo hi : Nat) (l : List (Nat × Byte)) :
    (s.engineWriteBytes i lo hi l).state.mem.wf := State.mergeStore_wf h _ _ _
theorem State.writePush_wf {s : State} (h : s.mem.wf) (g unit : Nat) (d : BitVec 512) (v : VWord)
    (gone : List Nat) : (s.writePush g unit d v gone).mem.wf := State.mergeStore_wf h _ _ _
@[simp] theorem Move.mark_state (m : Move) (n : Nat) : (m.mark n).state = m.state := rfl
@[simp] theorem Move.judgeSent_mem (m : Move) : m.judgeSent.state.mem = m.state.mem := by
  unfold Move.judgeSent
  split <;> rfl
theorem Move.land_wf {m0 : Move} (h : m0.state.mem.wf) (c : Cmd) (ca : Option (Nat × Nat)) : (m0.land c ca).state.mem.wf := by
  have : (m0.land c ca).state = (((m0.judgeSent.state.store m0.judgeSent.aux.reverse (some (c.by_.g % 8, c.by_.kernel))
      none).store m0.judgeSent.cells.reverse (some (c.by_.g % 8, c.by_.kernel)) ca).addPoison
        (m0.judgeSent.state.poisonHits (m0.judgeSent.aux.reverse ++ m0.judgeSent.cells.reverse) ++
          m0.judgeSent.dirty)).journalPoison
            (m0.judgeSent.state.poisonHits (m0.judgeSent.aux.reverse ++ m0.judgeSent.cells.reverse)) := by
    unfold Move.land
    dsimp only
    split <;> rfl
  rw [this]
  exact State.journalPoison_wf (State.addPoison_wf (State.store_wf (State.store_wf (by simpa using h) _ _ _) _ _ _) _) _

/-! Reset, drain, images (R193, R216, R219, R230). -/

theorem State.globalMemory_wf {s : State} (h : s.mem.wf) : s.globalMemory.wf := Memory.wf_filter h _
theorem State.resetCluster_wf {s : State} (h : s.mem.wf) (cl : Nat) : (s.resetCluster cl).mem.wf := Memory.wf_filter h _
theorem State.loadLts_wf {s : State} (h : s.mem.wf) (cl src dst n cls act : Nat) : (s.loadLts cl src dst n cls act).mem.wf :=
  State.store_wf h _ _ _
/-- A scrubbed cluster's lifetime store and near stores read as nothing has written them. -/
theorem State.resetCluster_reads (s : State) (cl k : Nat)
    (h : (ltsKey cl 0 ≤ k ∧ k < ltsKey (cl + 1) 0) ∨ (nearKey (4 * cl) 0 ≤ k ∧ k < nearKey (4 * cl + 4) 0)) :
    (s.resetCluster cl).mem.read k = Memory.unlisted := by
  unfold State.resetCluster Memory.read AMap.get
  dsimp only
  rw [AMap.find_filter s.mem (fun k => !((decide (ltsKey cl 0 ≤ k) && decide (k < ltsKey (cl + 1) 0))
    || (decide (nearKey (4 * cl) 0 ≤ k) && decide (k < nearKey (4 * cl + 4) 0)))) k, if_neg]
  · rfl
  · rcases h with h | h <;> simp [h]
/-- What the reset of a cluster keeps reads as before. -/
theorem State.resetCluster_keeps (s : State) (cl k : Nat)
    (h : ¬((ltsKey cl 0 ≤ k ∧ k < ltsKey (cl + 1) 0) ∨ (nearKey (4 * cl) 0 ≤ k ∧ k < nearKey (4 * cl + 4) 0))) :
    (s.resetCluster cl).mem.read k = s.mem.read k := by
  unfold State.resetCluster Memory.read AMap.get
  dsimp only
  rw [AMap.find_filter s.mem (fun k => !((decide (ltsKey cl 0 ≤ k) && decide (k < ltsKey (cl + 1) 0))
    || (decide (nearKey (4 * cl) 0 ≤ k) && decide (k < nearKey (4 * cl + 4) 0)))) k, if_pos]
  simp only [Bool.not_eq_true', Bool.or_eq_false_iff, Bool.and_eq_false_iff, decide_eq_false_iff_not]
  omega

/-! Remote writes (R187, R188, R193). -/

/-- A message changes nothing but the list of what leaves, and nothing at all while the link is closed. -/
theorem State.sendLink_cases (s : State) (x : LinkMsg) :
    s.sendLink x = s ∨ s.sendLink x = { s with edge := { s.edge with link := s.edge.link ++ [x] } } := by
  unfold State.sendLink
  split
  · exact .inl rfl
  · exact .inr rfl
@[simp] theorem State.sendLink_mem (s : State) (x : LinkMsg) : (s.sendLink x).mem = s.mem := by
  rcases s.sendLink_cases x with h | h <;> rw [h]
@[simp] theorem State.sendLink_ctxs (s : State) (x : LinkMsg) : (s.sendLink x).ctxs = s.ctxs := by
  rcases s.sendLink_cases x with h | h <;> rw [h]
@[simp] theorem State.respond_mem (s : State) (dst pa : Nat) (l : List Byte) (bad : NSet) : (s.respond dst pa l bad).mem = s.mem :=
  State.sendLink_mem _ _
@[simp] theorem State.respond_ctxs (s : State) (dst pa : Nat) (l : List Byte) (bad : NSet) :
    (s.respond dst pa l bad).ctxs = s.ctxs := State.sendLink_ctxs _ _
theorem State.putPlace_wf {s : State} (h : s.mem.wf) (p : Place) (l : List Byte) (bad : NSet) :
    (s.putPlace p l bad).mem.wf := by
  unfold State.putPlace
  split
  · split
    · exact State.writePhys_wf h _ _
    · exact h
  · rwa [State.sendLink_mem]
@[simp] theorem State.putPlace_ctxs (s : State) (p : Place) (l : List Byte) (bad : NSet) :
    (s.putPlace p l bad).ctxs = s.ctxs := by
  unfold State.putPlace
  split
  · split
    · exact State.writePhys_ctxs _ _ _
    · rfl
  · exact State.sendLink_ctxs _ _
theorem State.landSent_wf {s : State} (h : s.mem.wf) (p : Place) (w : Parked) : (s.landSent p w).mem.wf := by
  unfold State.landSent
  dsimp only
  split
  · exact h
  · rw [State.respond_mem]
    refine State.putPlace_wf ?_ _ _ _
    split <;> exact h
@[simp] theorem State.landSent_ctxs (s : State) (p : Place) (w : Parked) : (s.landSent p w).ctxs = s.ctxs := by
  unfold State.landSent
  dsimp only
  split
  · rfl
  · rw [State.respond_ctxs]
    refine (State.putPlace_ctxs _ _ _ _).trans ?_
    split <;> rfl
theorem State.deliver_wf {s : State} (h : s.mem.wf) (p : Place) (w : Parked) : (s.deliver p w).mem.wf := by
  unfold State.deliver
  dsimp only
  split
  · exact h
  · exact State.landSent_wf h _ _
@[simp] theorem State.deliver_ctxs (s : State) (p : Place) (w : Parked) : (s.deliver p w).ctxs = s.ctxs := by
  unfold State.deliver
  dsimp only
  split
  · rfl
  · exact State.landSent_ctxs _ _ _
/-- Where no frame migrates, a write reaches the place that it was sent to. -/
theorem State.forward_of_none {s : State} (h : s.edge.forwards = []) (p : Place) : s.forward p = p := by
  simp [State.forward, h]
/-- Where no frame migrates, an access is one piece. -/
theorem State.pieces_of_no_edges {s : State} (h : s.frameEdges = []) (pa n : Nat) : s.pieces pa n = [(pa, n)] := by
  unfold State.pieces
  rw [h]
  rfl
theorem State.frameEdges_of_none {s : State} (hw : s.edge.windows = []) (hf : s.edge.forwards = []) : s.frameEdges = [] := by
  simp [State.frameEdges, hw, hf]

/-! Commands (R196). -/

theorem State.modCmd_find {s : State} {n : Nat} {c : Cmd} (h : (s.cmds.find? fun d => d.id == n) = some c) (f : Cmd → Cmd)
    (hf : (f c).id = n) : ((s.modCmd n f).cmds.find? fun d => d.id == n) = some (f c) := by
  unfold State.modCmd
  dsimp only
  revert h
  induction s.cmds with
  | nil => intro h; cases h
  | cons d t ih =>
    intro h
    rw [List.map_cons]
    by_cases e : d.id = n
    · have : d = c := by simpa [e] using h
      subst this
      simp [e, hf]
    · simp only [e, if_false]
      rw [List.find?_cons_of_neg (by simpa using e)] at h ⊢
      exact ih h
@[simp] theorem State.modCmd_mem (s : State) (n : Nat) (f : Cmd → Cmd) : (s.modCmd n f).mem = s.mem := rfl
@[simp] theorem State.modCmd_ctxs (s : State) (n : Nat) (f : Cmd → Cmd) : (s.modCmd n f).ctxs = s.ctxs := rfl
@[simp] theorem State.modCmd_ce (s : State) (n : Nat) (f : Cmd → Cmd) : (s.modCmd n f).ce = s.ce := rfl
@[simp] theorem State.modCmd_edge (s : State) (n : Nat) (f : Cmd → Cmd) : (s.modCmd n f).edge = s.edge := rfl

end Sys2Proof.Machine
end

