-- ==== Sys2Proof/Tests/Slice0.lean ====
section
/-!
SUPPORT. Tests of the model: instructions that are not well formed, words of the spec's encodings, one step of chosen
instructions with results worked out by hand from the rules, and witnesses of the statements' hypotheses.
-/

set_option Elab.async false

namespace Sys2Proof.Tests

open Sys2Proof.Machine Sys2Proof.Claims

/-! Instructions that are not well formed: one for each check, and a word that the check refuses (R71). -/

theorem test_illegal_word_is_not_well_formed : (Instr.illegalWord 0x02000010).wf = false := by decide
theorem test_loop_of_no_parcels : (Instr.loop 5 0).wf = false ∧ decodeWord 0xB0500000 = none := by decide +kernel
theorem test_spawn_of_nine_arguments : (Instr.spawn 5 6 9 0).wf = false ∧ decodeWord 0xBC530048 = none := by decide +kernel
theorem test_spawn_past_s31 :
    (Instr.spawn 5 30 2 0).wf = true ∧ (Instr.spawn 5 31 2 0).wf = false ∧ (Instr.spawn 5 31 0 0).wf = true := by decide
theorem test_susp_past_s31 : (Instr.susp 5 26 .any).wf = true ∧ (Instr.susp 5 27 .any).wf = false := by decide
theorem test_fence_of_no_path :
    (Instr.fence 0 1 .dev .rel).wf = false ∧ (Instr.fence 1 0 .dev .rel).wf = false ∧ (Instr.fence 1 1 .dev .rel).wf = true := by
  decide
theorem test_control_register_numbers :
    (Instr.crd 1 0x008).wf = true ∧ (Instr.crd 1 0x009).wf = false ∧ (Instr.crd 1 0x01E).wf = true
    ∧ (Instr.crd 1 0x01F).wf = false ∧ (Instr.cwr 1 0x022).wf = true ∧ (Instr.cwr 1 0x023).wf = false := by decide
theorem test_engine_register_numbers :
    (Instr.erd 1 0x014).wf = true ∧ (Instr.erd 1 0x015).wf = false ∧ (Instr.erd 1 0x047).wf = true
    ∧ (Instr.erd 1 0x048).wf = false ∧ (Instr.ewr 0x024 1).wf = true ∧ (Instr.ewr 0x025 1).wf = false := by decide
theorem test_ewr_of_erht_is_its_own_row : (Instr.ewr 0x008 1).wf = false ∧ (Instr.ewrErhtTail 0 1).wf = true := by decide
theorem test_xcvt_part_below_ratio :
    (Instr.xcvt 1 2 .f32 .e4m3 (.own .rne) false 3).wf = true ∧ (Instr.xcvt 1 2 .f32 .e4m3 (.own .rne) false 4).wf = false
    ∧ (Instr.xcvt 1 2 .f32 .int32 (.own .rne) false 1).wf = false := by decide
theorem test_xexp_and_xpack_parts :
    (Instr.xexp 1 2 .int2 3).wf = true ∧ (Instr.xexp 1 2 .int2 4).wf = false ∧ (Instr.xexp 1 2 .e3m2 1).wf = false
    ∧ (Instr.xpack 1 2 .int4 1).wf = true ∧ (Instr.xpack 1 2 .int4 2).wf = false := by decide
theorem test_mma_rings :
    (Instr.mma 7 1 false false 3).wf = false ∧ (Instr.mma 2 2 false false 3).wf = false
    ∧ (Instr.mma 2 7 false false 3).wf = true := by decide
theorem test_global_access_orders :
    (Instr.gst .acq .dev false 1 2).wf = false ∧ (Instr.gld .rel .dev false 1 2).wf = false
    ∧ (Instr.gaadd .acq .dev false 1 2).wf = true := by decide

/-! Words written out from the opcode table: its match bits with chosen field values. -/

theorem test_decode_scalar_alu :
    decodeWord 0x02531C00 = some (.add 5 6 7)
    ∧ decodeWord 0x02531C01 = some (.sub 5 6 7)
    ∧ decodeWord 0x02531C02 = some (.and 5 6 7)
    ∧ decodeWord 0x02531C03 = some (.or 5 6 7)
    ∧ decodeWord 0x02531C04 = some (.xor 5 6 7)
    ∧ decodeWord 0x02531C05 = some (.sll 5 6 7)
    ∧ decodeWord 0x02531C06 = some (.srl 5 6 7)
    ∧ decodeWord 0x02531C07 = some (.sra 5 6 7)
    ∧ decodeWord 0x02531C08 = some (.slt 5 6 7)
    ∧ decodeWord 0x02531C09 = some (.sltu 5 6 7)
    ∧ decodeWord 0x02531C0A = some (.min 5 6 7)
    ∧ decodeWord 0x02531C0B = some (.max 5 6 7)
    ∧ decodeWord 0x02531C0C = some (.minu 5 6 7)
    ∧ decodeWord 0x02531C0D = some (.maxu 5 6 7)
    ∧ decodeWord 0x04537FFE = some (.addi 5 6 0x7ffe)
    ∧ decodeWord 0x06537FFE = some (.andi 5 6 0x7ffe)
    ∧ decodeWord 0x08537FFE = some (.ori 5 6 0x7ffe)
    ∧ decodeWord 0x0A537FFE = some (.xori 5 6 0x7ffe)
    ∧ decodeWord 0x0C537FFE = some (.slti 5 6 0x7ffe)
    ∧ decodeWord 0x0E53002D = some (.slli 5 6 0x2d)
    ∧ decodeWord 0x0E53006D = some (.srli 5 6 0x2d)
    ∧ decodeWord 0x0E5300AD = some (.srai 5 6 0x2d)
    ∧ decodeWord 0x105ABCDE = some (.li 5 0xabcde)
    ∧ decodeWord 0x125ABCDE = some (.lih 5 0xabcde)
    ∧ decodeWord 0x145ABCDE = some (.lix 5 0xabcde) := by
  decide +kernel

theorem test_decode_scalar_long :
    decodeWord 0x16531C00 = some (.mul 5 6 7)
    ∧ decodeWord 0x16531C01 = some (.mulh 5 6 7)
    ∧ decodeWord 0x16531C02 = some (.mulhu 5 6 7)
    ∧ decodeWord 0x16531C03 = some (.div 5 6 7)
    ∧ decodeWord 0x16531C04 = some (.divu 5 6 7)
    ∧ decodeWord 0x16531C05 = some (.rem 5 6 7)
    ∧ decodeWord 0x16531C06 = some (.remu 5 6 7)
    ∧ decodeWord 0x18530000 = some (.clz 5 6)
    ∧ decodeWord 0x18530001 = some (.ctz 5 6)
    ∧ decodeWord 0x18530002 = some (.popc 5 6)
    ∧ decodeWord 0x18530003 = some (.brev 5 6)
    ∧ decodeWord 0x18531C04 = some (.bext 5 6 7)
    ∧ decodeWord 0x18531C05 = some (.bins 5 6 7)
    ∧ decodeWord 0x1A531C03 = some (.lea 5 6 7 3)
    ∧ decodeWord 0x1C531C00 = some (.cmov 5 6 7)
    ∧ decodeWord 0x1E531C00 = some (.fadd 5 6 7)
    ∧ decodeWord 0x1E531C01 = some (.fsub 5 6 7)
    ∧ decodeWord 0x1E531C02 = some (.fmul 5 6 7)
    ∧ decodeWord 0x1E531C03 = some (.fmin 5 6 7)
    ∧ decodeWord 0x1E531C04 = some (.fmax 5 6 7)
    ∧ decodeWord 0x1E531C05 = some (.feq 5 6 7)
    ∧ decodeWord 0x1E531C06 = some (.flt 5 6 7)
    ∧ decodeWord 0x1E531C07 = some (.fle 5 6 7)
    ∧ decodeWord 0x1E530008 = some (.fcvti 5 6)
    ∧ decodeWord 0x1E530009 = some (.fcvtf 5 6)
    ∧ decodeWord 0x20531C00 = some (.ffma 5 6 7) := by
  decide +kernel

theorem test_decode_near_loads_and_stores :
    decodeWord 0x22530ABC = some (.ldb 5 6 0xabc)
    ∧ decodeWord 0x24530ABC = some (.ldbu 5 6 0xabc)
    ∧ decodeWord 0x26530ABC = some (.ldh 5 6 0xabc)
    ∧ decodeWord 0x28530ABC = some (.ldhu 5 6 0xabc)
    ∧ decodeWord 0x2A530ABC = some (.ldw 5 6 0xabc)
    ∧ decodeWord 0x2C530ABC = some (.ldwu 5 6 0xabc)
    ∧ decodeWord 0x2E530ABC = some (.ldd 5 6 0xabc)
    ∧ decodeWord 0x30530ABC = some (.stb 5 6 0xabc)
    ∧ decodeWord 0x32530ABC = some (.sth 5 6 0xabc)
    ∧ decodeWord 0x34530ABC = some (.stw 5 6 0xabc)
    ∧ decodeWord 0x36530ABC = some (.std 5 6 0xabc) := by
  decide +kernel

theorem test_decode_near_vectors_atomics_and_stack :
    decodeWord 0x38533ABC = some (.vld 5 6 3 0xabc)
    ∧ decodeWord 0x3A533ABC = some (.vst 5 6 3 0xabc)
    ∧ decodeWord 0x3C531C01 = some (.vlds 5 6 7 .w16)
    ∧ decodeWord 0x3C531C05 = some (.vsts 5 6 7 .w16)
    ∧ decodeWord 0x3E531C01 = some (.vgath 5 6 7 .w16)
    ∧ decodeWord 0x3E531C05 = some (.vscat 5 6 7 .w16)
    ∧ decodeWord 0x40531C04 = some (.naadd 5 6 7 true)
    ∧ decodeWord 0x40531C05 = some (.nacas 5 6 7 true)
    ∧ decodeWord 0x40531C06 = some (.naxch 5 6 7 true)
    ∧ decodeWord 0x42500000 = some (.spill 5)
    ∧ decodeWord 0x42500001 = some (.fill 5)
    ∧ decodeWord 0x42500002 = some (.vspill 5)
    ∧ decodeWord 0x42500003 = some (.vfill 5) := by
  decide +kernel

theorem test_decode_vector_integer :
    decodeWord 0x50531DA0 = some (.vadd 5 6 7 3 .w16)
    ∧ decodeWord 0x50531DA1 = some (.vsub 5 6 7 3 .w16)
    ∧ decodeWord 0x50531DA2 = some (.vmul 5 6 7 3 .w16)
    ∧ decodeWord 0x50531DA3 = some (.vmulh 5 6 7 3 .w16)
    ∧ decodeWord 0x50531DA4 = some (.vmin 5 6 7 3 .w16)
    ∧ decodeWord 0x50531DA5 = some (.vmax 5 6 7 3 .w16)
    ∧ decodeWord 0x505301A6 = some (.vabs 5 6 3 .w16)
    ∧ decodeWord 0x50531DA7 = some (.vadds 5 6 7 3 .w16)
    ∧ decodeWord 0x52531DA0 = some (.vand 5 6 7 3 .w16)
    ∧ decodeWord 0x52531DA1 = some (.vor 5 6 7 3 .w16)
    ∧ decodeWord 0x52531DA2 = some (.vxor 5 6 7 3 .w16)
    ∧ decodeWord 0x52531DA3 = some (.vandn 5 6 7 3 .w16)
    ∧ decodeWord 0x52531DA4 = some (.vshl 5 6 7 3 .w16)
    ∧ decodeWord 0x52531DA5 = some (.vshr 5 6 7 3 .w16)
    ∧ decodeWord 0x52531DA6 = some (.vsra 5 6 7 3 .w16)
    ∧ decodeWord 0x52531DA7 = some (.vrotl 5 6 7 3 .w16)
    ∧ decodeWord 0x54329A20 = some (.vceq 3 5 6 4 .w16)
    ∧ decodeWord 0x54329A21 = some (.vcne 3 5 6 4 .w16)
    ∧ decodeWord 0x54329A22 = some (.vclt 3 5 6 4 .w16)
    ∧ decodeWord 0x54329A23 = some (.vcle 3 5 6 4 .w16)
    ∧ decodeWord 0x54329A24 = some (.vcltu 3 5 6 4 .w16)
    ∧ decodeWord 0x54329A25 = some (.vcleu 3 5 6 4 .w16) := by
  decide +kernel

theorem test_decode_vector_moves :
    decodeWord 0x56531DA0 = some (.vaddx 5 6 7 3 .w16)
    ∧ decodeWord 0x56531DA1 = some (.vsubx 5 6 7 3 .w16)
    ∧ decodeWord 0x56531DA2 = some (.vmulx 5 6 7 3 .w16)
    ∧ decodeWord 0x56531DA3 = some (.vshlx 5 6 7 3 .w16)
    ∧ decodeWord 0x56531DA4 = some (.vshrx 5 6 7 3 .w16)
    ∧ decodeWord 0x56531DA5 = some (.vsrax 5 6 7 3 .w16)
    ∧ decodeWord 0x56531DA6 = some (.vminx 5 6 7 3 .w16)
    ∧ decodeWord 0x56531DA7 = some (.vmaxx 5 6 7 3 .w16)
    ∧ decodeWord 0x585301A0 = some (.vmov 5 6 3 .w16)
    ∧ decodeWord 0x585301A1 = some (.vbcast 5 6 3 .w16)
    ∧ decodeWord 0x58531DA2 = some (.vsel 5 6 7 3 .w16)
    ∧ decodeWord 0x58531C23 = some (.vextr 5 6 7 .w16)
    ∧ decodeWord 0x58531C24 = some (.vins 5 6 7 .w16)
    ∧ decodeWord 0x585001A5 = some (.viota 5 3 .w16)
    ∧ decodeWord 0x585301A6 = some (.vpopc 5 6 3 .w16)
    ∧ decodeWord 0x585301A7 = some (.vclz 5 6 3 .w16) := by
  decide +kernel

theorem test_decode_vector_float :
    decodeWord 0x5A531DA0 = some (.vperm 5 6 7 3 .w16)
    ∧ decodeWord 0x5A531DA1 = some (.vrot 5 6 7 3 .w16)
    ∧ decodeWord 0x5A5301A2 = some (.vrev 5 6 3 .w16)
    ∧ decodeWord 0x60531DB0 = some (.vfadd 5 6 7 3 .w16 true false)
    ∧ decodeWord 0x60531DB1 = some (.vfsub 5 6 7 3 .w16 true false)
    ∧ decodeWord 0x60531DB2 = some (.vfmul 5 6 7 3 .w16 true false)
    ∧ decodeWord 0x60531DB3 = some (.vfmin 5 6 7 3 .w16 true false)
    ∧ decodeWord 0x60531DB4 = some (.vfmax 5 6 7 3 .w16 true false)
    ∧ decodeWord 0x605301B5 = some (.vfabs 5 6 3 .w16 true false)
    ∧ decodeWord 0x605301B6 = some (.vfneg 5 6 3 .w16 true false)
    ∧ decodeWord 0x60531DB7 = some (.vfcps 5 6 7 3 .w16 true false)
    ∧ decodeWord 0x62531DB0 = some (.vfma 5 6 7 3 .w16 true false)
    ∧ decodeWord 0x62531DB1 = some (.vfms 5 6 7 3 .w16 true false)
    ∧ decodeWord 0x64329A30 = some (.vfeq 3 5 6 4 .w16 true)
    ∧ decodeWord 0x64329A31 = some (.vfne 3 5 6 4 .w16 true)
    ∧ decodeWord 0x64329A32 = some (.vflt 3 5 6 4 .w16 true)
    ∧ decodeWord 0x64329A33 = some (.vfle 3 5 6 4 .w16 true)
    ∧ decodeWord 0x64329A34 = some (.vfun 3 5 6 4 .w16 true)
    ∧ decodeWord 0x665301A0 = some (.vrsum 5 6 3 .w16)
    ∧ decodeWord 0x665301A1 = some (.vrmax 5 6 3 .w16)
    ∧ decodeWord 0x665301A2 = some (.vrmin 5 6 3 .w16)
    ∧ decodeWord 0x665301B3 = some (.vfrsum 5 6 3 .w16 true false)
    ∧ decodeWord 0x665301B4 = some (.vfrmax 5 6 3 .w16 true false)
    ∧ decodeWord 0x665301B5 = some (.vfrmin 5 6 3 .w16 true false) := by
  decide +kernel

theorem test_decode_special_dot_and_predicate :
    decodeWord 0x68531DB0 = some (.vdot 5 6 7 3 .w16 true false)
    ∧ decodeWord 0x68531DB1 = some (.vdota 5 6 7 3 .w16 true false)
    ∧ decodeWord 0x6A5301B0 = some (.vrcp 5 6 3 .w16 true false)
    ∧ decodeWord 0x6A5301B1 = some (.vrsq 5 6 3 .w16 true false)
    ∧ decodeWord 0x6A5301B2 = some (.vsqrt 5 6 3 .w16 true false)
    ∧ decodeWord 0x6A5301B3 = some (.vexp2 5 6 3 .w16 true false)
    ∧ decodeWord 0x6A5301B4 = some (.vlog2 5 6 3 .w16 true false)
    ∧ decodeWord 0x6A5301B5 = some (.vtanh 5 6 3 .w16 true false)
    ∧ decodeWord 0x6A5301B6 = some (.vsinpi 5 6 3 .w16 true false)
    ∧ decodeWord 0x6A5301B7 = some (.verf 5 6 3 .w16 true false)
    ∧ decodeWord 0x6C531C03 = some (.vbnet 5 6 7 3)
    ∧ decodeWord 0x70321400 = some (.pand 3 4 5)
    ∧ decodeWord 0x70321401 = some (.por 3 4 5)
    ∧ decodeWord 0x70321402 = some (.pxor 3 4 5)
    ∧ decodeWord 0x70321403 = some (.pandn 3 4 5)
    ∧ decodeWord 0x70320004 = some (.pnot 3 4)
    ∧ decodeWord 0x70518025 = some (.pcnt 5 3 .w16)
    ∧ decodeWord 0x70518026 = some (.pfirst 5 3 .w16)
    ∧ decodeWord 0x70301427 = some (.planes 3 5 .w16) := by
  decide +kernel

theorem test_decode_transforms :
    decodeWord 0x805309F9 = some (.xcvt 5 6 .bf16 .e4m3 .useFmt true 1)
    ∧ decodeWord 0x82532300 = some (.xexp 5 6 .int2 3)
    ∧ decodeWord 0x84532200 = some (.xpack 5 6 .int2 2)
    ∧ decodeWord 0x86534000 = some (.xtrn 5 6 .s8)
    ∧ decodeWord 0x88531C00 = some (.xscl 5 6 7)
    ∧ decodeWord 0x88531C01 = some (.xqnt 5 6 7) := by
  decide +kernel

theorem test_decode_control :
    decodeWord 0xA0537FFE = some (.beq 5 6 0x7ffe)
    ∧ decodeWord 0xA2537FFE = some (.bne 5 6 0x7ffe)
    ∧ decodeWord 0xA4537FFE = some (.blt 5 6 0x7ffe)
    ∧ decodeWord 0xA6537FFE = some (.bge 5 6 0x7ffe)
    ∧ decodeWord 0xA8537FFE = some (.bltu 5 6 0x7ffe)
    ∧ decodeWord 0xAA537FFE = some (.bgeu 5 6 0x7ffe)
    ∧ decodeWord 0xAC5ABCDE = some (.jmp 5 0xabcde)
    ∧ decodeWord 0xAE530000 = some (.jmpr 5 6)
    ∧ decodeWord 0xB0500123 = some (.loop 5 291)
    ∧ decodeWord 0xB2500000 = some (.setfmt 5)
    ∧ decodeWord 0xB4001234 = some (.proof 4660)
    ∧ decodeWord 0xB65002A5 = some (.vigil 5 0x2a5)
    ∧ decodeWord 0xB853004B = some (.waita 5 6 .dom true .ltu)
    ∧ decodeWord 0xBA0026D2 = some (.fence 9 22 .dom .ar)
    ∧ decodeWord 0xBC530023 = some (.spawn 5 6 4 3)
    ∧ decodeWord 0xBE530002 = some (.susp 5 6 .core)
    ∧ decodeWord 0xC0000000 = some .done
    ∧ decodeWord 0xC2000000 = some .trig
    ∧ decodeWord 0xC4007FFE = some (.trap 0x7ffe)
    ∧ decodeWord 0xC6000000 = some .eret
    ∧ decodeWord 0xC8500011 = some (.crd 5 17)
    ∧ decodeWord 0xCA500020 = some (.cwr 5 32)
    ∧ decodeWord 0xCC007FFE = some (.bkpt 0x7ffe)
    ∧ decodeWord 0xCE530155 = some (.engrave 5 6 341)
    ∧ decodeWord 0xD0500003 = some (.bnset 5 3) := by
  decide +kernel

theorem test_decode_engine :
    decodeWord 0xE0081400 = some (.ewr 16 5)
    ∧ decodeWord 0xE0059400 = some (.ewrErhtTail 3 5)
    ∧ decodeWord 0xE2121400 = some (.erd 5 36)
    ∧ decodeWord 0xE47C1400 = some (.mma 1 7 true false 5)
    ∧ decodeWord 0xE6040000 = some (.mzero true)
    ∧ decodeWord 0xE80514C0 = some (.mret true false .f32t 5 6)
    ∧ decodeWord 0xEB4414C0 = some (.mgang 0xa true false 5 6)
    ∧ decodeWord 0xEC8014C0 = some (.flu true 5 6)
    ∧ decodeWord 0xEE8014C0 = some (.fchol true 5 6)
    ∧ decodeWord 0xF00014C0 = some (.fqr 5 6)
    ∧ decodeWord 0xF34014C0 = some (.ftrsm true false true false 5 6)
    ∧ decodeWord 0xF40014C0 = some (.cpy 5 6)
    ∧ decodeWord 0xF6001400 = some (.coll 5)
    ∧ decodeWord 0xF83914C0 = some (.gld .sc .dom true 5 6)
    ∧ decodeWord 0xF87914C0 = some (.gst .sc .dom true 5 6)
    ∧ decodeWord 0xF8B914C0 = some (.gaadd .sc .dom true 5 6)
    ∧ decodeWord 0xF8F914C0 = some (.gacas .sc .dom true 5 6)
    ∧ decodeWord 0xF93914C0 = some (.gaxch .sc .dom true 5 6)
    ∧ decodeWord 0xF97914C0 = some (.gamax .sc .dom true 5 6)
    ∧ decodeWord 0xF9B914C0 = some (.gamin .sc .dom true 5 6)
    ∧ decodeWord 0xFA001400 = some (.wstrm 5)
    ∧ decodeWord 0xFC059400 = some (.strb true 3 5)
    ∧ decodeWord 0xFD018000 = some (.stru 3)
    ∧ decodeWord 0xFE0014C0 = some (.lref 5 6)
    ∧ decodeWord 0xFE8014C0 = some (.lqry 5 6)
    ∧ decodeWord 0xFF2114C0 = some (.phint .once .host 5 6)
    ∧ decodeWord 0xFF8014C0 = some (.pmig 5 6) := by
  decide +kernel

theorem test_decode_parcels :
    decodeParcel 0x0142 = some (.print 5 2) ∧ decodeParcel 0x7FFF = some (.print 511 63)
    ∧ decodeParcel 0xC020 = some (.fullBundleHeader 1) ∧ decodeParcel 0xFFE0 = some (.fullBundleHeader 511)
    ∧ decodeParcel 0xC001 = none ∧ decodeParcel 0x8000 = none ∧ decodeWord 0 = some .nop := by
  decide +kernel

/-- Words next to a row's that no row has: a reserved function code, a fixed bit, and reserved codes of ty, scope, the
D-path's scope, the affinity and the layout. -/
theorem test_reserved_words_decode_to_nothing :
    decodeWord 0x0200000E = none ∧ decodeWord 0x18000040 = none ∧ decodeWord 0x50000060 = none ∧ decodeWord 0xB8000070 = none
    ∧ decodeWord 0xBE000003 = none ∧ decodeWord 0xE8018000 = none ∧ decodeWord 0xF80C0000 = none ∧ decodeWord 0xFF500000 = none
    ∧ decodeWord 0xFFFFFFFF = none := by
  decide +kernel

/-! One step of chosen instructions; each expected value is worked out by hand from the rule cited. -/

/-- A context at work on kernel 0, with all of its near store in its window. -/
def ctx0 : Ctx := { Ctx.reset with state := .running, kernel := some 0, gen := 1, sphi := 0x7FFFF }
/-- The machine with one context, 0, that executes in a slot. -/
def at_ (k : Nat) (c : Ctx) : State := { State.reset with slot := k, ctxs := [(0, c)] }
/-- A context with some scalars. -/
def scalars (l : List (Nat × Word)) : Ctx := { ctx0 with arch := { Arch.reset with sreg := l } }
/-- A context with some vectors. -/
def vectors (l : List (Nat × VWord)) : Ctx := { ctx0 with arch := { Arch.reset with vreg := l } }
/-- The context after an instruction, if it answers a next state. -/
def after (r : Host.Outcome State Fault Refusal) : Option Ctx :=
  match r with
  | .next t => some t.me
  | _ => none
/-- The file, register, latency and value of the last write that an instruction leaves pending. -/
def lands (r : Host.Outcome State Fault Refusal) : Option (RegFile × Nat × Nat × Nat) :=
  (after r).bind fun c => c.arch.pend.getLast?.map fun p => (p.file, p.num, p.tick - c.arch.tick, p.val.toNat)
/-- What a scalar instruction of slot S lands in s3, from s1 and s2. -/
def scalarOf (i : Instr) (x y : Word) : Option (RegFile × Nat × Nat × Nat) := lands (exec i (at_ 1 (scalars [(1, x), (2, y)])))
/-- What a vector instruction of slot V lands, from v1 and v2. -/
def vectorOf (i : Instr) (x y : VWord) : Option (RegFile × Nat × Nat × Nat) := lands (exec i (at_ 4 (vectors [(1, x), (2, y)])))

/-- R289: 2^64 - 1 plus 2 is 1; -8 shifted right by 1 is -4. -/
theorem test_add_wraps : scalarOf (.add 3 1 2) 0xFFFFFFFFFFFFFFFF 2 = some (.scalar, 3, 1, 1) := by decide +kernel
theorem test_sub_borrows : scalarOf (.sub 3 1 2) 1 2 = some (.scalar, 3, 1, 0xFFFFFFFFFFFFFFFF) := by decide +kernel
theorem test_sra_of_negative : scalarOf (.sra 3 1 2) 0xFFFFFFFFFFFFFFF8 65 = some (.scalar, 3, 1, 0xFFFFFFFFFFFFFFFC) := by
  decide +kernel
theorem test_slt_is_signed : scalarOf (.slt 3 1 2) 0xFFFFFFFFFFFFFFFF 0 = some (.scalar, 3, 1, 1) := by decide +kernel
theorem test_sltu_is_unsigned : scalarOf (.sltu 3 1 2) 0xFFFFFFFFFFFFFFFF 0 = some (.scalar, 3, 1, 0) := by decide +kernel
theorem test_max_is_signed : scalarOf (.max 3 1 2) 0xFFFFFFFFFFFFFFFF 0 = some (.scalar, 3, 1, 0) := by decide +kernel
/-- R290: an immediate of 15 bits is sign-extended: 0x7FFF is -1. -/
theorem test_addi_of_minus_one : scalarOf (.addi 3 1 0x7FFF) 5 0 = some (.scalar, 3, 1, 4) := by decide +kernel
theorem test_andi_of_minus_two : scalarOf (.andi 3 1 0x7FFE) 0xF0000000000000FF 0 = some (.scalar, 3, 1, 0xF0000000000000FE) := by
  decide +kernel
/-- R319: LIH keeps bits [19:0] of d and puts the sign-extended immediate above them. -/
theorem test_lih_keeps_low_bits : scalarOf (.lih 1 0xFFFFF) 0x123456789ABCDEF0 0 = some (.scalar, 1, 1, 0xFFFFFFFFFFFCDEF0) := by
  decide +kernel
/-- R325: the high half of -1 × 2 is -1 signed and 1 unsigned. -/
theorem test_mulh_is_signed : scalarOf (.mulh 3 1 2) 0xFFFFFFFFFFFFFFFF 2 = some (.scalar, 3, 3, 0xFFFFFFFFFFFFFFFF) := by
  decide +kernel
theorem test_mulhu_is_unsigned : scalarOf (.mulhu 3 1 2) 0xFFFFFFFFFFFFFFFF 2 = some (.scalar, 3, 3, 1) := by decide +kernel
/-- R303: the corners of division, and a quotient that goes toward zero: -7 / 2 is -3 with remainder -1. -/
theorem test_div_by_zero : scalarOf (.div 3 1 2) 7 0 = some (.scalar, 3, 18, 0xFFFFFFFFFFFFFFFF) := by decide +kernel
theorem test_div_overflow :
    scalarOf (.div 3 1 2) 0x8000000000000000 0xFFFFFFFFFFFFFFFF = some (.scalar, 3, 18, 0x8000000000000000) := by decide +kernel
theorem test_rem_of_negative : scalarOf (.rem 3 1 2) 0xFFFFFFFFFFFFFFF9 2 = some (.scalar, 3, 18, 0xFFFFFFFFFFFFFFFF) := by
  decide +kernel
theorem test_remu_by_zero : scalarOf (.remu 3 1 2) 9 0 = some (.scalar, 3, 18, 9) := by decide +kernel
/-- R293: 8 bits from bit 4 of 0xABCD are 0xBC. -/
theorem test_bext_of_a_byte : scalarOf (.bext 3 1 2) 0xABCD 0x804 = some (.scalar, 3, 2, 0xBC) := by decide +kernel
theorem test_clz_of_zero : scalarOf (.clz 3 1) 0 0 = some (.scalar, 3, 1, 64) := by decide +kernel
/-- R298: CMOV makes no write for a zero condition. -/
theorem test_cmov_of_zero : scalarOf (.cmov 3 1 2) 5 0 = none := by decide +kernel
/-- R41: a result for s0 is no write. -/
theorem test_write_of_s0 : scalarOf (.add 0 1 2) 5 6 = none := by decide +kernel
/-- R64: a scalar instruction in slot M is ILLEGAL, cause 0x01. -/
theorem test_add_in_slot_m :
    (match exec (.add 3 1 2) (at_ 3 ctx0) with
     | .next t => match t.iss.verdict with
       | .raised c => c.code == 1
       | _ => false
     | _ => false) = true := by decide +kernel

/-- R307: 1.0 + 2.0 is 3.0; the smallest subnormal times 0.5 is 0 to even; 0 over the sign: max of -0 and 0. -/
theorem test_fadd : scalarOf (.fadd 3 1 2) 0x3F800000 0x40000000 = some (.scalar, 3, 4, 0x40400000) := by decide +kernel
theorem test_fmul_underflow_to_even : scalarOf (.fmul 3 1 2) 0x00000001 0x3F000000 = some (.scalar, 3, 4, 0) := by decide +kernel
/-- R309: 2.5 goes to 2 to even; a NaN compares unordered. -/
theorem test_fcvti_to_even : scalarOf (.fcvti 3 1) 0x40200000 0 = some (.scalar, 3, 3, 2) := by decide +kernel
theorem test_feq_of_nan : scalarOf (.feq 3 1 2) 0x7FC00000 0x7FC00000 = some (.scalar, 3, 4, 0) := by decide +kernel

/-- A context whose near store holds 0x81, 0x82, ... from address 0x40. -/
def stored8 : State := { (at_ 3 (scalars [(1, 0x41), (2, 0x7FFFE)])) with
  mem := (List.range 8).map fun i => (nearKey 0 (0x40 + i), BitVec.ofNat 8 (0x81 + i)) }
/-- R66, R317: a halfword at 0x41 is read at 0x40, sign-extended; a doubleword at offset 1 from 0x41 is read at 0x48. -/
theorem test_ldh_aligns_and_extends : lands (exec (.ldh 3 1 0) stored8) = some (.scalar, 3, 3, 0xFFFFFFFFFFFF8281) := by
  decide +kernel
theorem test_ldd_scales_its_offset : lands (exec (.ldd 3 1 0xFFF) stored8) = some (.scalar, 3, 3, 0) := by decide +kernel
theorem test_ldd_reads_eight_bytes : lands (exec (.ldd 3 1 0) stored8) = some (.scalar, 3, 3, 0x8887868584838281) := by
  decide +kernel
/-- R137, R239: a store goes to the gated buffer, not to memory, and to the address aligned down. -/
theorem test_stw_is_gated :
    (match exec (.stw 1 2 0) stored8 with
     | .next t => (t.mem == stored8.mem) && (t.me.gated.map Gated.item
        == [.store [(0x7FFFC, 0x41), (0x7FFFD, 0), (0x7FFFE, 0), (0x7FFFF, 0)]])
     | _ => false) = true := by decide +kernel
/-- R140: SPILL stores at STKTOP and raises it by 8. -/
theorem test_spill_raises_stktop :
    ((after (exec (.spill 1) (at_ 3 { (scalars [(1, 5)]) with stklim := 0x1000 }))).map fun c => (c.arch.stktop, c.gated.length)) = some (8, 1) := by decide +kernel

/-- R341: bytes wrap apart from each other: 0xFF + 1 is 0 and the next byte stays 0. -/
theorem test_vadd_bytes_wrap : vectorOf (.vadd 3 1 2 0 .w8) 0xFF 0x01 = some (.vector, 3, 2, 0) := by decide +kernel
theorem test_vadd_words_carry : vectorOf (.vadd 3 1 2 0 .w32) 0xFF 0x01 = some (.vector, 3, 2, 0x100) := by decide +kernel
/-- R341: 127 + 1 saturates at 127. -/
theorem test_vadds_saturates : vectorOf (.vadds 3 1 2 0 .w8) 0x7F 0x01 = some (.vector, 3, 2, 0x7F) := by decide +kernel
/-- R346: a signed compare of bytes: -1 < 1 in element 0 only. -/
theorem test_vclt_is_signed : vectorOf (.vclt 3 1 2 0 .w8) 0xFF 0x01 = some (.predicate, 3, 2, 1) := by decide +kernel
/-- R369: a sum of words modulo 2^32 in element 0. -/
theorem test_vrsum : vectorOf (.vrsum 3 1 0 .w32) 0x00000003_FFFFFFFF 0 = some (.vector, 3, 6, 2) := by decide +kernel
/-- R371: a rotation takes element (i + b) mod n: of 64 words, with b = 63, element 1 is element 0. -/
theorem test_vrot : lands (exec (.vrot 3 1 2 0 .w32)
    (at_ 4 { ctx0 with arch := { Arch.reset with vreg := [(1, 0xAB)], sreg := [(2, 63)] } })) = some (.vector, 3, 3, 0xAB00000000) := by
  decide +kernel
/-- R353: 1.0 + 2.0 in element 0 of FP32 vectors. -/
theorem test_vfadd : vectorOf (.vfadd 3 1 2 0 .w32 false false) 0x3F800000 0x40000000 = some (.vector, 3, 4, 0x40400000) := by
  decide +kernel
/-- R329: p0 reads as all ones: 256 active bytes. -/
theorem test_pcnt_of_p0 : lands (exec (.pcnt 3 0 .w8) (at_ 4 ctx0)) = some (.scalar, 3, 1, 256) := by decide +kernel
/-- R376: XEXP of INT4 nibbles -1 and 1: E4M3 codes 0xB8 and 0x38. -/
theorem test_xexp_int4 :
    lands (exec (.xexp 3 1 .int4 0) (at_ 6 (vectors [(1, 0x1F)]))) = some (.vector, 3, 5, 0x38B8) := by decide +kernel

/-- R45: a branch goes to the parcel of its bundle plus the offset. -/
theorem test_bne_goes_back :
    (match exec (.bne 1 0 0x7FFF) { (at_ 0 (scalars [(1, 1)])) with iss := { Issue.reset with parcel := 5 } } with
     | .next t => t.iss.target == some 4
     | _ => false) = true := by decide +kernel
/-- R53: a number that is not assigned is ILLEGAL. -/
theorem test_crd_of_tick : lands (exec (.crd 3 0x010) (at_ 0 { ctx0 with arch := { Arch.reset with tick := 9 } }))
    = some (.scalar, 3, 2, 9) := by decide +kernel
/-- R57: MGEO keeps 24 bits. -/
theorem test_ewr_of_mgeo :
    ((after (exec (.ewr 0x010 1) (at_ 7 (scalars [(1, 0x1FFFFFF)])))).map fun c => c.arch.mgeo) = some 0xFFFFFF := by
  decide +kernel
/-- R106: MZERO closes no other bank's chain and is held as one command. -/
theorem test_mzero_is_held :
    ((after (exec (.mzero false) (at_ 7 ctx0))).map fun c => c.gated.map fun e => e.item.isCommand) = some [true] := by
  decide +kernel
/-- R250, R248: a TRAP taken at a boundary with TSTK at 0x100 and TVEC at 7 enters the handler. -/
theorem test_trap_entry :
    (let c : Ctx := { ctx0 with arch := { Arch.reset with tstk := 0x100, tvec := 7, pc := 3, sreg := [(30, 0x1234)] } }
     let t := (at_ 0 c).take 0 ⟨0x11, 5, 3, 0, false, 0, 0, false, 0⟩
     t.me.intrap && t.me.arch.pc == 7 && t.me.trappc == 3 && t.me.trapCause == 0x500000011 && t.me.arch.s 31 == 0x100
       && t.mem == [(nearKey 0 0x100, 0x34), (nearKey 0 0x101, 0x12)]) = true := by decide +kernel
/-- R249: with TSTK misaligned the context is HALTED, DFCAUSE 1 with TSTK as the detail. -/
theorem test_double_fault :
    (let c : Ctx := { ctx0 with arch := { Arch.reset with tstk := 0x104 } }
     let t := (at_ 0 c).take 0 ⟨0x11, 5, 3, 0, false, 0, 0, false, 0⟩
     t.me.state == .halted && t.me.dfcause == 0x10400000001) = true := by decide +kernel
/-- R256: HALT freezes a running context. -/
theorem test_halt_freezes :
    (match exec (.dbgctlHalt 0) (at_ 0 ctx0) with
     | .next t => t.me.state == .frozen
     | _ => false) = true := by decide +kernel

/-- The first word of a program runs as the first instruction: ADDI s5, s5, 1 leaves 1 for s5. -/
theorem test_first_word_runs :
    (match step (State.reset.withFetchWord 32 0x04528001) with
     | .next t => (t.ctx 0).arch.pend.map (fun p => (p.file, p.num, p.val.toNat)) == [(.scalar, 5, 1)]
     | _ => false) = true := by decide +kernel
/-- PRINT of the empty bundle, as the first parcel, goes on to the next parcel in one tick. -/
theorem test_first_parcel_runs :
    (match step (State.reset.withFetchWord 16 0x0000) with
     | .next t => (t.ctx 0).arch.pc == 1 && (t.ctx 0).arch.tick == 1
     | _ => false) = true := by decide +kernel

/-! Witnesses: states and operands that meet the hypotheses of the statements, clause by clause. -/

/-- ScalarAluResults, ScalarMultiplyDivideAndBitResults, ScalarFloatResults, LandingRules: slots S and T. -/
theorem witness_scalar_slots : inSlotST (at_ 1 ctx0) ∧ inSlotST (at_ 2 ctx0) := by unfold inSlotST; decide
/-- ScalarMultiplyDivideAndBitResults: CMOV with and without a condition; a number that is not zero, and its top bit. -/
theorem witness_cmov :
    (inSlotST (at_ 1 (scalars [(2, 1)])) ∧ (at_ 1 (scalars [(2, 1)])).rs 2 ≠ 0) ∧ (inSlotST (at_ 1 ctx0) ∧ (at_ 1 ctx0).rs 2 = 0)
    ∧ (63 < 64 ∧ (1 : Word) ≠ 0) := by unfold inSlotST; decide +kernel
/-- LoadResults: slot M; an address past the window, at its edge. -/
theorem witness_loads : (at_ 3 ctx0).slot = 3
    ∧ ¬(((at_ 3 ctx0).ctx 0).splo.toNat ≤ 0x80000 ∧ 0x80000 ≤ ((at_ 3 ctx0).ctx 0).sphi.toNat) := by decide +kernel
/-- A context in a handler. -/
def inHandler : Ctx := { ctx0 with intrap := true }
/-- 127 stores in the gated buffer. -/
def almostFull : Ctx := { ctx0 with gated := List.replicate 127 ⟨0, 0, .store []⟩ }
/-- StoreResults: the last free entry of the gated buffer, and a handler. -/
theorem witness_stores :
    ((at_ 3 almostFull).slot = 3 ∧ storeRoom (at_ 3 almostFull)) ∧ (at_ 3 inHandler).slot = 3 ∧ storeRoom (at_ 3 inHandler) := by
  unfold storeRoom storeEntries; decide +kernel
/-- StoreResults: bytes at the edges of the window that a later load sees. -/
theorem witness_forwarding :
    let cells : List (Nat × Byte) := [(0, 1), (0x7FFFF, 2)]
    (at_ 3 ctx0).me.intrap = false ∧ (cells.map Prod.fst).Nodup ∧ (0x7FFFF, (2 : Byte)) ∈ cells
    ∧ (at_ 3 ctx0).me.splo.toNat ≤ 0x7FFFF ∧ 0x7FFFF ≤ (at_ 3 ctx0).me.sphi.toNat ∧ ∀ b, (5, b) ∉ cells := by
  refine ⟨?_, ?_, ?_, ?_, ?_, ?_⟩
  · decide +kernel
  · decide
  · decide
  · decide +kernel
  · decide +kernel
  · simp
/-- A context whose bracketing proof has sealed, with the last aligned word of its window in s1. -/
def bracketed : Ctx := { scalars [(1, 0x7FFF8), (2, 0x7FFFC), (3, 0x7FFFD)] with bracket := some .atomic }
/-- NearAtomicResults: a handler and a sealed proof, 8 and 4 bytes at the top of the window. -/
theorem witness_near_atomics :
    let s := at_ 3 bracketed
    s.slot = 3 ∧ bracketOpen s ∧ bracketOpen (at_ 3 inHandler)
    ∧ ((s.rs 1).toNat % 2 ^ 32 % 8 = 0 ∧ inside s (addrsFrom ((s.rs 1).toNat % 2 ^ 32) 8)
      ∧ meets s (addrsFrom ((s.rs 1).toNat % 2 ^ 32) 8) = none)
    ∧ ((s.rs 2).toNat % 2 ^ 32 % 4 = 0 ∧ inside s (addrsFrom ((s.rs 2).toNat % 2 ^ 32) 4)
      ∧ meets s (addrsFrom ((s.rs 2).toNat % 2 ^ 32) 4) = none) := by
  unfold bracketOpen inside meets; decide +kernel
/-- NearAtomicResults: the proof of a PROOF in the same bundle does not keep a near atomic waiting; an older one does. -/
theorem witness_near_atomic_beside_proof :
    let c := { bracketed with unsealed := [⟨Arch.reset, 1, 0, .proof⟩] }
    bracketOpen { at_ 3 c with iss := { Issue.reset with opened := true } } ∧ ¬bracketOpen (at_ 3 c) := by
  unfold bracketOpen; decide +kernel
/-- NearAtomicResults: a misaligned address, and an aligned one without a sealed proof. -/
theorem witness_near_atomics_wait :
    (at_ 3 bracketed).slot = 3 ∧ ((at_ 3 bracketed).rs 3).toNat % 2 ^ 32 % 4 ≠ 0
    ∧ ((at_ 3 ctx0).rs 1).toNat % 2 ^ 32 % 8 = 0 ∧ ¬bracketOpen (at_ 3 ctx0) := by
  unfold bracketOpen; decide +kernel
/-- A stack of 256 bytes, with STKTOP at an offset from its base. -/
def stack (top : BitVec 32) : Ctx := { ctx0 with stklim := 256, arch := { Arch.reset with stktop := top } }
/-- StackResults: a stack with just the room, and just the bytes. -/
theorem witness_stack :
    ((at_ 3 (stack 248)).slot = 3 ∧ storeRoom (at_ 3 (stack 248)) ∧ (at_ 3 (stack 248)).iss.verdict = .ok
      ∧ (stack 248).arch.stktop.toNat + 8 ≤ (stack 248).stklim.toNat)
    ∧ (plain (at_ 3 (stack 0)) 31 ∧ (stack 0).arch.stktop.toNat + 256 ≤ (stack 0).stklim.toNat)
    ∧ ((stack 8).arch.stkbase.toNat + 8 ≤ (stack 8).arch.stktop.toNat)
    ∧ ((stack 256).arch.stkbase.toNat + 256 ≤ (stack 256).arch.stktop.toNat) := by
  unfold storeRoom storeEntries plain; decide +kernel
/-- VectorMemoryResults: slot M, registers that are no streams, room for a store. -/
theorem witness_vector_memory :
    (at_ 3 ctx0).slot = 3 ∧ plain (at_ 3 ctx0) 24 ∧ plain (at_ 3 ctx0) 31 ∧ storeRoom (at_ 3 almostFull) := by
  unfold plain storeRoom storeEntries; decide +kernel
/-- VectorIntegerResults, VectorCompareAndScalarResults, VectorMoveResults, VectorFloatResults,
VectorReductionAndPredicateResults: slots V and W; the special functions and VBNET stand in W, the transforms in X. -/
theorem witness_vector_slots :
    inSlotVW (at_ 4 ctx0) ∧ inSlotVW (at_ 5 ctx0) ∧ (at_ 5 ctx0).slot = 5 ∧ (at_ 6 ctx0).slot = 6 ∧ plain (at_ 4 ctx0) 24
    ∧ plain (at_ 5 ctx0) 31 ∧ fld (at_ 4 ctx0).me.arch.fmt 20 18 < 6
    ∧ 6 ≤ fld (at_ 4 { ctx0 with arch := { Arch.reset with fmt := 0x18C000 } }).me.arch.fmt 20 18
    ∧ ∀ e ∈ ((at_ 5 ctx0).core (coreOf (at_ 5 ctx0).cur)).bnWrites, e.2.1 ≠ (7 : BitVec 3).toNat := by
  unfold inSlotVW plain; decide +kernel
/-- VectorIntegerResults: an element of VADDS just above the range, and one just below it, at its top. -/
theorem witness_vadds :
    let s := at_ 4 (vectors [(1, 0x7F), (2, 1), (3, 0x7E)])
    (127 < sgn .w8 (el s .w8 1 0) + sgn .w8 (el s .w8 2 0)) ∧ sgn .w8 (el s .w8 3 0) + sgn .w8 (el s .w8 2 0) = 127
    ∧ (s.rp 0).getLsbD 0 = true := by unfold sgn el; decide +kernel
/-- A context with a read stream and a write stream bound to v24 and v25; `have` units wait in the first. -/
def streamer (have_ : List StreamUnit) (write : Bool) : Ctx := { ctx0 with
  units := [(0, have_)]
  arch := { Arch.reset with streams := [(0, ⟨0, write, 0, 0, 0⟩)] } }
/-- VectorStreamOperands: a write stream, an empty read stream, one with a unit out of range, and one whose unit is bad. -/
theorem witness_streams :
    let bad : StreamUnit := ⟨0, some (unitCause 0x04 0 64), 0, none⟩
    (inSlotVW (at_ 4 (streamer [] true)) ∧ plain (at_ 4 (streamer [] true)) 1
      ∧ (at_ 4 (streamer [] true)).me.arch.bound 24 = some ⟨0, true, 0, 0, 0⟩)
    ∧ ((at_ 4 (streamer [] false)).me.arch.bound 24 = some ⟨0, false, 0, 0, 0⟩
      ∧ AMap.get [] (at_ 4 (streamer [] false)).me.units 0 = [])
    ∧ AMap.get [] (at_ 4 (streamer [⟨7, none, 0, some 0x80000⟩] false)).me.units 0 = [⟨7, none, 0, some 0x80000⟩]
    ∧ AMap.get [] (at_ 4 (streamer [bad] false)).me.units 0 = [bad] := by
  unfold inSlotVW plain; decide +kernel
/-- VectorStreamOperands: a push past the end of a write stream, and pushes of its last unit in a handler and outside one. -/
theorem witness_pushes :
    let d : BitVec 512 := 0x000100010001_00000100_0007FF00
    let st : Stream := ⟨d, true, 0, 0, 0⟩
    let c : Ctx := { almostFull with arch := { Arch.reset with streams := [(0, st)] } }
    let s := at_ 4 c
    let t := at_ 4 { c with intrap := true }
    (inSlotVW s ∧ plain s 1 ∧ plain s 2 ∧ s.me.arch.bound 24 = some st ∧ s.iss.verdict = .ok ∧ streamTotal d = 256 * 1)
    ∧ (256 * st.pos < streamTotal d ∧ storeRoom s ∧ s.me.intrap = false) ∧ storeRoom t ∧ t.me.intrap = true := by
  unfold inSlotVW plain storeRoom storeEntries; decide +kernel
/-- VectorStreamOperands: instructions of every family that read a stream with a unit, one that leaves the ranges and one that is
bad among them, and that name a write stream as their destination, with the vector write they would leave in a register. -/
def streamed (k : Nat) (write : Bool) (us : List StreamUnit) : State := at_ k { ctx0 with
  units := [(0, us)]
  arch := { Arch.reset with streams := [(0, ⟨0x000100010001_00000100_0007FF00, write, 0, 0, 0⟩)] } }
def issuesOk (r : Host.Outcome State Fault Refusal) : Bool :=
  match r with
  | .next t => t.iss.verdict == .ok
  | _ => false
theorem witness_stream_sources :
    let good : StreamUnit := ⟨7, none, 0, none⟩
    (∀ x ∈ [(4, Instr.vsub 1 24 2 1 .w8), (5, .vceq 1 2 24 1 .w16), (4, .vmov 1 24 1 .w8), (5, .vfms 1 24 24 1 .w32 false false),
        (4, .vrsum 1 24 1 .w8), (5, .vrcp 1 24 1 .w16 false false), (6, .xtrn 1 24 .s8), (3, .vst 24 0 1 0), (3, .vscat 24 0 24 .w32)],
      let s := streamed x.1 false [good]
      s.me.arch.bound (24 + 0) = some ⟨0x000100010001_00000100_0007FF00, false, 0, 0, 0⟩
      ∧ (∃ r ∈ vecSources x.2, r.toNat = 24 + 0) ∧ (∀ r ∈ vecSources x.2, r.toNat = 24 + 0 ∨ s.me.arch.bound r.toNat = none)
      ∧ ((vecDest x.2).all fun d => (s.me.arch.bound d.toNat).isNone) = true ∧ s.iss.verdict = .ok
      ∧ issuesOk (exec x.2 (registered s 0 7)) = true)
    ∧ AMap.get [] (streamed 4 false [good]).me.units 0 = [good] ∧ (streamed 4 false [good]).iss.pops.contains 0 = false := by
  decide +kernel
theorem witness_stream_destinations :
    ∀ x ∈ [(4, Instr.vsub 24 1 2 1 .w8), (4, .vins 24 1 2 .w8), (5, .vfadd 24 1 2 1 .w32 false false), (6, .xtrn 24 1 .s8),
        (3, .vld 24 0 1 0), (3, .vgath 24 0 1 .w32)],
      let s := streamed x.1 true []
      vecDest x.2 = some 24 ∧ (24 : BitVec 5).toNat = 24 + 0 ∧ 24 ∉ vecSources x.2
      ∧ (∀ r ∈ vecSources x.2, s.me.arch.bound r.toNat = none) ∧ s.iss.verdict = .ok
      ∧ issuesOk (exec x.2 (registered s 0 (s.me.arch.v 24))) = true
      ∧ (after (exec x.2 (registered s 0 (s.me.arch.v 24)))).map (fun c => c.arch.pend.map fun p => (p.file, p.num, p.poison))
        = some [(.vector, 24, none)]
      ∧ (s.me.outOfRange (streamUnit 0x000100010001_00000100_0007FF00 0)) = none ∧ s.me.intrap = false := by decide +kernel
/-- EngineRegisterResults: ERD of a status register and of one that is none, into a register that is not s0. -/
theorem witness_status_read :
    (at_ 7 ctx0).slot = 7 ∧ engineAssigned 0x012 = true ∧ engineAssigned 0x021 = true ∧ engineAssigned 0x047 = true
    ∧ (3 : BitVec 5) ≠ 0 ∧ engineAssigned 0x010 = true := by decide +kernel
/-- LandingRules: a due write of s31, one of s0, one of p0, and one of a vector with the last byte. -/
theorem witness_landing :
    let p : Pending := ⟨.scalar, 31, 5, 1, fullScalar, 9, 0, 0, none, 4, none, none⟩
    let c : Ctx := { ctx0 with arch := { Arch.reset with tick := 5, pend := [p] } }
    (c.arch.pend = [p] ∧ p.file = .scalar ∧ p.mask = fullScalar ∧ p.tick ≤ c.arch.tick)
    ∧ (({ p with num := 0 } : Pending).num = 0 ∧ (p.file = .scalar ∨ p.file = .predicate))
    ∧ (({ p with file := .vector } : Pending).file = .vector ∧ 2047 < 2048) ∧ 255 < 256 := by decide +kernel
/-- LandingRules: of four writes of s31 that land by tick 5, one lands earlier, and of the others the later issued, and of its
bundle the higher slot, decides; bit 255 of a predicate that two writes of one tick change. -/
theorem witness_landing_order :
    let w := fun (file : RegFile) (num tick slot issued : Nat) (mask : PWord) (v : VWord) =>
      (⟨file, num, tick, slot, mask, v, 0, 0, none, issued, none, none⟩ : Pending)
    let p := w .scalar 31 5 2 4 fullScalar 9
    let q := w .predicate 7 5 5 4 (BitVec.allOnes 256) 8
    let c : Ctx := { ctx0 with arch := { Arch.reset with tick := 5, pend := [w .scalar 31 5 2 2 fullScalar 6,
      w .scalar 31 4 1 3 fullScalar 7, w .scalar 31 5 1 4 fullScalar 8, p, w .predicate 7 5 4 4 (BitVec.allOnes 256) 9, q] } }
    let sorted := fun (x y : Pending) => x.issued < y.issued ∨ (x.issued = y.issued ∧ x.slot ≤ y.slot)
    let before := fun (x y : Pending) => x.tick < y.tick
      ∨ (x.tick = y.tick ∧ (x.issued < y.issued ∨ (x.issued = y.issued ∧ x.slot < y.slot)))
    c.arch.pend.Pairwise sorted ∧ p ∈ c.arch.pend ∧ q ∈ c.arch.pend ∧ p.tick ≤ c.arch.tick
    ∧ (∀ x ∈ c.arch.pend, x ≠ p → x.file = p.file → x.num = p.num → before x p)
    ∧ (∀ x ∈ c.arch.pend, x ≠ q → x.file = q.file → x.num = q.num → before x q)
    ∧ p.num ≠ 0 ∧ p.mask.getLsbD 63 = true ∧ q.mask.getLsbD 255 = true := by decide +kernel
/-- A context inside one loop of parcels 0 to 100. -/
def inLoop : Ctx := { scalars [(1, 3)] with arch := { Arch.reset with loops := [⟨0, 100, 2⟩], sreg := [(1, 3)] } }
/-- LoopAndSetfmtResults: a legal loop that just fits the loop around it, a count of zero, and a loop past the outer one's
end; a legal and an illegal FMT. -/
theorem witness_loop_and_setfmt :
    let s := at_ 0 inLoop
    let start := s.iss.parcel + BitVec.ofNat 32 s.iss.size
    s.slot = 0 ∧ s.iss.reps ≤ 1 ∧ s.me.arch.loops.length < 2 ∧ start.toNat = 17
    ∧ (start + 83).toNat = 100 ∧ ¬((start + 84).toNat ≤ 100) ∧ (BitVec.ofNat 32 (s.rs 1).toNat : BitVec 32) ≠ 0
    ∧ (BitVec.ofNat 32 (s.rs 2).toNat : BitVec 32) = 0
    ∧ (((0x1FF7FF : BitVec 32).toNat < 2 ^ 21) ∧ (0x1FF7FF : BitVec 32).toNat / 2 ^ 10 % 8 < 6)
    ∧ ¬((0x001800 : BitVec 32).toNat / 2 ^ 10 % 8 < 6) := by decide +kernel
/-- An unsealed proof. -/
def proof0 : Capture := ⟨Arch.reset, 1, 0, .proof⟩
/-- ProofVigilAndWaitaResults: PROOF with room, and without it, and in a handler. -/
theorem witness_proof :
    ((at_ 0 ctx0).slot = 0 ∧ (at_ 0 ctx0).me.intrap = false ∧ (at_ 0 ctx0).iss.reps ≤ 1
      ∧ (at_ 0 { ctx0 with unsealed := [proof0] }).me.unsealed.length < 2)
    ∧ 2 ≤ (at_ 0 { ctx0 with unsealed := [proof0, proof0] }).me.unsealed.length ∧ (at_ 0 inHandler).me.intrap = true := by
  decide +kernel
/-- ProofVigilAndWaitaResults: a vigil of context 0: not arrived, arrived, complete, with a proof under way; a mask without
the context. -/
theorem witness_vigil :
    let c := scalars [(1, 1), (2, 2)]
    let m := fun (r : BitVec 5) => (BitVec.ofNat 8 ((at_ 0 c).rs r).toNat : BitVec 8)
    (at_ 0 c).slot = 0 ∧ (at_ 0 c).me.intrap = false ∧ (m 1).getLsbD ((at_ 0 c).cur % 8) = true
    ∧ (m 2).getLsbD ((at_ 0 c).cur % 8) = false ∧ (at_ 0 c).me.arrival = none ∧ (at_ 0 c).me.unsealed = []
    ∧ (at_ 0 { c with unsealed := [proof0] }).me.unsealed ≠ []
    ∧ (at_ 0 { c with arrival := some ⟨5, 1, 0, true⟩ }).me.arrival = some ⟨5, 1, 0, true⟩
    ∧ (at_ 0 { c with arrival := some ⟨5, 1, 0, false⟩ }).me.arrival = some ⟨5, 1, 0, false⟩
    ∧ (∀ a, (at_ 0 { c with arrival := some ⟨5, 1, 0, true⟩ }).me.arrival = some a → a.vid ≠ (6 : BitVec 10) ∨ a.mask ≠ 1) := by
  refine ⟨rfl, rfl, by decide +kernel, by decide +kernel, rfl, rfl, by decide, rfl, rfl, ?_⟩
  intro a h
  cases h
  exact .inl (by decide)
/-- ProofVigilAndWaitaResults: the last doubleword of the window for WAITA, with the condition met and not, and an address
that is misaligned. -/
theorem witness_waita :
    let s := at_ 0 bracketed
    let a := (s.rs 1).toNat % 2 ^ 32
    s.slot = 0 ∧ a % 8 = 0 ∧ s.me.splo.toNat ≤ a ∧ a + 8 - 1 ≤ s.me.sphi.toNat ∧ nearValue s a 8 = (s.rs 9).toNat % 2 ^ 64
    ∧ ¬(nearValue s a 8 ≠ (s.rs 9).toNat % 2 ^ 64) ∧ (s.rs 3).toNat % 2 ^ 32 % 8 ≠ 0 := by unfold nearValue; decide +kernel
/-- FenceAndTrigResults: room for a command, both paths that hold the next bundle and one that does not; TRIG outside a
handler, in one, and in a spawned context. -/
theorem witness_fence_and_trig :
    ((at_ 0 ctx0).slot = 0 ∧ commandRoom (at_ 0 ctx0) ∧ (16 : BitVec 5).getLsbD 4 = true ∧ (1 : BitVec 5).getLsbD 0 = true
      ∧ (14 : BitVec 5) ≠ 0 ∧ (14 : BitVec 5).getLsbD 0 = false)
    ∧ ((at_ 0 ctx0).me.intrap = false ∧ (at_ 0 ctx0).me.spawn = 0) ∧ (at_ 0 inHandler).me.intrap = true
    ∧ (at_ 0 { ctx0 with spawn := 1 }).me.spawn ≠ 0 := by
  unfold commandRoom commandEntries; decide +kernel
/-- A kernel with nothing done. -/
def kernel0 : Kernel where
  queue := 0
  seq := 1
  part := 0
  args := []
  desc := 0
  phase := 0
  committed := []
  triggered := []
  ended := none
  order := 0
  prio := 0
  snap := []
  snapPoison := []
  moves := []
  logs := []
  ordinals := []
  recCount := 0
  recStop := false
  used := []
  waitSince := none
  regions := []
/-- A machine at work on kernel 0. -/
def working (k : Nat) (c : Ctx) : State := { at_ k c with ce := { Engine.reset with kernels := [(0, kernel0)] } }
/-- SpawnAndSegmentEndResults: SPAWN with 8 arguments from s24 on a free context, a target that is not free; SUSP and DONE
ready and not ready, and SUSP's last register group. -/
theorem witness_spawn_and_ends :
    let s := working 0 ctx0
    (s.slot = 0 ∧ s.me.intrap = false ∧ (8 : BitVec 4).toNat ≤ 8 ∧ (24 : BitVec 5).toNat + 8 - 1 ≤ 31
      ∧ s.me.kernel = some 0 ∧ s.kernel 0 = some kernel0)
    ∧ (spawnTarget s 7 ≠ s.cur ∧ (s.ctx (spawnTarget s 7)).state = .idle) ∧ spawnTarget s 0 = s.cur
    ∧ (s.hasChildren s.cur s.me.gen = false ∧ s.me.unsealed.length < 2) ∧ s.me.spawn = 0 ∧ (26 : BitVec 5).toNat ≤ 26
    ∧ ¬((at_ 0 { ctx0 with unsealed := [proof0, proof0] }).me.unsealed.length < 2) := by
  unfold spawnTarget; decide +kernel
/-- ControlRegisterResults, EngineRegisterResults: assigned numbers at the ends of their ranges, and numbers that are not. -/
theorem witness_register_numbers :
    (at_ 0 ctx0).slot = 0 ∧ (at_ 7 ctx0).slot = 7 ∧ controlAssigned 0x022 = true ∧ controlAssigned 0x023 = false
    ∧ engineAssigned 0x047 = true ∧ engineAssigned 0x048 = false ∧ (7 : BitVec 10).toNat < 8 ∧ commandRoom (at_ 7 ctx0) := by
  unfold commandRoom commandEntries; decide +kernel
/-- CoreStoreResults: plates to the last one, none, and past it; a stencil at the top of near store, and a misaligned one. -/
theorem witness_core_store :
    let s := at_ 0 (scalars [(1, 0x7FFC0), (2, 510), (3, 511), (4, 0x7F200), (5, 0x7F240)])
    s.slot = 0
    ∧ ((2 : BitVec 9) ≠ 0 ∧ (s.rs 1).toNat % 2 ^ 32 % 32 = 0 ∧ (s.rs 2).toNat % 2 ^ 32 + 2 ≤ 512
      ∧ inside s (addrsFrom ((s.rs 1).toNat % 2 ^ 32) 64))
    ∧ 512 < (s.rs 3).toNat % 2 ^ 32 + 2
    ∧ ((s.rs 4).toNat % 2 ^ 32 % 64 = 0 ∧ (s.rs 4).toNat % 2 ^ 32 + 3584 ≤ 0x80000
      ∧ inside s (addrsFrom ((s.rs 4).toNat % 2 ^ 32) 3584))
    ∧ 0x80000 < (s.rs 5).toNat % 2 ^ 32 + 3584 := by
  refine ⟨rfl, ⟨by decide, by decide +kernel, by decide +kernel, ?_⟩, by decide +kernel,
    ⟨by decide +kernel, by decide +kernel, ?_⟩, by decide +kernel⟩
  · unfold inside; decide +kernel
  · intro a ha
    simp only [addrsFrom, List.mem_map, List.mem_range] at ha
    obtain ⟨i, hi, rfl⟩ := ha
    have h1 : ((at_ 0 (scalars [(1, 0x7FFC0), (2, 510), (3, 511), (4, 0x7F200), (5, 0x7F240)])).rs 4).toNat = 0x7F200 := by
      decide +kernel
    have h2 : (at_ 0 (scalars [(1, 0x7FFC0), (2, 510), (3, 511), (4, 0x7F200), (5, 0x7F240)])).me.splo.toNat = 0 := by
      decide +kernel
    have h3 : (at_ 0 (scalars [(1, 0x7FFC0), (2, 510), (3, 511), (4, 0x7F200), (5, 0x7F240)])).me.sphi.toNat = 0x7FFFF := by
      decide +kernel
    rw [h1, h2, h3]; omega
/-- TransferAndTrapResults: slot C, in a handler and outside one. -/
theorem witness_transfers : (at_ 0 ctx0).slot = 0 ∧ (at_ 0 ctx0).me.intrap = false ∧ (at_ 0 inHandler).me.intrap = true := by
  decide +kernel
/-- Near-store bytes of core 0: n bytes of a number at an address. -/
def placed (s : State) (a n v : Nat) : State := s.writeCells ((leBytes n v).zipIdx.map fun p => (nearKey 0 (a + p.2), p.1))
/-- MatrixAndFactorCommandResults: rings 1 and 2 of core 0 with one slot of 16 KiB each at the bottom of near store, and a
kernel that both members of a gang run. -/
def arrays : State := { working 7 (scalars [(1, 1), (2, 65535)]) with
  cores := [(0, { Core.reset with erng := [(1, 0x0001004000000000), (2, 0x0001004000000000)] })] }
/-- MatrixAndFactorCommandResults: a product of one step and one of 65535, on rings 1 and 2, and of the weight buffer. -/
theorem witness_products :
    let j := arrays.matJob 0 true (arrays.rs 1).toNat 1 2
    arrays.slot = 7 ∧ commandRoom arrays ∧ productLegal arrays j ∧ productLegal arrays { j with count := 65535 }
    ∧ (1 : BitVec 3) ≠ 7 ∧ (1 : BitVec 3) ≠ 2 ∧ oddMx j.mgeo j.fmt = false
    ∧ ringOk j.lo.toNat j.hi.toNat j.aDesc (tileA j.mgeo j.fmt) = true
    ∧ ringOk j.lo.toNat j.hi.toNat j.bDesc (tileB j.mgeo j.fmt) = true ∧ wbOk 0x4000 (tileB j.mgeo j.fmt) = true
    ∧ kindOf arrays 0 = false
    ∧ chainTakes arrays j := by
  unfold commandRoom commandEntries productLegal chainTakes; decide +kernel
/-- MatrixAndFactorCommandResults: a bank that may be named and one that may not: the sibling is at work. -/
theorem witness_banks :
    arrays.bankOk 0 0 = true
    ∧ ({ arrays with ctxs := [(0, ctx0), (1, ctx0)] } : State).bankOk 0 1 = false
    ∧ (low32 arrays 0).toNat % 64 = 0 ∧ pairOk (arrays.rs 0) = true ∧ kindOf arrays 0 = false := by
  unfold low32; decide +kernel
/-- MatrixAndFactorCommandResults: a gang of one member, whose MGCFG names the rings 1 and 2; one that would continue the chain
of the other kind that core 1 has open. -/
theorem witness_gang :
    let s : State := { arrays with ctxs := [(0, { ctx0 with arch := { Arch.reset with
      mlim := 0xFFFFFFFF, mgcfg := 0x11, sreg := [(2, 65535)] } })] }
    let j := s.matJob 0 true (s.rs 2).toNat 0 0
    (s.memberJob (coreOf s.cur) j).overSlot = false
    ∧ productLegal s j ∧ s.cur % 2 = (false : Bool).toNat ∧ (1 : BitVec 4).getLsbD (coreOf s.cur % 4) = true
    ∧ (s.rs 0).toNat % 2 ^ 32 < 0x80000 ∧ s.slot = 7 ∧ commandRoom s
    ∧ (∀ i, i < 4 → (1 : BitVec 4).getLsbD i = true → (s.ctx (clusterOf s.cur * 8 + 2 * i)).state = .running
      ∧ (s.ctx (clusterOf s.cur * 8 + 2 * i)).kernel = s.me.kernel)
    ∧ chainTakes s j := by
  unfold productLegal chainTakes commandRoom commandEntries; decide +kernel
theorem witness_gang_clash :
    let s : State := { arrays with
      ctxs := [(0, { ctx0 with arch := { Arch.reset with mlim := 0xFFFFFFFF, mgcfg := 0x11, sreg := [(2, 65535)] } }),
        (2, { ctx0 with arch := { Arch.reset with chains := [(0, ⟨true, 0⟩)] } })]
      cores := arrays.cores ++ [(1, { Core.reset with kinds := [(0, [⟨some (2, 0, 0), true⟩])] })] }
    let j := s.matJob 0 false (s.rs 2).toNat 0 0
    ((s.memberJob (coreOf s.cur) j).overSlot = false ∧ productLegal s j ∧ commandRoom s ∧ chainTakes s j
      ∧ (3 : BitVec 4).getLsbD (coreOf s.cur % 4) = true
      ∧ ∀ i, i < 4 → (3 : BitVec 4).getLsbD i = true → (s.ctx (clusterOf s.cur * 8 + 2 * i)).state = .running
        ∧ (s.ctx (clusterOf s.cur * 8 + 2 * i)).kernel = s.me.kernel)
    ∧ (1 < 4 ∧ (3 : BitVec 4).getLsbD 1 = true ∧ (AMap.find (s.ctx 2).arch.chains 0).map Chain.isOpen = some true
      ∧ kindAt s 1 0 ≠ decide (fld j.fmt 3 0 = 5)) := by
  unfold productLegal chainTakes commandRoom commandEntries; decide +kernel
/-- MatrixAndFactorCommandResults: orders 1 and 128 with rows of just their bytes. -/
theorem witness_factors :
    let s := at_ 7 { ctx0 with arch := { Arch.reset with fgeo := 0x20080 } }
    let t := at_ 7 { ctx0 with arch := { Arch.reset with fgeo := 0x401 } }
    (fld s.me.arch.fgeo 7 0 = 128 ∧ fld s.me.arch.fgeo 31 8 = 512) ∧ (fld t.me.arch.fgeo 7 0 = 1 ∧ fld t.me.arch.fgeo 31 8 = 4)
    ∧ s.me.fprog.toNat < 1 ∧ (low32 s 0).toNat % 4 = 0 ∧ (s.rs 0).toNat % 4 = 0 ∧ (s.me.chain (s.cur % 2)).isOpen = false
    ∧ fld s.me.arch.frhs 31 0 % 4 = 0 ∧ 4 * (fld t.me.arch.frhs 39 32 + 1) ≤ 4 ∧ commandRoom s := by
  unfold low32 commandRoom commandEntries; decide +kernel
/-- PathCommandResults: a direct access whose descriptor is the last of the window. -/
theorem witness_direct :
    let s := working 7 (scalars [(1, 0x7FFE8)])
    s.slot = 7 ∧ commandRoom s ∧ (Instr.gaadd .sc .sys true 1 2).wf = true ∧ blockAt s 1 8 24
    ∧ pairOk (u64At (BitVec.ofNat 256 (nearValue s ((s.rs 1).toNat % 2 ^ 32) 24)) 16) = true ∧ s.isPhased s.cur = false := by
  unfold commandRoom commandEntries blockAt nearValue; decide +kernel
/-- PathCommandResults: packets at the last 64 bytes of the window: of a copy, a collective of one device, a weight stream
of one block for one core, and a migration of one page. -/
theorem witness_packets :
    let c := { scalars [(1, 0x7FFC0), (2, 0x13FFFC00), (3, 1), (4, 0x7FFF8)] with arch := { Arch.reset with
      wbcfg := 0x100, sreg := [(1, 0x7FFC0), (2, 0x13FFFC00), (3, 1), (4, 0x7FFF8)] } }
    let s := working 7 c
    (commandRoom s ∧ blockAt s 1 64 64 ∧ cpyOk (packetAt s 1) = true)
    ∧ collOk (packetAt (placed s 0x7FFC0 8 0x10000) 1) = true
    ∧ wstrmOk (packetAt (placed (placed s 0x7FFC0 1 1) 0x7FFD8 4 0x100) 1) s.me.arch.wbcfg = true
    ∧ pmigOk (packetAt (placed s 0x7FFC8 4 1) 1) s.edge.dev = true ∧ pairOk (s.rs 0) = true
    ∧ (0x10000000 ≤ (low32 s 2).toNat ∧ (low32 s 2).toNat < 0x14000000
      ∧ ((low32 s 2).toNat - 0x10000000) / 1024 + (low32 s 3).toNat ≤ 65536 ∧ (low32 s 0).toNat = 0)
    ∧ blockAt s 4 8 8 ∧ s.isSupv s.cur = false
    ∧ ({ s with ce := { s.ce with kernels := [(0, { kernel0 with desc := 1#2048 <<< 280 })] } } : State).isSupv 0 = true := by
  unfold commandRoom commandEntries blockAt packetAt nearValue low32; decide +kernel
/-- PathCommandResults: a stream of one unit over the last bytes of near store, on an unbound name and a bound one. -/
theorem witness_stream_binding :
    let s := working 7 (scalars [(1, 0)])
    let d := packetAt (placed s 0 14 0x000100010001_00000100_0007FF00) 1
    (blockAt s 1 64 64 ∧ streamOk d false = true ∧ streamOk d true = true ∧ AMap.find s.me.arch.streams 7 = none
      ∧ streamDec d = false ∧ s.isPhased s.cur = false)
    ∧ AMap.find (at_ 7 (streamer [] false)).me.arch.streams 0 ≠ none ∧ commandRoom (at_ 7 (streamer [] false)) := by
  unfold commandRoom commandEntries blockAt packetAt nearValue; decide +kernel
/-- A gated buffer with 32 commands of a segment. -/
def fullBuffer (seg : Nat) : State :=
  at_ 7 { ctx0 with serial := 1, gated := List.replicate 32 ⟨seg, 0, .cmd (.mzero 0) (at_ 7 ctx0).issuer⟩ }
/-- FullGatedBuffer: 32 commands of an older segment, 32 of the newest, and a handler. -/
theorem witness_full_buffer :
    (fullBuffer 0).me.intrap = false ∧ (fullBuffer 0).slot = 7 ∧ (fullBuffer 0).iss.opened = false ∧ 32 ≤ commandEntries (fullBuffer 0)
    ∧ (∃ e ∈ (fullBuffer 0).me.gated, e.seg < (fullBuffer 0).me.serial)
    ∧ (32 ≤ commandEntries (fullBuffer 1) ∧ ∀ e ∈ (fullBuffer 1).me.gated, (fullBuffer 1).me.serial ≤ e.seg)
    ∧ ((fullBuffer 0).modCtx 0 fun c => { c with intrap := true }).me.intrap = true ∧ (∀ d ∈ (fullBuffer 0).cmds, AMap.find (fullBuffer 0).ce.saved d.by_.g = none) := by
  unfold commandEntries; decide +kernel
/-- DecodeOfEncode and EncodeOfDecode: an instruction with its word, and a parcel. -/
theorem witness_round_trip :
    (Instr.pmig 31 31).wf = true ∧ (Instr.pmig 31 31).isWord = true ∧ encodeParcel (.print 511 63) = some 0x7FFF
    ∧ decodeWord 0xFF807FE0 = some (.pmig 31 31) ∧ decodeParcel 0x7FFF = some (.print 511 63) := by decide +kernel
/-- SlotRunsDecodedWord: a word and its meaning, a word without one, and an instruction in a slot that may not hold it. -/
theorem witness_slot_words :
    (∃ t, exec (.addi 5 5 1) { at_ 0 ctx0 with slot := 1 } = .next t) ∧ decodeWord 0x04528001 = some (.addi 5 5 1)
    ∧ decodeWord 0xFFFFFFFF = none ∧ (Instr.addi 5 5 1).isWord = true ∧ (at_ 7 ctx0).slot < 8
    ∧ (at_ 7 ctx0).slot ∉ mayStand (.addi 5 5 1) :=
  ⟨⟨_, rfl⟩, by decide +kernel, by decide +kernel, by decide +kernel, by decide, by decide +kernel⟩
/-- The machine whose first parcel is the empty bundle. -/
def first : State := State.reset.withFetchWord 16 0
/-- StepRunsTheInstruction: what stands at the fetch position of the first turn. -/
theorem witness_fetch :
    let s := first.atTurn
    let a := s.codeAddr s.cur s.me.arch.pc.toNat
    let key := ltsKey (clusterOf s.cur) (a - 0x10000000)
    s.signatureOf s.cur s.me.arch.pc ≠ none ∧ 0x10000000 ≤ a ∧ a + 2 ≤ 0x14000000 ∧ s.poisoned key = false
    ∧ (s.row (clusterOf s.cur) ((a - 0x10000000) / 1024)).valid = true ∧ (0 : BitVec 16) = s.mem.read (key + 1) ++ s.mem.read key
    ∧ decodeParcel 0 = some (.print 0 0) ∧ straddles s.me.arch.loops s.me.arch.pc.toNat (parcelSpan (.print 0 0)) = false := by
  decide +kernel
/-- StepRunsTheInstruction: the first turn reaches the first parcel, and its exec answers a next state. -/
theorem witness_first_turn :
    first.dueStep.isNone = true ∧ first.inboxDue = none ∧ first.turn < 96 ∧ first.options.isEmpty = true
    ∧ first.issues first.turnContext = true ∧ (first.atTurn.boundary first.turnContext).isNone = true
    ∧ first.atTurn.fetch = .instr (.print 0 0) := by decide +kernel
theorem witness_reaches : reaches first (.print 0 0) := by
  obtain ⟨h1, h2, h3, h4, h5, h6, h7⟩ := witness_first_turn
  exact ⟨Option.isNone_iff_eq_none.mp h1, h2, h3, List.isEmpty_iff.mp h4, h5, Option.isNone_iff_eq_none.mp h6, h7⟩
/-- ParcelRunsItsBundle: a context with nothing pending, at the last repetition and before it. -/
theorem witness_print :
    let s := at_ 0 ctx0
    s.me.arch.pend = [] ∧ s.me.arch.shadow = [] ∧ s.me.arch.loops = [] ∧ s.me.arch.fenced = false ∧ s.me.bracket = none
    ∧ (s.cmds.all fun d => d.by_.g != s.cur) = true ∧ ((s.core (coreOf s.cur)).bnWrites.all fun w => w.1 != s.cur) = true
    ∧ s.me.arch.printRep < (63 : BitVec 6).toNat ∧ ¬(s.me.arch.printRep < (0 : BitVec 6).toNat) := by decide +kernel
/-- ParcelRunsItsBundle: the last plate with words of slots S, V and X, in the first of two repetitions and in the last. -/
theorem witness_plate :
    ∀ rep ∈ [0, 1],
      let plate : BitVec 256 := BitVec.ofNat 256 ((encodeWord (.addi 5 5 1)).toNat * 2 ^ 32
        + (encodeWord (.vmov 1 2 0 .w8)).toNat * 2 ^ 128 + (encodeWord (.xtrn 1 2 .s8)).toNat * 2 ^ 192)
      let s : State := { at_ 0 { ctx0 with arch := { Arch.reset with printRep := rep } } with
        cores := [(0, { Core.reset with plates := [(511, plate)] })] }
      let words : List SlotWord := (List.range 8).map fun i => (AMap.get 0 (s.core (coreOf s.cur)).plates 511).extractLsb' (32 * i) 32
      let s0 : State := { s with iss := { Issue.reset with
        parcel := s.me.arch.pc, size := 1, rep := s.me.arch.printRep, reps := 2, words := words } }
      let s2 := (s0.modCtx s.cur Ctx.land).runSlots 0 words
      (s.me.arch.fenced = false ∧ s0.waits = false ∧ s2.iss.verdict = .ok ∧ s2.badSignature.isNone = true ∧ s.me.arch.streams = [])
      ∧ (words.map decodeWord = [some .nop, some (.addi 5 5 1), some .nop, some .nop, some (.vmov 1 2 0 .w8), some .nop,
          some (.xtrn 1 2 .s8), some .nop] ∧ words.getD 0 1 = 0 ∧ words.getD 3 1 = 0 ∧ words.getD 7 1 = 0)
      ∧ mayStand (.addi 5 5 1) = [1, 2] ∧ mayStand (.vmov 1 2 0 .w8) = [4, 5] ∧ mayStand (.xtrn 1 2 .s8) = [6] := by decide +kernel
/-- TransferAndTrapResults: a BKPT whose bundle has issued, with a debugger present, in a handler and outside one, and without
one. -/
theorem witness_bkpt :
    ∀ h ∈ [true, false],
      let s : State := { at_ 0 { ctx0 with present := true, intrap := h } with iss := { Issue.reset with
        reps := 1, after := some ⟨0x10, 3, 0, 0, false, 0, 0, false, 0⟩ } }
      s.iss.after.map Cause.code = some 0x10 ∧ s.me.present = true ∧ s.iss.ends.isNone = true ∧ s.iss.eret = false
      ∧ s.iss.atomic = false ∧ s.iss.target = none ∧ s.iss.newLoop = none ∧ s.iss.reps ≤ s.iss.rep + 1 ∧ s.me.arch.loops = []
      ∧ s.iss.direct = [] ∧ (at_ 0 ctx0).me.present = false := by decide +kernel
/-- JournalAppends: a ring of 256 entries that the next one fills, one past its end, and a journal that is off. -/
theorem witness_journal :
    let on := fun (n : Nat) => ({ State.reset with ce := { State.reset.ce with jcfg := 0x5008, jseq := n } } : State)
    journalOn (on 256) ∧ journalOn (on 257) ∧ (on 257).ce.jseq = (on 1).ce.jseq + 2 ^ fld (on 1).ce.jcfg 4 0
    ∧ journalSlot (on 256) = journalSlot (on 1) + 255 * 64 ∧ journalSlot (on 257) = journalSlot (on 1)
    ∧ journalOff State.reset := by unfold journalOn journalOff; decide +kernel
/-- ParcelRunsItsBundle: the words after the header of the first bundle. -/
theorem witness_full_bundle :
    (let s := (State.reset.withFetchWord 32 0x04528001).atTurn
     match s.readParcels (s.me.arch.pc.toNat + 1) 16 with
     | .ok ps =>
       let s0 : State := { s with iss := { Issue.reset with
         parcel := s.me.arch.pc, size := 17, rep := s.me.arch.printRep, reps := 1, words := pairParcels ps } }
       let s2 := (s0.modCtx s.cur Ctx.land).runSlots 0 (pairParcels ps)
       !s.me.arch.fenced && !s0.waits && s2.iss.verdict == .ok && s2.badSignature.isNone
     | _ => false) = true := by decide +kernel
/-- RaisingBundleHasNoEffect: a bundle whose first word decodes to nothing. -/
theorem witness_raising_bundle :
    let s := at_ 0 ctx0
    let s0 : State := { s with iss := { Issue.reset with
      parcel := s.me.arch.pc, size := 17, rep := s.me.arch.printRep, reps := 1, words := [0xFFFFFFFF] } }
    let s1 := s0.modArch s.cur fun a => { a with fenced := false }
    s0.waits = false ∧ s.me.arch.fenced = false
    ∧ ((s1.modCtx s.cur Ctx.land).runSlots 0 [0xFFFFFFFF]).iss.verdict
      = .raised ⟨0x01, 0xFFFFFFFF, 0, 0, false, 0, 0, false, 0⟩ := by decide +kernel
/-- ScalarFrame, VectorFrame, SlotFrames: an instruction of each kind that answers a next state. -/
theorem witness_frames :
    ((Instr.add 3 1 2).isWord = true ∧ mayStand (.add 3 1 2) = [1, 2] ∧ inSlotST (at_ 1 ctx0)
      ∧ ∃ t, exec (.add 3 1 2) (at_ 1 ctx0) = .next t)
    ∧ ((Instr.vadd 3 1 2 0 .w8).isWord = true ∧ mayStand (.vadd 3 1 2 0 .w8) = [4, 5] ∧ (at_ 4 ctx0).me.arch.streams = []
      ∧ ∃ t, exec (.vadd 3 1 2 0 .w8) (at_ 4 ctx0) = .next t)
    ∧ (mayStand (.xtrn 3 1 .s8) = [6] ∧ mayStand (.ldd 3 1 0) = [3] ∧ mayStand (.trap 0) = [0] ∧ mayStand (.mzero false) = [7]
      ∧ (at_ 3 ctx0).me.intrap = false ∧ (at_ 3 ctx0).iss.verdict = .ok)
    ∧ (∃ t, exec (.ldd 3 1 0) (at_ 3 ctx0) = .next t) ∧ (∃ t, exec (.trap 0) (at_ 0 ctx0) = .next t)
    ∧ ∃ t, exec (.mzero false) (at_ 7 ctx0) = .next t := by
  refine ⟨⟨?_, ?_, ?_, ?_⟩, ⟨?_, ?_, ?_, ?_⟩, ?_, ?_, ?_, ?_⟩
  · decide +kernel
  · decide +kernel
  · exact .inl rfl
  · exact ⟨_, rfl⟩
  · decide +kernel
  · decide +kernel
  · decide +kernel
  · exact ⟨_, rfl⟩
  · decide +kernel
  · exact ⟨_, rfl⟩
  · exact ⟨_, rfl⟩
  · exact ⟨_, rfl⟩
/-- A context whose TSTK has just its 16 bytes in the window, and a proof it captured. -/
def trapped : Ctx := { ctx0 with
  captured := some ⟨{ Arch.reset with tstk := 0x7FF00, tvec := 9, pc := 2 }, 1, 0, .proof⟩
  sphi := 0x7FF0F
  arch := { Arch.reset with tstk := 0x7FF00, tvec := 7, pc := 3 } }
/-- TrapEntry, ReturnUndoesEntry: a TRAP, a BKPT and a notice outside a handler; a cause with a rewind to a proof. -/
theorem witness_traps :
    let s := at_ 0 trapped
    (s.ctx 0).intrap = false ∧ goodTstk (s.ctx 0).land ∧ (∀ x ∈ s.ctxs, x.1 = 1 → x.2.startSeg = none)
    ∧ ((s.ctx 0).newest = some ⟨{ Arch.reset with tstk := 0x7FF00, tvec := 9, pc := 2 }, 1, 0, .proof⟩)
    ∧ goodTstk ({ s.ctx 0 with arch := { Arch.reset with tstk := 0x7FF00, tvec := 9, pc := 2 } } : Ctx).land
    ∧ (0x01 ≠ 0x10 ∧ 0x01 ≠ 0x11 ∧ 0x01 ≠ 0x21) := by unfold goodTstk; decide +kernel
/-- A context whose aligned TSTK has its last byte out of the window, as has the proof it captured. -/
def outside : Ctx := { trapped with sphi := 0x7FF0E }
/-- DoubleFaults: a cause in a handler; a misaligned TSTK, and an aligned one whose 16 bytes leave the window, now and in the
proof that a cause rewinds to. -/
theorem witness_double_faults :
    ((at_ 0 inHandler).ctx 0).intrap = true
    ∧ (((at_ 0 { ctx0 with arch := { Arch.reset with tstk := 1 } }).ctx 0).intrap = false
      ∧ ¬goodTstk ((at_ 0 { ctx0 with arch := { Arch.reset with tstk := 1 } }).ctx 0).land)
    ∧ (((at_ 0 outside).ctx 0).land.arch.tstk.toNat % 256 = 0 ∧ ¬goodTstk ((at_ 0 outside).ctx 0).land)
    ∧ (((at_ 0 outside).ctx 0).newest = some ⟨{ Arch.reset with tstk := 0x7FF00, tvec := 9, pc := 2 }, 1, 0, .proof⟩
      ∧ ¬goodTstk ({ (at_ 0 outside).ctx 0 with arch := { Arch.reset with tstk := 0x7FF00, tvec := 9, pc := 2 } } : Ctx).land) := by
  unfold goodTstk; decide +kernel
/-- ResetState, ResetMemoryForm, StepsKeepTheMemoryForm: the reset state meets the invariant, and steps. -/
theorem witness_reset_inv : Inv State.reset := by unfold Inv; decide +kernel
theorem witness_reset_steps : (match step State.reset with
    | .next _ => true
    | _ => false) = true := by decide +kernel
theorem witness_step_of_reset : ∃ t, step State.reset = .next t := by
  have h := witness_reset_steps
  cases h1 : step State.reset with
  | next t => exact ⟨t, rfl⟩
  | fault f => rw [h1] at h; cases h
  | refused r => rw [h1] at h; cases h
/-- MemoryReadsBackWhatIsWritten: a granule written whole, one byte of it cleared. -/
theorem witness_written :
    let cells : List (Nat × Byte) := (List.range 64).map fun i => (64 + i, BitVec.ofNat 8 i)
    (cells.map Prod.fst).Nodup ∧ (64, (0 : Byte)) ∈ cells ∧ 63 ∉ cells.map Prod.fst
    ∧ (∀ i, i < 64 → 1 * 64 + i ∈ cells.map Prod.fst) ∧ Memory.wf [] := by decide +kernel
/-! Witnesses of the statements about events. -/

/-- MemoryHardwareEvents: the last channel, neither retired nor retraining, and one that retrains, with the last granule of a
frame of its group; a bank without a tracker. -/
theorem witness_memory_hardware :
    (State.reset.edge.frames ≤ 228880 ∧ 228879 % 16 = 255 / 16 ∧ groupOf (physKey (0x200000 * 228879)) = some 15) ∧
    (255 < 256 ∧ (State.reset.channel 255).retired = false ∧ journalOff State.reset)
    ∧ (({ State.reset with edge := { Edge.reset with channels := [(255, ⟨false, true⟩)] } } : State).channel 255).training = true
    ∧ (∀ a ∈ [0x200000 * 228879 + 0x1FFFFF], a / 0x200000 < State.reset.edge.frames)
    ∧ AMap.find State.reset.edge.trackers 7 = none ∧ 2 ≤ fld State.reset.edge.hbmrh 15 0 := by
  unfold journalOff; decide +kernel
/-- MemoryHardwareEvents: an activation of a row that is held, below the threshold and at it; of one that is not, with an entry
at the spill count and without, in a full tracker. -/
theorem witness_trackers :
    let full : Tracker := ⟨(List.range 16).map fun i => (i, 5), 5, []⟩
    let th := fld State.reset.edge.hbmrh 15 0
    (full.rows.find? fun p => p.1 == 3) = some (3, 5) ∧ 5 + 1 < th ∧ th ≤ (th - 1) + 1
    ∧ ((full.rows.find? fun p => p.1 == 16) = none ∧ 16 ≤ full.rows.length
      ∧ (full.rows.find? fun p => p.2 == full.spill) = some (0, 5) ∧ full.spill + 1 < th)
    ∧ (({ full with spill := 4 } : Tracker).rows.find? fun p => p.2 == 4) = none := by decide +kernel
/-- DeviceEvents: a device in each step of its start; firmware and record that verify and that do not; a quote refused and
signed; a partner without a common major, and one of each interface. -/
theorem witness_starts :
    (∀ n ∈ [2, 3, 4], ({ State.reset with edge := { Edge.reset with boot := n } } : State).edge.boot = n)
    ∧ (∃ b : BootChecks, b.firmwareOk = true ∧ b.recordOk = true) ∧ (∃ b : BootChecks, b.firmwareOk = false)
    ∧ State.reset.edge.locked = false ∧ ({ State.reset with edge := { Edge.reset with locked := true } } : State).edge.locked = true
    ∧ (∀ v ∈ ([(2, 0)] : List (Nat × Nat)), v.1 ≠ 1) ∧ Interface.link.index = 4 ∧ journalOff State.reset := by
  refine ⟨by decide +kernel, ⟨⟨[], [], true, true⟩, rfl, rfl⟩, ⟨⟨[], [], false, true⟩, rfl⟩, rfl, rfl, by decide, rfl, rfl⟩
/-- DeviceEvents: no queue at work, and one; CAPPED and not; a partner that speaks version 1. -/
theorem witness_device :
    (∀ q ∈ State.reset.ce.queues, q.2.running = false)
    ∧ (∃ q ∈ ({ State.reset with ce := { Engine.reset with queues := [(0, { Queue.reset with running := true })] } } : State).ce.queues,
      q.2.running = true)
    ∧ State.reset.edge.pstate ≤ 1 ∧ ({ State.reset with edge := { Edge.reset with pstate := 1 } } : State).edge.pstate ≤ 1
    ∧ 4 < 5 ∧ ∃ v ∈ ([(1, 0)] : List (Nat × Nat)), v.1 = 1 := by decide +kernel
/-- The first context frozen by its debugger, before its first parcel. -/
def debugged : State := first.modCtx 0 fun c => { c with state := .frozen, freeze := some .debug, bankZero := false }
/-- DebugEvents: a running, a frozen and a halted context; a step before a spawned context has started, and one of the empty
bundle. -/
theorem witness_debug :
    (first.hostOpen = true ∧ debugged.hostOpen = true ∧ (first.ctx 0).halt = false
      ∧ ({ first with edge := { first.edge with versions := [(3, none)] } } : State).hostOpen = false
      ∧ ((first.modCtx 0 fun c => { c with halt := true }).ctx 0).halt = true)
    ∧ (first.ctx 0).state = .running ∧ (first.ctx 0).state ≠ .frozen ∧ (first.ctx 0).state ≠ .halted
    ∧ ((debugged.ctx 0).state = .frozen ∧ (debugged.ctx 0).freeze = some .debug)
    ∧ ((debugged.modCtx 0 fun c => { c with startSeg := some (0, 0, 0) }).ctx 0).startSeg ≠ none
    ∧ ((first.modCtx 0 fun c => { c with state := .halted }).ctx 0).state = .halted
    ∧ (∀ x ∈ first.ctxs, x.2.startSeg = none)
    ∧ (let u := (stepping debugged 0).prepare 0
      let v := { u with cur := 0, slot := 0, iss := { Issue.reset with parcel := (u.ctx 0).arch.pc } }
      (debugged.ctx 0).startSeg = none ∧ (debugged.ctx 0).bankZero = false ∧ (debugged.ctx 0).reload = none
        ∧ (u.ctx 0).syncDue = false ∧ u.vigilLate 0 = false ∧ v.fetch = .instr (.print 0 0)) := by decide +kernel
/-- HostWindowEvents: a verified record and one that is not; the last doorbell, register and bytes of the window. -/
theorem witness_host_window :
    State.reset.edge.locked = false ∧ ({ State.reset with edge := { Edge.reset with locked := true } } : State).edge.locked = true
    ∧ State.reset.hostOpen = true ∧ State.reset.edge.closed .window = false
    ∧ ({ State.reset with edge := { Edge.reset with versions := [(3, none)] } } : State).edge.closed .window = true
    ∧ (63 < 64 ∧ ([1, 0, 0, 0] : List Byte).length = 4) ∧ (0xFFF8 < 0x10000 ∧ (leBytes 8 5).length = 8)
    ∧ (0xFFFFFFFFF8 + 8 ≤ 0x10000000000 ∧ 0x6FC1FFFFF8 + 8 ≤ 0x200000 * State.reset.edge.frames)
    ∧ (State.reset.mappedRange 0x6FC1FFFFF8 (leBytes 8 5).length = true ∧ fld State.reset.ce.jcfg 4 0 = 0)
    ∧ (600 ≤ (600 : BitVec 64).toNat % 2 ^ 16 ∧ (2400 : BitVec 64).toNat % 2 ^ 16 ≤ 2400) ∧ 95 < 96 ∧ 3 < 4 := by decide +kernel
/-- Bytes at physical addresses. -/
def physPlaced (s : State) (a n v : Nat) : State := s.writeCells (physCells a (leBytes n v))
/-- Queue 0 of 16 slots at 0x1000, privileged and running. -/
def queue0 : Queue := { Queue.reset with base := 0x1000, log2 := 4, priv := true, running := true }
/-- Partition 0 of cluster 0 and queue 0, with its radix table at 0x10000. -/
def part0 : Partition := ⟨1, 1, 1, 1, 0x400000, 0x10000, 0x800000, 63, none⟩
/-- A machine whose queue 0 holds one command. -/
def queued (w : Nat) : State := physPlaced { State.reset with ce := { Engine.reset with
  queues := [(0, { queue0 with tail := 1 })], parts := [(0, part0)] } } 0x1000 64 w
theorem witness_at_head_of (w : Nat) (h : (queued w).headCommand 0 = some (BitVec.ofNat 512 w))
    (g : cmdMalformed (BitVec.ofNat 512 w) = false) (e : u32At (BitVec.ofNat 512 w) 4 = 1) :
    atHead (queued w) 0 (BitVec.ofNat 512 w) := by
  refine ⟨rfl, rfl, rfl, ?_, h, g, .inr ?_, rfl⟩
  · show (0 : BitVec 32) ≠ 1
    decide
  · rw [e]; rfl
/-- A command with its opcode, sequence number 1, and 64-bit words from byte 8 on. -/
def command (op : Nat) (l : List Nat) : Nat := leNat (leBytes 8 (op + 2 ^ 32) ++ l.flatMap (leBytes 8))
/-- QueueCommandEvents: each command at the head of its queue, with a good word and a misaligned one. -/
theorem witness_semsig : atHead (queued (command 2 [0x2000, 5])) 0 (BitVec.ofNat 512 (command 2 [0x2000, 5]))
    ∧ u8At (BitVec.ofNat 512 (command 2 [0x2000, 5])) 0 = 2
    ∧ goodWord (queued (command 2 [0x2000, 5])) (BitVec.ofNat 512 (command 2 [0x2000, 5]))
    ∧ ¬goodWord (queued 0) (BitVec.ofNat 512 (command 2 [0x2001, 5])) := by
  refine ⟨witness_at_head_of _ ?_ ?_ ?_, ?_, ?_, ?_⟩ <;> first | decide +kernel | (unfold goodWord; decide +kernel)
theorem witness_semwait : atHead (queued (command 3 [0x2000, 5, 0x0200000007])) 0 (BitVec.ofNat 512 (command 3 [0x2000, 5, 0x0200000007]))
    ∧ u8At (BitVec.ofNat 512 (command 3 [0x2000, 5, 0x0200000007])) 0 = 3
    ∧ goodWord (queued 0) (BitVec.ofNat 512 (command 3 [0x2000, 5, 0x0200000007]))
    ∧ u8At (BitVec.ofNat 512 (command 3 [0x2000, 5, 0x0200000007])) 0x1C ≤ 2
    ∧ 2 < u8At (BitVec.ofNat 512 (command 3 [0x2000, 5, 0x0300000007])) 0x1C := by
  refine ⟨witness_at_head_of _ ?_ ?_ ?_, ?_, ?_, ?_, ?_⟩ <;> first | decide +kernel | (unfold goodWord; decide +kernel)
/-- QueueCommandEvents: a SEMWAIT under way, whose condition holds, and does not, at its timeout and before it, and with no
timeout. -/
theorem witness_semwait_waits :
    let c := fun (x : Nat) => (⟨0, 1, 3, 0, 0, 0, BitVec.ofNat 512 (command 3 [0x2000, x, 1]), none, none⟩ : Started)
    let s : State := { State.reset with cycle := 2 ^ 20, ce := { Engine.reset with queues := [(0, { queue0 with started := [c 0] })] } }
    (s.queue 0).started = [c 0] ∧ (c 0).op = 3 ∧ journalOff s ∧ goodWord s (c 0).slot
    ∧ (u64At (c 0).slot 0x10).toNat ≤ semWord s (c 0).slot ∧ ¬((u64At (c 1).slot 0x10).toNat ≤ semWord s (c 1).slot)
    ∧ ((u32At (c 0).slot 0x18).toNat ≠ 0 ∧ (c 0).cycle + (u32At (c 0).slot 0x18).toNat * 2 ^ 20 ≤ s.cycle)
    ∧ State.reset.cycle < (c 0).cycle + (u32At (c 0).slot 0x18).toNat * 2 ^ 20 := by
  unfold journalOff goodWord semWord; decide +kernel
theorem witness_other_commands :
    (atHead (queued (command 4 [])) 0 (BitVec.ofNat 512 (command 4 [])) ∧ u8At (BitVec.ofNat 512 (command 4 [])) 0 = 4)
    ∧ (atHead (queued (command 5 [0x2000])) 0 (BitVec.ofNat 512 (command 5 [0x2000]))
      ∧ (queued 0).wordOk (u64At (BitVec.ofNat 512 (command 5 [0x2000])) 8).toNat = true
      ∧ (queued 0).wordOk (u64At (BitVec.ofNat 512 (command 5 [0x6FC2000000])) 8).toNat = false)
    ∧ atHead (queued (command 6 [9])) 0 (BitVec.ofNat 512 (command 6 [9])) := by
  refine ⟨⟨witness_at_head_of _ ?_ ?_ ?_, ?_⟩, ⟨witness_at_head_of _ ?_ ?_ ?_, ?_, ?_⟩, witness_at_head_of _ ?_ ?_ ?_⟩ <;> decide +kernel
/-- LaunchMigrateAndPartcfgEvents: a LAUNCH of a legal descriptor at 0x3000, and of one that is not. -/
theorem witness_launch :
    let w := command 1 [0x3000, 1, 2, 3, 4, 5, 6]
    let s := physPlaced (queued w) 0x3000 256 programDesc.toNat
    let d : VWord := BitVec.ofNat 2048 (readNat s.mem (physKey 0x3000) 256)
    (atHead (queued w) 0 (BitVec.ofNat 512 w) ∧ s.headCommand 0 = some (BitVec.ofNat 512 w) ∧ s.readable 0 = true)
    ∧ u8At (BitVec.ofNat 512 w) 0 = 1 ∧ s.partOf 0 = some (0, part0)
    ∧ ((s.activeKernels 0).length < 16 ∧ ∀ k ∈ s.activeKernels 0, u8At k.2.desc 0x22 &&& (s.mem.read (physKey (0x3000 + 0x22))).toNat = 0)
    ∧ (s.queue 0).priv = true ∧ s.descriptorOk 0x3000 d = true ∧ s.descriptorOk 0x3001 d = false := by
  refine ⟨⟨witness_at_head_of _ ?_ ?_ ?_, ?_, ?_⟩, ?_, ?_, ?_, ?_, ?_, ?_⟩ <;> decide +kernel
/-- LaunchMigrateAndPartcfgEvents: a MIGRATE whose packet asks for one page, and a PARTCFG of a partition of cluster 11. -/
theorem witness_migrate_and_partcfg :
    let w := command 7 [0x3000]
    let s := physPlaced (queued w) 0x3008 4 1
    let v := command 8 [0x0001000208000001, 2, 0x400000, 0x20000, 0x900000]
    let p := partFields (BitVec.ofNat 512 v)
    (atHead (queued w) 0 (BitVec.ofNat 512 w) ∧ s.structureOk 0x3000 64 = true
      ∧ pmigOk (BitVec.ofNat 512 (readNat s.mem (physKey 0x3000) 64)) s.edge.dev = true)
    ∧ atHead (queued v) 0 (BitVec.ofNat 512 v) ∧ ((queued v).queue 0).priv = true ∧ (queued v).partBad 1 p = false
    ∧ (queued v).partBad 12 p = true ∧ (∀ x ∈ (queued v).ce.queues, x.2.started = [])
    ∧ ∀ o ∈ (queued v).ce.parts, o.1 ≠ 1 → o.2.clusters &&& p.clusters = 0 ∧ o.2.groups &&& p.groups = 0
      ∧ o.2.queues &&& p.queues = 0 := by
  refine ⟨⟨witness_at_head_of _ ?_ ?_ ?_, ?_, ?_⟩, witness_at_head_of _ ?_ ?_ ?_, ?_, ?_, ?_, ?_, ?_⟩ <;> decide +kernel
/-- QueueRegisterEvents: a queue that is set up and owned, a tail that just fits and one too far; a stopped queue; a context
at work for it; the sizes of a journal; a page request with a free answer. -/
theorem witness_queue_registers :
    let s : State := { queued 0 with
      ctxs := [(0, ctx0)]
      ce := { (queued 0).ce with kernels := [(0, kernel0)] } }
    let r : PageReq := ⟨0, 0, 0, 0, false, none⟩
    let f : State := { State.reset with edge := { Edge.reset with fq := [(0, r)], fqWrite := 1 } }
    (s.hostOpen = true ∧ f.hostOpen = true
      ∧ ({ s with edge := { Edge.reset with locked := true } } : State).hostOpen = false)
    ∧ ((s.queue 0).setUp = true ∧ s.owned 0 = true ∧ ((16 : BitVec 32) - (s.queue 0).head).toNat ≤ 2 ^ (s.queue 0).log2
      ∧ 2 ^ (s.queue 0).log2 < ((17 : BitVec 32) - (s.queue 0).head).toNat)
    ∧ ((s.queue 63).setUp = false ∧ (s.queue 0).running = true ∧ (s.queue 63).running = false)
    ∧ ((s.myKernel 0).map Kernel.queue = some 0 ∧ (s.ctx 0).state = .running ∧ (s.myKernel 1).map Kernel.queue ≠ some 0)
    ∧ ((16 : BitVec 64).toNat % 32 = 16 ∧ (16 : BitVec 64).toNat % 32 ≤ 16)
    ∧ (8 ≤ 20 ∧ 0 + 64 * 2 ^ 20 ≤ s.edge.frames * 0x200000)
    ∧ (f.edge.fqRead < 4096 ∧ f.edge.fqWrite < 4096 ∧ f.faultCount ≠ 0 ∧ (1 : BitVec 64).toNat % 4096 = (f.edge.fqRead + 1) % 4096
      ∧ AMap.find f.edge.fq (f.edge.fqRead % 2048) = some r
      ∧ (f.unit r.unit).side = []) := by decide +kernel
/-- A record of task 1023 of kernel 0. -/
def record0 : Record := ⟨0, 7, 0, .any, 1023, true, 0, 0, 0, [1, 2, 3, 4, 5, 6], 0⟩
/-- A machine with partition 0 and kernel 0, and records in the pool. -/
def pooled (k : Kernel) (l : List Record) (c : AMap Ctx) : State := { State.reset with
  ctxs := c
  ce := { Engine.reset with queues := [(0, queue0)], parts := [(0, part0)], kernels := [(0, k)], pool := l } }
/-- ContextLifeEvents: a record that is offered, and none. -/
theorem witness_pickup :
    let s := pooled { kernel0 with desc := programDesc } [record0] []
    s.offered 0 = some record0 ∧ s.kernel record0.kernel = some { kernel0 with desc := programDesc }
    ∧ State.reset.offered 0 = none ∧ (State.reset.offeredSaved 0).isNone = true := by decide +kernel
/-- ContextLifeEvents: a spawned context that may start, and one whose cycle has not come. -/
theorem witness_spawned :
    let g : Ctx := { ctx0 with startSeg := some (0, 1, 0), startAt := 24 }
    let s := pooled kernel0 [] [(0, { ctx0 with captured := some proof0 }), (1, g)]
    ({ s with cycle := 24, cores := [(0, { Core.reset with loaded := some 0 })] } : State).spawnReady 1 = true
    ∧ s.cycle < (s.ctx 1).startAt := by decide +kernel
/-- ContextLifeEvents: a proof 384 cycles old with a gated store, and one a cycle younger; a DONE. -/
theorem witness_seals :
    let e : Gated := ⟨0, 0, .store [(0x7FFFF, 5)]⟩
    let c : Ctx := { ctx0 with unsealed := [proof0], gated := [e] }
    let s : State := { at_ 0 c with cycle := 384 }
    let d : Capture := { proof0 with kind := .done }
    let t := pooled kernel0 [] [(0, { ctx0 with unsealed := [d] })]
    (s.ctx 0).unsealed = [proof0] ∧ 383 < proof0.cycle + 384 ∧ proof0.cycle + 384 ≤ s.cycle ∧ proof0.kind = .proof
    ∧ ((s.ctx 0).gated = [e] ∧ e.item = .store [(0x7FFFF, 5)] ∧ e.seg < proof0.serial)
    ∧ (d.cycle + 384 ≤ s.cycle ∧ d.kind = .done ∧ (t.ctx 0).gated = [] ∧ (t.ctx 0).kernel = some 0 ∧ t.kernel 0 = some kernel0
      ∧ (t.ctx 0).spawn = 0) := by decide +kernel
theorem witness_seal_of_stores : ∀ e ∈ [(⟨0, 0, .store [(0x7FFFF, 5)]⟩ : Gated)], ∃ b, e.item = .store b := by
  intro e he
  rw [List.mem_singleton.mp he]
  exact ⟨_, rfl⟩
/-- The agent of context 0. -/
def issuer0 : Issuer := ⟨0, 1, some 0, 0, 0, 0, 0, 0, false, false, 0, 0, 0, 0, 0x7FFFF⟩
/-- What is kept of a saved context 0 of kernel 0, with the number of its factor command that has not run. -/
def saved0 (job : Option Nat) : Saved := ⟨0, 1, 0, none, 1, [], none, 0, false, [], [], [], false, false, job⟩
/-- The machine that may resume it. -/
def resuming (job : Option Nat) : State :=
  { pooled kernel0 [] [] with ce := { (pooled kernel0 [] []).ce with saved := [(0, saved0 job)] } }
/-- A factor command of context 0, of order 1. -/
def factor0 : FacJob := ⟨0x76, 0, 0, 0x401, 0, 0, 0, 0, 0x7FFFF, 0, fpermIdentity, none⟩
/-- ContextLifeEvents: a context that may freeze, and one in a handler; one that may be saved, with a factor command that has
not run; one that may resume, with such a command that its slot records and without. -/
theorem witness_preemption :
    let s := pooled kernel0 [] [(0, { ctx0 with preq := true })]
    let f := pooled kernel0 [] [(0, { ctx0 with state := .frozen, freeze := some .preempt })]
    let d := Cmd.new 5 issuer0 (.factor factor0) []
    let r := resuming none
    let u := physPlaced { resuming (some 5) with cmds := [{ d with parked := true }] } ((resuming (some 5)).slotBase 0 0 + 0xC00) 4 1
    ((s.ctx 0).state = .running ∧ s.freezeDue 0 = true) ∧ (at_ 0 inHandler).me.intrap = true
    ∧ (f.saveDue 0 = true ∧ ({ f with cmds := [d] } : State).saveDue 0 = true ∧ (f.ctx 0).kernel = some 0
      ∧ f.kernel 0 = some kernel0)
    ∧ (r.offeredSaved 0 = some (saved0 none) ∧ r.kernel (saved0 none).kernel = some kernel0 ∧ r.poison = [])
    ∧ (u.offeredSaved 0 = some (saved0 (some 5)) ∧ u.kernel (saved0 (some 5)).kernel = some kernel0 ∧ u.poison = []
      ∧ readNat u.mem (physKey (u.slotBase 0 0 + 0xC00)) 4 = 1) := by decide +kernel
/-- BoundaryAndSlideEvents: an engine's cause, an expiry notice, and neither; a breakpoint at the parcel address, and none. -/
theorem witness_boundary :
    let e : Cause := ⟨0x0E, 0, 0, 7, false, 0, 0, false, 0⟩
    let a := at_ 0 { ctx0 with causes := [e] }
    let b := at_ 0 { ctx0 with notice := true, aevt := 1 }
    let p := at_ 0 { ctx0 with bps := [(3, 0x100000000)] }
    ((a.ctx 0).state = .running ∧ (a.ctx 0).badLanding.isNone = true ∧ (a.ctx 0).causes = [e] ∧ (a.ctx 0).intrap = false)
    ∧ ((b.ctx 0).causes = [] ∧ (b.ctx 0).notice = true ∧ (b.ctx 0).aevt.getLsbD 0 = true ∧ (b.ctx 0).badLanding.isNone = true)
    ∧ (((at_ 0 ctx0).ctx 0).causes = [] ∧ ((at_ 0 ctx0).ctx 0).notice = false)
    ∧ ((p.ctx 0).bpDone = false ∧ (p.ctx 0).arch.printRep = 0 ∧ (3, (1 : BitVec 1) ++ (p.ctx 0).arch.pc) ∈ (p.ctx 0).bps)
    ∧ ∀ q ∈ ((at_ 0 ctx0).ctx 0).bps, q.2 ≠ (1 : BitVec 1) ++ ((at_ 0 ctx0).ctx 0).arch.pc := by decide +kernel
/-- BoundaryAndSlideEvents: a poisoned landing alone, and with an engine's cause of the same bundle and of an older one. -/
theorem witness_landing_causes :
    let p : Pending := ⟨.scalar, 1, 5, 3, fullScalar, 0, 0, 0, some 0x40, 2, none, none⟩
    let e : Cause := ⟨0x0E, 0, 0, 7, false, 0, 0, false, 2⟩
    let c : Ctx := { ctx0 with arch := { Arch.reset with tick := 5, pend := [p] } }
    let a := at_ 0 c
    let b := at_ 0 { c with causes := [e] }
    ((a.ctx 0).state = .running ∧ (a.ctx 0).intrap = false ∧ (a.ctx 0).badLanding = some p ∧ (a.ctx 0).causes = [])
    ∧ ((b.ctx 0).badLanding = some p ∧ (b.ctx 0).causes = [e] ∧ ¬(e.issued < p.issued))
    ∧ ({ e with issued := 1 } : Cause).issued < p.issued := by decide +kernel
/-- BoundaryAndSlideEvents: a vigil of context 0 alone, which is all there, and one that misses context 1; one at its timeout,
before it, and without one. -/
theorem witness_vigils :
    let s := at_ 0 { ctx0 with arrival := some ⟨5, 1, 0, false⟩ }
    let t := at_ 0 { ctx0 with arrival := some ⟨5, 3, 0, false⟩, arch := { Arch.reset with vgtmo := 2 } }
    (s.ctx 0).arrival = some ⟨5, 1, 0, false⟩ ∧ s.ce.saved = []
    ∧ (∀ h, h < 8 → (1 : BitVec 8).getLsbD h = true → (s.ctx h).kernel = (s.ctx 0).kernel
      ∧ (s.ctx h).arrival = some ⟨5, 1, 0, false⟩)
    ∧ ((3 : BitVec 8).getLsbD 1 = true ∧ (t.ctx 1).kernel ≠ (t.ctx 0).kernel)
    ∧ ((t.ctx 0).state = .running ∧ (t.ctx 0).intrap = false ∧ (t.ctx 0).land.arch.vgtmo.toNat * 1024 ≠ 0
      ∧ 0 + (t.ctx 0).land.arch.vgtmo.toNat * 1024 ≤ 2048 ∧ t.cycle < 0 + (t.ctx 0).land.arch.vgtmo.toNat * 1024)
    ∧ (s.ctx 0).land.arch.vgtmo.toNat * 1024 = 0 := by decide +kernel
/-- BoundaryAndSlideEvents: a strike on core 0, whose first context holds a sealed proof. -/
theorem witness_strike :
    let s := at_ 0 { ctx0 with captured := some proof0 }
    (∀ x ∈ s.ctxs, x.2.startSeg = none) ∧ 0 / 2 = 0 ∧ (s.ctx 0).state = .running ∧ (s.ctx 0).captured = some proof0 := by
  decide +kernel
/-- The machine with one command, of number 5. -/
def commanded (op : CmdOp) (f : Cmd → Cmd) : State := { pooled kernel0 [] [(0, ctx0)] with cmds := [f (Cmd.new 5 issuer0 op [])] }
/-- BoundaryAndSlideEvents: a slide whose bytes have reached the overflow area. -/
theorem witness_slide :
    let c : Cmd := { Cmd.new 5 issuer0 (.slide false 0 0 12288) [] with prog := 1 }
    let s : State := { pooled kernel0 [] [(0, { ctx0 with bracket := some .slide, arch := { Arch.reset with stktop := 8192 } })] with
      cmds := [c] }
    s.slideDue 0 false = true ∧ s.slideCmd 0 = some c ∧ s.mayRun c = true ∧ c.prog = 1 ∧ c.status ≠ 1 ∧ c.by_.g = 0
    ∧ (s.ctx 0).gated = [] ∧ s.ce.saved = [] ∧ (at_ 0 ctx0).me.bracket ≠ some .slide := by decide +kernel

/-! A page of global memory, for the transfers that read it. -/

/-- Radix tables at 0x10000 that map the first GiB to 0x40000000, for every agent, with A and D set. -/
def paged (s : State) : State :=
  physPlaced (physPlaced (physPlaced s 0x10000 8 0x11007) 0x11000 8 0x12007) 0x12000 8 0x400000E7
theorem page_level {va : Nat} (h : va < 4096) (n : Nat) : va / levelSize n = 0 :=
  Nat.div_eq_of_lt (Nat.lt_of_lt_of_le (m := 2 ^ 12) h (Nat.pow_le_pow_right (by omega) (Nat.le_add_right 12 (9 * n))))
theorem page_radix {va : Nat} (h : va < 4096) (s : State) : ∀ n t u w, s.radixFrom va n t u w = s.radixFrom 0 n t u w
  | 0, t, u, w => by
    rw [State.radixFrom, State.radixFrom, page_level h, page_level (va := 0) (by omega)]
  | n + 1, t, u, w => by
    rw [State.radixFrom, State.radixFrom, page_level h, page_level (va := 0) (by omega)]
    simp only [page_radix h s n]
theorem page_leaf {va : Nat} (h : va / 0x200000 = 0 / 0x200000) (dev : Nat) (e : Word) : hashLeaf dev va e = hashLeaf dev 0 e := by
  unfold hashLeaf; rw [h]
theorem page_probe {va : Nat} (h : va / 0x200000 = 0 / 0x200000) (s : State) (b : Nat) (o : Bool) (t n : Nat) :
    s.hashProbe b va o t n = s.hashProbe b 0 o t n := by
  unfold State.hashProbe; simp only [page_leaf h]
theorem page_hash {va : Nat} (h : va < 4096) (s : State) (b : Nat) : s.hashLookup b va = s.hashLookup b 0 := by
  have d : va / 0x200000 = 0 / 0x200000 := by omega
  unfold State.hashLookup
  rw [d]
  generalize hashVpn (BitVec.ofNat 36 (0 / 0x200000)) = x
  simp only [page_probe d]
/-- Addresses of the first page are looked up like its first. -/
theorem page_of {va : Nat} (h : va < 4096) (s : State) : s.lookup 0 va = s.lookup 0 0 := by
  simp only [State.lookup, page_hash h, page_radix h]
/-- The leaf of the page. -/
def leaf0 : Leaf := ⟨0, 0x40000000, 0, 0x40000000, true, true, false, false, some 0x12000⟩
/-- Where a state reads the first page: the tables lead to the leaf, which is used before, and its TLB is as a walk leaves it. -/
structure Page (s : State) (cached : State) : Prop where
  leaf : s.lookup 0 0 = .leaf leaf0
  walk : (s.markUsed leaf0 false).cacheLeaf 0 0 leaf0 false = cached
  dev : s.edge.dev = 0
  forwards : s.edge.forwards = []
  frames : s.edge.frames = 228880
theorem page_place {s t : State} (p : Page s t) {va : Nat} (h : va < 4096) : s.placed false ⟨0, 0x40000000 + va⟩ = .found ⟨0, 0x40000000 + va⟩ := by
  have f : s.forward ⟨0, 0x40000000 + va⟩ = ⟨0, 0x40000000 + va⟩ := by
    simp only [State.forward, p.forwards, List.filter_nil, List.foldl_nil]
  have g : (0x40000000 + va) / 0x200000 < 228880 := by omega
  have g' : 0x40000000 + va < 0x8000000000000 := by omega
  simp [State.placed, f, State.reachable, p.dev, State.mapped, p.frames, g, g']
theorem page_walk {s t : State} (p : Page s t) {va : Nat} (h : va < 4096) :
    s.walkTables 0 0 false false va = (.found ⟨0, 0x40000000 + va⟩, t) := by
  have e : s.walkTables 0 0 false false va = (s.placed false ⟨0, 0x40000000 + (va - 0)⟩, (s.markUsed leaf0 false).cacheLeaf 0 0 leaf0 false) := by
    unfold State.walkTables
    rw [page_of h, p.leaf]
    rfl
  rw [e, p.walk, Nat.sub_zero, page_place p h]
/-- What the TLB of copy unit 0 holds after a walk. -/
def entry0 : TlbEntry := ⟨0, 0, 0x40000000, 0, 0x40000000, false, true, false⟩
theorem page_translate {s t : State} (p : Page s t) (q : Page t t) (u : (t.unit 0).tlb = [entry0]) (r : State)
    (i : r = s ∧ (s.unit 0).tlb = [] ∨ r = t) {va : Nat} (h : va < 4096) :
    r.translate 0 0 false false va = (.found ⟨0, 0x40000000 + va⟩, t) := by
  have c : canonical va = true := by unfold canonical; simp; omega
  have v : va % 2 ^ 57 = va := Nat.mod_eq_of_lt (by omega)
  rcases i with ⟨rfl, e⟩ | rfl
  · unfold State.translate
    simp only [c, v, e, List.find?_nil, page_walk p h]
    rfl
  · have f : [entry0].find? (fun e => e.serves 0 false false va) = some entry0 := by
      have : entry0.serves 0 false false va = true := by
        simp [TlbEntry.serves, entry0]; omega
      simp [this]
    unfold State.translate
    simp only [c, v, u, f, page_walk q h]
    have g := page_place q h
    split
    · contradiction
    · split
      · simp [entry0, g]
      · rfl
/-- A slide up of context 0. -/
def slideUp0 : Cmd := Cmd.new 5 issuer0 (.slide true 0 0 4096) []
theorem page_get {s t : State} (p : Page s t) (q : Page t t) (u : (t.unit 0).tlb = [entry0]) (c : Cmd)
    (cb : c.by_ = issuer0) (cd : c.denied = none) (m : Move)
    (i : m.state = s ∧ (s.unit 0).tlb = [] ∨ m.state = t) (l : m.cells = []) {va : Nat} (h : va < 4096) :
    ∃ b k, m.get c 0 va = (.byte b k, { m with state := t }) := by
  have v : va % 2 ^ 64 = va := Nat.mod_eq_of_lt (by omega)
  have e : m.state.translate (coreOf c.by_.g) c.by_.part c.by_.supv false va
      = (.found ⟨0, 0x40000000 + va⟩, t) := by
    rw [cb]
    exact page_translate p q u m.state i h
  have d : c.denied ≠ some (BitVec.ofNat 64 va) := by rw [cd]; exact fun h => nomatch h
  refine ⟨t.mem.read (physKey (0x40000000 + va)), t.poisoned (physKey (0x40000000 + va)), ?_⟩
  have w : Move.readPlace { m with state := t } c.by_ ⟨0, 0x40000000 + va⟩
      = (.byte (t.mem.read (physKey (0x40000000 + va))) (t.poisoned (physKey (0x40000000 + va))), { m with state := t }) := by
    unfold Move.readPlace State.phasedOf Move.ownByte
    rw [cb, if_pos (by simp [q.dev, issuer0])]
    simp [l]
  unfold Move.get Move.getGlobal
  rw [v, if_pos rfl, if_neg d]
  simp only [e, w]
theorem page_flags {s t : State} (p : Page s t) (q : Page t t) (u : (t.unit 0).tlb = [entry0]) (c : Cmd)
    (cb : c.by_ = issuer0) (cd : c.denied = none) :
    ∀ (n a : Nat) (m : Move), (m.state = s ∧ (s.unit 0).tlb = [] ∨ m.state = t) → m.cells = [] →
      a + n ≤ 4096 → (Move.getFlags c m a n).1.live = m.live
  | 0, _, _, _, _, _ => rfl
  | n + 1, a, m, i, l, h => by
    obtain ⟨b, k, e⟩ := page_get p q u c cb cd m i l (va := a) (by omega)
    unfold Move.getFlags
    simp only [e]
    rw [page_flags p q u c cb cd n (a + 1) { m with state := t } (.inr rfl) l (by omega)]
    rfl
/-- Context 0 waits to slide its stack up; its overflow area is the first page. -/
def sliding : State := paged { pooled kernel0 [] [(0, { ctx0 with
  bracket := some .inverse
  arch := { Arch.reset with depth := 1 } })] with cmds := [slideUp0] }
/-- BoundaryAndSlideEvents: an inverse slide whose bytes can be read. -/
theorem witness_inverse_slide :
    sliding.slideDue 0 true = true ∧ sliding.slideCmd 0 = some slideUp0 ∧ sliding.mayRun slideUp0 = true ∧ slideUp0.by_.g = 0
    ∧ (sliding.ctx 0).gated = [] ∧ sliding.ce.saved = []
    ∧ (sliding.slideAt 0 true).toNat = 0 := by decide +kernel
/-- The state after the first byte. -/
def slid : State := (sliding.markUsed leaf0 false).cacheLeaf 0 0 leaf0 false
theorem sliding_page : Page sliding slid := ⟨by decide +kernel, rfl, by decide +kernel, by decide +kernel, by decide +kernel⟩
theorem slid_page : Page slid slid :=
  ⟨by decide +kernel, by decide +kernel, by decide +kernel, by decide +kernel, by decide +kernel⟩
theorem witness_inverse_slide_reads : (Move.getFlags slideUp0 (Move.start sliding) 0 4096).1.live = true :=
  page_flags sliding_page slid_page (by decide +kernel) slideUp0 rfl rfl 4096 0 _ (.inl ⟨rfl, by decide +kernel⟩) rfl (by omega)
/-- A phased kernel of two phases, with its task list. -/
def phased0 (phase : BitVec 32) (l : NSet) : Kernel := { kernel0 with
  desc := BitVec.ofNat 2048 (2 ^ (8 * 0x21) + 2 * 2 ^ (8 * 0x24) + 1 * 2 ^ (8 * 0xA4)), phase := phase, committed := l }
theorem witness_all_committed (phase : BitVec 32) : (phased0 phase (List.range 1024)).allCommitted = true := by
  unfold Kernel.allCommitted phased0
  simp [Config.tasks]
/-- KernelEvents: a first phase that ends, a last phase that ends, and one that does not. -/
theorem witness_calends :
    let s := fun (k : Kernel) => pooled k [] [(0, ctx0)]
    (∀ phase : BitVec 32, phase.toNat < 2 → (s (phased0 phase (List.range 1024))).calendsDue 0 = true)
    ∧ (0 + 1 < (phased0 0 []).phases.toNat ∧ (phased0 1 []).phases.toNat ≤ 1 + 1) ∧ (s (phased0 0 [])).calendsDue 0 = false
    ∧ (phased0 0 []).logs = [] ∧ (phased0 0 []).regions = [] ∧ journalOff (s kernel0) := by
  refine ⟨fun phase h => ?_, by decide +kernel, by decide +kernel, rfl, rfl, by unfold journalOff; decide +kernel⟩
  have e : (pooled (phased0 phase (List.range 1024)) [] [(0, ctx0)]).kernel 0 = some (phased0 phase (List.range 1024)) := rfl
  have p : (phased0 phase (List.range 1024)).phased = true :=
    show u8At (phased0 0 []).desc 0x21 == 1 from by decide +kernel
  have n : (phased0 phase (List.range 1024)).phases.toNat = 2 :=
    show (u32At (phased0 0 []).desc 0x24).toNat = 2 from by decide +kernel
  have i : (pooled (phased0 phase (List.range 1024)) [] [(0, ctx0)]).enginesIdle 0 = true := rfl
  unfold State.calendsDue
  simp only [e, p, n, i, witness_all_committed]
  show (true && true && decide (phase.toNat < 2) && true && true && !false) = true
  simp [h]
/-- KernelEvents: the logs of one task, and of two tasks that wrote one byte. -/
theorem witness_logs :
    let b : LogByte := ⟨0, 0x2000, 7, false⟩
    let one := { phased0 0 [] with logs := [(3, [(0x2000, b)])] }
    let two := { phased0 0 [] with logs := [(3, [(0x2000, b)]), (4, [(0x2000, b)])] }
    one.logs = [(3, [(0x2000, b)])] ∧ two.logs = [(3, [(0x2000, b)]), (4, [(0x2000, b)])] ∧ b.dev = State.reset.edge.dev
    ∧ journalOff State.reset := by unfold journalOff; decide +kernel
/-- KernelEvents: a kernel that has come to its end, one with a command in flight, and a replay at its timeout, 1024 cycles,
and a cycle before it. -/
theorem witness_kernel_ends :
    let s := pooled { kernel0 with ended := some 5 } [] []
    let w := { phased0 0 [] with waitSince := some 0 }
    let r : State := { pooled w [] [] with cycle := 1024 }
    s.completionDue 0 = true ∧ ((commanded (.mzero 0) id).cmds.any fun c => c.by_.kernel == some 0) = true
    ∧ ((r.lateAtomic 0 w).isNone = true ∧ w.waitSince = some 0 ∧ w.ended = none ∧ 0 + w.timeout ≤ r.cycle
      ∧ (∀ c ∈ r.cmds, c.parked = false)
      ∧ 1023 < 0 + w.timeout) := by decide +kernel
/-- KernelEvents: a queue whose timer has run out, and one that has a cycle left; a partition that drains, and one that does
not. -/
theorem witness_watchdog :
    let c : Started := ⟨0, 1, 1, 0, 0, 0, 0, none, none⟩
    let s : State := { pooled kernel0 [] [] with cycle := 2 ^ 20 }
    let t : State := { s with ce := { s.ce with queues := [(0, { queue0 with started := [c] })] } }
    (AMap.find t.ce.parts 0 = some part0 ∧ part0.drain = none ∧ part0.queues.getLsbD 0 = true
      ∧ (∃ c ∈ (t.queue 0).started, c.op ≠ 3) ∧ (t.queue 0).progress + part0.wdt * 2 ^ 20 ≤ t.cycle)
    ∧ ¬((t.queue 0).progress + part0.wdt * 2 ^ 20 ≤ 2 ^ 20 - 1) ∧ (s.queue 0).started = []
    ∧ ({ part0 with drain := some 0 } : Partition).drain = some 0 := by decide +kernel
/-- A row group of class 1, older by 250 age ticks than the cluster's cycle of 300. -/
def aged (stamp : Nat) : State := { State.reset with clusters := [(0, { Cluster.reset with
  ages := 300
  slots := 3
  fifo := [5]
  rows := [(5, { RowGroup.reset with stamp := stamp, cls := 1, valid := true, queued := true })] })] }
/-- LifetimeStoreEvents: a row group at its limit, one a tick younger, and one of LC7; a service slot; a band at its top;
an LQRY into the last bytes of the window. -/
theorem witness_lifetimes :
    let x := (aged 50).row 0 5
    let y := (aged 51).row 0 5
    (x.valid = true ∧ x.cls ≠ 7
      ∧ almanacAt ((aged 50).cluster 0).almanac ((aged 50).cluster 0).band x.cls.toNat
        ≤ min 0xFFFF (((aged 50).cluster 0).ages - x.stamp))
    ∧ ¬(almanacAt ((aged 51).cluster 0).almanac ((aged 51).cluster 0).band y.cls.toNat
        ≤ min 0xFFFF (((aged 51).cluster 0).ages - y.stamp))
    ∧ (((aged 50).cluster 0).fifo = [5] ∧ fifoSlot ((aged 50).cluster 0).share ((aged 50).cluster 0).slots = true)
    ∧ ((aged 50).cluster 0).band ≤ 15 := by decide +kernel
theorem witness_lqry :
    let op : CmdOp := .lqry 0xFFFF 0x7FFF8
    let c := Cmd.new 5 issuer0 op []
    let s := commanded op id
    inFlight s 5 c ∧ c.op = op ∧ c.by_.phased = false ∧ c.by_.g < 96 ∧ s.ce.saved = []
    ∧ c.by_.lo.toNat ≤ (0x7FFF8 : BitVec 32).toNat ∧ (0x7FFF8 : BitVec 32).toNat + 7 ≤ c.by_.hi.toNat ∧ c.by_.hi.toNat < 0x80000 := by
  unfold inFlight; decide +kernel
/-- A product of two steps on rings 1 and 2 of near store, with a full slot of each. -/
def product0 : MatJob := ⟨0, true, 2, 0, 0, 1, 2, 0x0001004000000000, 0x0001004000000000, 0, 0, 0x7FFFF⟩
/-- A machine whose core 0 has a tile in each of the rings 1 and 2. -/
def tiled (op : CmdOp) (f : Cmd → Cmd) : State := { commanded op f with
  cores := [(0, { Core.reset with tail := [(1, 1), (2, 1), (7, 1)] })] }
/-- EngineCompletionEvents: a k-step whose tiles can be read, and a bank with nothing to do. -/
theorem witness_kstep :
    let c := Cmd.new 5 issuer0 (.mma product0) []
    let s := tiled (.mma product0) id
    s.bankHead 0 0 = some c ∧ s.ready c = true ∧ s.pathWaits c = false
    ∧ (match s.stepTiles 0 product0 with
      | some (.ok _) => true
      | _ => false) = true
    ∧ (match ({ s with poison := [nearKey 0 0 / 64] } : State).stepTiles 0 product0 with
      | some (.error e) => e == (4, 0, 2)
      | _ => false) = true
    ∧ product0.aring ≠ product0.bring ∧ c.prog + 1 ≠ product0.count ∧ State.reset.bankHead 0 0 = none := by decide +kernel
/-- EngineCompletionEvents: a k-step of a gang's member. -/
theorem witness_gang_step :
    let op : CmdOp := .gang 1 product0 0x7FFFC
    let c := { Cmd.new 5 issuer0 op [] with parts := [some product0] }
    let s := tiled op fun c => { c with parts := [some product0] }
    s.bankHead 0 0 = some c ∧ s.ready c = true ∧ s.pathWaits c = false ∧ c.parts.getD (0 % 4) none = some product0
    ∧ c.partDone (0 % 4) < product0.count
    ∧ (match s.stepTiles 0 product0 with
      | some (.ok _) => true
      | _ => false) = true := by decide +kernel
/-- EngineCompletionEvents: a drain of one value, whose bytes and completion word lie in near store; a gang whose members are
done; a factor command of order 1. -/
theorem witness_drain :
    let op : CmdOp := .mret 0 true .f32 1 1 0x7FF00 0x7FFFC false
    let c := Cmd.new 5 issuer0 op []
    let s := tiled op id
    let w := s.engineWriteBytes c.by_ c.by_.lo.toNat c.by_.hi.toNat ((s.core 0).drainBytes 0 .f32 1 1 0x7FF00
      ++ (s.core 0).lsfBytes 0 1 1 (0x7FF00 + 4))
    s.bankHead 0 0 = some c ∧ s.ready c = true ∧ s.pathWaits c = false ∧ nearPair 0x7FFFC ∧ c.by_.g < 96 ∧ w.isolated.isNone = true := by
  unfold nearPair; decide +kernel
theorem witness_gang_and_factor :
    let op : CmdOp := .gang 1 product0 0x7FFFC
    let c := { Cmd.new 5 issuer0 op [] with parts := [none] }
    let j := factor0
    let d := Cmd.new 5 issuer0 (.factor j) []
    let far := { j with tile := 0x80000 }
    let run : Cmd → Cmd := fun c => { c with work := some (⟨[[0]], [], [], [0], 0, false, false⟩, 0) }
    let s := commanded (.factor j) run
    let asked : State := { s with ctxs := [(0, { ctx0 with preq := true })] }
    (inFlight (commanded op fun c => { c with parts := [none] }) 5 c ∧ c.gangDone = true ∧ c.failed = 0 ∧ nearPair 0x7FFFC)
    ∧ (inFlight (commanded (.factor j) id) 5 d ∧ (commanded (.factor j) id).canFactor d = true ∧ d.work = none
      ∧ ∀ a ∈ j.loads, (commanded (.factor j) id).loadFault 0 j.lo.toNat j.hi.toNat a = none)
    ∧ (inFlight (commanded (.factor far) id) 5 (Cmd.new 5 issuer0 (.factor far) []) ∧ far.loads = [] ++ 0x80000 :: []
      ∧ (commanded (.factor far) id).loadFault 0 far.lo.toNat far.hi.toNat 0x80000 = some (1, none) ∧ nearPair far.pair)
    ∧ (inFlight s 5 (run d) ∧ s.canFactor (run d) = true ∧ s.stopsFactors 0 = false ∧ (run d).prog < j.n
      ∧ j.n ≤ ({ run d with prog := 1 } : Cmd).prog ∧ (run d).prog + 1 = j.n ∧ 0 + 1 ≠ ({ j with fgeo := 0x802 } : FacJob).n
      ∧ (j.step ⟨[[0]], [], [], [0], 0, false, false⟩ 0).isNone = true
      ∧ (j.step ⟨[[0x3F800000]], [], [], [0], 0, false, false⟩ 0).isSome = true)
    ∧ (inFlight asked 5 (run d) ∧ asked.canFactor (run d) = true ∧ (asked.ctx 0).gen = (run d).by_.gen
      ∧ asked.stopsFactors 0 = true) := by
  unfold inFlight nearPair; decide +kernel
/-- EngineCompletionEvents: a copy, a collective and a direct access whose transfers have ended. -/
theorem witness_transferred :
    let cpy : CmdOp := .cpy 0 0x1000 0
    let coll : CmdOp := .coll 0 0x1000
    let acc : CmdOp := .dpath 1 .rlx .ctx true 0 0x1000 0
    let done := fun (c : Cmd) => { c with prog := 1 }
    let held : State := { commanded coll done with ctxs := [(0, { ctx0 with state := .frozen, freeze := some .debug, attach := true })] }
    (∀ op ∈ [cpy, coll, acc], transferred (commanded op done) 5 (done (Cmd.new 5 issuer0 op [])))
    ∧ (transferred held 5 (done (Cmd.new 5 issuer0 coll [])) ∧ held.mayPace 0 1 = false ∧ (commanded coll done).mayPace 0 1 = true)
    ∧ (u8At (0 : BitVec 512) 6).testBit 7 = false ∧ nearPair (u64At (0 : BitVec 512) 0x38) ∧ nearPair (u64At (0 : BitVec 256) 16) := by
  unfold transferred inFlight nearPair; decide +kernel
/-- A weight stream of two tiles of 256 bytes from the first page, into core 0. -/
def packet0 : BitVec 512 := BitVec.ofNat 512 (leNat ([1, 0, 0, 0] ++ leBytes 4 2 ++ leBytes 16 0 ++ leBytes 4 256))
/-- EngineCompletionEvents: a weight stream that has ended, one whose next tile has room, and none. -/
theorem witness_weights :
    let op : CmdOp := .wstrm packet0 0x1000 0x100
    let c := { Cmd.new 5 issuer0 op [] with ord := 1 }
    let d := { c with prog := 2 }
    let here := fun (s : State) => { s with cycle := 1 }
    let done := here (commanded op fun c => { c with prog := 2, ord := 1 })
    let older := { Cmd.new 4 issuer0 op [] with ord := 1 }
    let after := { d with waits := [4] }
    (done.streaming 0 = some d ∧ (u32At packet0 4).toNat ≤ d.prog ∧ d.hold = none ∧ d.fail = none ∧ nearPair (u64At packet0 0x20)
      ∧ done.ready d = true ∧ ({ done with cmds := [older, after] } : State).ready after = false)
    ∧ ((here (commanded op fun c => { c with ord := 1 })).streaming 0 = some c ∧ c.prog + 1 < (u32At packet0 4).toNat
      ∧ (commanded op id).bufferRoom 0 packet0 ((wbSlots 0x100).getD 1) = true) ∧ State.reset.streaming 0 = none := by
  unfold nearPair; decide +kernel
/-- The weight stream, with the first page mapped, and the state after its first byte. -/
def weighing : State := paged (commanded (.wstrm packet0 0x1000 0x100) id)
def weighed : State := (weighing.markUsed leaf0 false).cacheLeaf 0 0 leaf0 false
theorem weighing_page : Page weighing weighed := ⟨by decide +kernel, rfl, by decide +kernel, by decide +kernel, by decide +kernel⟩
theorem weighed_page : Page weighed weighed :=
  ⟨by decide +kernel, by decide +kernel, by decide +kernel, by decide +kernel, by decide +kernel⟩
/-- EngineCompletionEvents: a tile whose bytes can be read. -/
theorem witness_tile : (weighing.tileBytes (Cmd.new 5 issuer0 (.wstrm packet0 0x1000 0x100) []) packet0).1.live = true := by
  have h1 : (u8At packet0 1).testBit 0 = false := by decide +kernel
  have h2 : (u64At packet0 8).toNat = 0 := by decide +kernel
  have h3 : (u32At packet0 0x18).toNat = 256 := by decide +kernel
  have f := page_flags weighing_page weighed_page (by decide +kernel) (Cmd.new 5 issuer0 (.wstrm packet0 0x1000 0x100) []) rfl rfl
    256 (0 + 0 * 256) (Move.start weighing) (.inl ⟨rfl, by decide +kernel⟩) rfl (by omega)
  have g : (Move.start weighing).live = true := rfl
  rw [g] at f
  unfold State.tileBytes
  rw [if_neg (by rw [h1]; exact Bool.false_ne_true), h2, h3,
    show (Cmd.new 5 issuer0 (.wstrm packet0 0x1000 0x100) []).prog = 0 from rfl]
  generalize (Move.getFlags _ _ _ 256) = r at f ⊢
  exact f
/-- EngineCompletionEvents: a stream of near store that may fetch, and one whose buffer holds it whole. -/
theorem witness_prefetch :
    let d : BitVec 512 := 0x000100010001_00000100_0007FF00
    let s := at_ 0 { ctx0 with arch := { Arch.reset with streams := [(7, ⟨d, false, 0, 0, 0⟩)] } }
    let t := at_ 0 { ctx0 with arch := { Arch.reset with streams := [(7, ⟨d, false, 0, 0, 0⟩)] }, fetched := [(7, 1)] }
    AMap.find (s.ctx 0).arch.streams 7 = some ⟨d, false, 0, 0, 0⟩ ∧ s.canFetch 0 7 = true ∧ t.canFetch 0 7 = false
    ∧ streamDec d = false
    ∧ (match s.streamBytes 0 (streamUnit d (AMap.get 0 (s.ctx 0).fetched 7)) with
      | .ok _ => true
      | .error _ => false) = true := by decide +kernel
/-- The packet of a copy of 256 bytes from 0x1000 to the end of near store. -/
def copy0 : BitVec 512 := BitVec.ofNat 512 (leNat ([0, 0, 1, 1] ++ leBytes 4 0 ++ leBytes 8 0x1000 ++ leBytes 8 0x7FF00
  ++ leBytes 4 256 ++ leBytes 2 1 ++ leBytes 2 1 ++ leBytes 24 0 ++ leBytes 8 0x2000))
/-- PlainCopyMovesItsRow: that copy, with its completion word elsewhere. -/
theorem witness_plain_copy :
    let op : CmdOp := .cpy copy0 0x40 0
    let c := Cmd.new 5 issuer0 op []
    let s := commanded op id
    (inFlight s 5 c ∧ c = Cmd.new 5 c.by_ c.op c.waits ∧ (s.unit (coreOf c.by_.g)).side = [] ∧ c.by_.phased = false)
    ∧ (u16At copy0 0 = 0 ∧ u8At copy0 2 = 1 ∧ u8At copy0 3 = 1 ∧ u16At copy0 0x1C = 1 ∧ u16At copy0 0x1E = 1
      ∧ u32At copy0 0x30 = 0 ∧ (u8At copy0 6).testBit 7 = false ∧ s.poison = [] ∧ s.ce.saved = [] ∧ c.by_.g < 96)
    ∧ ((u64At copy0 8).toNat = 0x1000 ∧ (u64At copy0 0x10).toNat = 0x7FF00 ∧ (u32At copy0 0x18).toNat = 256)
    ∧ (0x1000 + 256 ≤ 0x80000 ∧ 0x7FF00 + 256 ≤ 0x80000 ∧ c.by_.lo.toNat ≤ 0x1000 ∧ 0x7FF00 + 256 ≤ c.by_.hi.toNat + 1
      ∧ 0x1000 + 256 ≤ 0x7FF00)
    ∧ nearPair (u64At copy0 0x38) ∧ fld (u64At copy0 0x38) 31 0 + 4 ≤ 0x7FF00 := by
  unfold inFlight nearPair; decide +kernel
/-- The packet of a migration of two pages of 1 GiB from virtual address 0, with its targets at 0x7000. -/
def move0 : BitVec 512 := BitVec.ofNat 512 (leNat (leBytes 8 0 ++ leBytes 4 2 ++ [2, 0, 0, 0] ++ leBytes 8 0x7000))
/-- MigrationAndLinkEvents: a page with a leaf and a target, and one without a leaf; a leaf whose frame is on device 3; a page
that comes to its commit. -/
theorem witness_migration :
    let op : CmdOp := .pmig move0 0x1000 0x2000
    let c := Cmd.new 5 issuer0 op []
    let s := paged (physPlaced (commanded op id) 0x7000 8 0x80000000)
    let w := { c with prog := 2, pos := 0x80000000 }
    let u := paged (commanded op fun _ => w)
    (inFlight s 5 c ∧ c.prog % 4 = 0 ∧ c.prog / 4 < (u32At move0 8).toNat ∧ s.migLeaf c.by_.part move0 0 = some leaf0
      ∧ s.migTarget move0 0 = some 0x80000000 ∧ leaf0.entry = some 0x12000 ∧ leaf0.dev = s.edge.dev
      ∧ s.frameReached ⟨leaf0.dev, leaf0.pbase⟩ leaf0.size = true ∧ s.frameReached ⟨0, 0x80000000⟩ leaf0.size = true
      ∧ u8At move0 0xD ≠ 2 ∧ s.frameReached ⟨3, leaf0.pbase⟩ leaf0.size = false ∧ s.shooting 5 = false)
    ∧ ((physPlaced s 0x12000 8 (0x400000E7 + 14 * 2 ^ 53)).migLeaf c.by_.part move0 0).map Leaf.dev = some 3
    ∧ (inFlight u 5 w ∧ w.prog % 4 = 2 ∧ u.migLeaf w.by_.part move0 0 = some leaf0 ∧ u.edge.park = [])
    ∧ (inFlight (commanded op id) 5 c ∧ c.prog / 4 + 1 < (u32At move0 8).toNat
      ∧ (commanded op id).migLeaf c.by_.part move0 0 = none)
    ∧ (inFlight (paged (commanded op id)) 5 c ∧ (paged (commanded op id)).migLeaf c.by_.part move0 0 = some leaf0
      ∧ (paged (physPlaced (commanded op id) 0x7000 8 0x80001000)).migTarget move0 0 = none) := by
  unfold inFlight; decide +kernel
/-- MigrationAndLinkEvents: a page whose shootdown device 3 has still to report. -/
theorem witness_shooting :
    let op : CmdOp := .pmig move0 0x1000 0x2000
    let w := commanded op fun c => { c with prog := 1 }
    let s : State := { w with edge := { w.edge with shots := [(5, 3)] } }
    inFlight s 5 { Cmd.new 5 issuer0 op [] with prog := 1 } ∧ s.shooting 5 = true := by unfold inFlight; decide +kernel
/-- MigrationAndLinkEvents: a device of the domain and one outside it, a closed interface and a device in reset; the last
bytes of the installed frames; a write inside an open window and one that straddles its start, with room to park and without;
a forwarded write; a parked write of a window that a migration of device 3 ends. -/
theorem witness_link :
    let s : State := { State.reset with edge := { Edge.reset with domain := [3] } }
    let win : Window := ⟨0, 3, 7, 0x1000, 0x1000⟩
    let entry : Parked := ⟨0x1FFF, [5], [], 3, 0x1FFF⟩
    let w : State := { s with edge := { s.edge with windows := [win], park := List.replicate 1023 entry } }
    let f : State := { w with edge := { w.edge with park := List.replicate 1024 entry } }
    let fwd : Forward := ⟨0, 3, 7, 0x1000, 0x1000, 0, 0x4000⟩
    let on : Forward := ⟨0, 3, 8, 0x4000, 0x1000, 0, 0x8000⟩
    (linked s 3 ∧ ({ s.edge with versions := [(Interface.link.index, none)] } : Edge).closed .link = true
      ∧ 4 ∉ s.edge.domain ∧ ({ s.edge with locked := true } : Edge).locked = true ∧ s.edge.forwards = [] ∧ s.edge.windows = [])
    ∧ (s.mappedRange (0x200000 * 228880 - 8) 8 = true ∧ s.mappedRange 0 0 = true ∧ s.poison = [] ∧ journalOff s)
    ∧ (linked w 3 ∧ w.edge.windows = [win] ∧ w.edge.forwards = [] ∧ win.home = w.edge.dev ∧ 0x1FFF + 1 ≤ win.old + win.size
      ∧ win.old ≤ 0x1FFF ∧ w.edge.park.length < 1024 ∧ 1024 ≤ f.edge.park.length
      ∧ 0xFFF < win.old ∧ win.old < 0xFFF + 2 ∧ w.mappedRange 0xFFF (win.old - 0xFFF) = true)
    ∧ (fwd.home = s.edge.dev ∧ fwd.dev = s.edge.dev ∧ fwd.old ≤ 0x1FFF ∧ 0x1FFF < fwd.old + fwd.size
      ∧ 0x1FFF + 1 ≤ fwd.old + fwd.size ∧ s.mappedRange (fwd.pa + (0x1FFF - fwd.old)) 1 = true ∧ fwd.old + fwd.size ≤ fwd.pa
      ∧ on.home = s.edge.dev ∧ on.dev = s.edge.dev ∧ on.old ≤ 0x4FFF ∧ 0x4FFF < on.old + on.size
      ∧ s.mappedRange (on.pa + (0x4FFF - on.old)) 1 = true)
    ∧ ((win.owner == 3 && win.cmd == 7) = true ∧ win.old ≤ entry.pa ∧ entry.pa < win.old + win.size ∧ entry.poison = []
      ∧ s.mappedRange (0x4000 + (entry.pa - win.old)) entry.bytes.length = true) := by
  unfold linked journalOff; decide +kernel
/-- NoStepIsRefused: a step that stops: the fetch of a parcel past the LTS, inside a block, at a context's turn; a context that
its debugger has go on for one bundle. -/
theorem witness_fault :
    let s := first.modArch 0 fun a => { a with pc := 0x2000000, crc := some (0, 0) }
    let d : State := { debugged with inbox := [(0, .dbgctlStep 0)] }
    (match step s with
     | .fault f => f == .fetchOutsideLts
     | _ => false) = true
    ∧ (s.dueStep.isNone = true ∧ s.inboxDue = none ∧ s.turn < 96 ∧ s.issues s.turnContext = true
      ∧ (s.myKernel s.turnContext).isSome = true)
    ∧ (d.dueStep.isNone = true ∧ d.inboxDue = some (.dbgctlStep 0) ∧ d.hostOpen = true ∧ (d.ctx 0).state = .frozen
      ∧ (d.ctx 0).freeze = some .debug) := by decide +kernel

/-- TransferAndTrapResults: a BKPT whose bundle has issued beside a landing that comes due later, and a TRAP beside one that an
earlier bundle has left poisoned at its boundary. -/
theorem witness_trap_beside_landing :
    let p : Pending := ⟨.scalar, 1, 5, 3, fullScalar, 0, 0, 0, some 0x40, 2, none, none⟩
    let c : Cause := ⟨0x11, 3, 0, 0, false, 0, 0, false, 4⟩
    let s : Ctx → State := fun x => { at_ 0 { x with captured := some proof0 } with iss := { Issue.reset with reps := 1, after := some c } }
    let due := s { ctx0 with arch := { Arch.reset with tick := 5, pend := [p] } }
    let far := s { ctx0 with arch := { Arch.reset with tick := 3, pend := [p] } }
    (due.me.badLanding = some p ∧ due.me.causes = [] ∧ due.me.newest = some proof0 ∧ proof0.arch.tick ≤ c.issued)
    ∧ (far.me.badLanding.isNone = true ∧ ∀ q ∈ far.me.arch.pend, q.poison = none ∨ far.me.arch.tick + 1 < q.tick)
    ∧ ((due.finishTrap 0 c).ctx 0).trapCause = 0x04 + 2 ^ 32 * 0 ∧ ((due.finishTrap 0 c).ctx 0).faddr = 0x40
    ∧ ((far.finishTrap 0 c).ctx 0).trapCause = 0x11 + 2 ^ 32 * 3 := by decide +kernel
/-- ProofVigilAndWaitaResults: a bundle that stalls on a WAITA for a nonzero value at a word that is zero, with an ERD of MSTAT
that comes due at its tick. -/
theorem witness_stalled_bundle :
    let p : Pending := { (⟨.scalar, 1, 6, 7, fullScalar, 0, 0, 0, none, 0, none, none⟩ : Pending) with sample := some 0x012 }
    let s := at_ 0 { ctx0 with arch := { Arch.reset with tick := 6, pend := [p] } }
    let t := s.issueBundle [encodeWord (.waita 2 0 .ctx false .ne)] 17 1 0
    (t.iss.verdict == .stall) = true ∧ t.me.arch.pend = [{ p with sample := none }] ∧ p.tick ≤ t.me.arch.tick := by decide +kernel
/-- ParcelRunsItsBundle: a bundle that writes a byte at its issue, in a handler; the second turn of a core whose first context has
written one, with nothing to issue. -/
theorem witness_writes_at_issue :
    let s : State := { at_ 3 inHandler with iss := { Issue.reset with reps := 1, direct := [(0x40, 7)] } }
    let u : State := { State.reset with turn := 1, late := [(0, .store [(0x40, 7)])] }
    (s.iss.after.isNone = true ∧ s.iss.eret = false ∧ s.iss.direct ≠ [] ∧ s.iss.atomic = false)
    ∧ (u.turn % 2 = 1 ∧ u.turn < 96 ∧ u.issues u.turnContext = false ∧ nearKey (coreOf 0) 0x40 < 0x10000000)
    ∧ (s.complete 0).late = [(0, .store [(0x40, 7)])] ∧ (s.complete 0).mem = [] := by decide +kernel
/-- MemoryReadsBackWhatIsWritten: a byte written in a flawed granule. -/
theorem witness_partial_write :
    let s : State := { State.reset with poison := [1], flawed := [1] }
    let t := s.mergeCells [(64, 5)]
    journalOff s ∧ 1 ∈ s.poison ∧ (64, (5 : Byte)).1 / 64 = 1 ∧ 1 * 64 + 1 ∉ [(64, (5 : Byte))].map Prod.fst
    ∧ t.poison = [1] ∧ t.flawed = [] ∧ t.mem.read 64 = 5 := by unfold journalOff; decide +kernel
/-- QueueRegisterEvents: a request whose logged store waits in a copy unit that is tied to a frozen context. -/
theorem witness_tied_answer :
    let r : PageReq := ⟨0, 0, 0, 0, false, none⟩
    let e : SideEntry := ⟨5, 0, 0, [], 0⟩
    let s : State := { State.reset with
      ctxs := [(0, { ctx0 with state := .frozen, freeze := some .debug, attach := true })]
      units := [(0, { CopyUnit.reset with side := [e] })]
      edge := { Edge.reset with fq := [(0, r)], fqWrite := 1 } }
    s.hostOpen = true ∧ r.answer ≠ some false ∧ s.tied r.unit = true ∧ e.req = s.edge.fqRead % 2048
    ∧ (match execFqptrWrite 1 s with
      | .next t => ((t.unit 0).due == [(0, r)])
      | _ => false) = true := by decide +kernel
/-- BoundaryAndSlideEvents: a TRAP that has waited for its boundary. -/
theorem witness_waiting_trap :
    let e : Cause := ⟨0x11, 3, 0, 0, false, 0, 0, false, 0⟩
    let s := at_ 0 { ctx0 with causes := [e] }
    (s.ctx 0).state = .running ∧ (s.ctx 0).badLanding.isNone = true ∧ (s.ctx 0).causes = [e] ∧ (s.ctx 0).intrap = false := by
  decide +kernel
/-- EngineCompletionEvents: a collective of two ranks, of which rank 1 lies at device 9, outside the domain. -/
theorem witness_astray :
    let p : BitVec 512 := BitVec.ofNat 512 (leNat ([2, 0] ++ leBytes 2 2 ++ leBytes 28 0 ++ leBytes 8 0x5000))
    let s := physPlaced (commanded (.coll p 0x1000) id) 0x5002 2 9
    let c := Cmd.new 5 issuer0 (.coll p 0x1000) []
    inFlight s 5 c ∧ c.prog = 0 ∧ c.left = [] ∧ s.mayRun c = true ∧ s.mayPace (coreOf c.by_.g) 1 = true ∧ s.sideLogged c = false
    ∧ s.collTable p = some [0, 9] ∧ [0, 9][1]? = some 9 ∧ 1 ≠ u16At p 4 ∧ 9 ≠ s.edge.dev ∧ 9 ∉ s.edge.domain
    ∧ nearPair (u64At p 0x38) ∧ s.ce.saved = [] := by unfold inFlight nearPair; decide +kernel
/-- MigrationAndLinkEvents, KernelEvents: a frame that has moved to device 9, outside the domain; a logged byte of it while the
link is closed. -/
theorem witness_moved_away :
    let f : Forward := ⟨0, 3, 7, 0x1000, 0x1000, 9, 0x4000⟩
    let s : State := { State.reset with edge := { Edge.reset with domain := [3], forwards := [f] } }
    let shut : State := { s with edge := { s.edge with versions := [(Interface.link.index, none)] } }
    linked s 3 ∧ f.home = s.edge.dev ∧ f.dev ≠ s.edge.dev ∧ f.dev ∉ s.edge.domain ∧ f.old ≤ 0x1FFF ∧ 0x1FFF < f.old + f.size
    ∧ (shut.forward ⟨0, 0x1FFF⟩).dev ≠ shut.edge.dev ∧ shut.edge.closed .link = true := by unfold linked; decide +kernel
/-- SlotFrames, StepRunsTheInstruction: what context A has written at its issue reaches memory after the turn of context B. -/
theorem test_first_turn_is_hidden :
    let s : State := { at_ 3 inHandler with turn := 0, iss := { Issue.reset with reps := 1, direct := [(0x40, 7)] } }
    let t := s.endTurn (s.complete 0) 0
    t.mem = [] ∧ t.turn = 1 ∧ (t.idleTurn).mem = [(nearKey 0 0x40, 7)] ∧ t.midPair = true ∧ t.idleTurn.midPair = false := by decide +kernel
/-- ReturnUndoesEntry, BoundaryAndSlideEvents: the journal is off. -/
theorem witness_journal_is_off : journalOff (at_ 0 trapped) ∧ journalOff (pooled kernel0 [] [(0, ctx0)]) := by
  unfold journalOff; decide +kernel

end Sys2Proof.Tests
end

section
/-!
PROOFS. Facts about the state that the statements of the scope share: kernels and the pool, what the journal and a near store
leave alone, the fields of a save slot.
-/

namespace Sys2Proof.Machine

open Sys2Proof.Claims (journalOff)

/-! Contexts. -/

theorem State.ctx_congr {s t : State} (h : t.ctxs = s.ctxs) (g : Nat) : t.ctx g = s.ctx g := by
  rw [State.ctx, h]; rfl

/-! Lists of numbered values as finite maps. -/

/-- Values put under the keys from n + 1 on leave the keys up to n alone. -/
theorem AMap.get_putFrom_below {α : Type} (d : α) (l : List α) (n : Nat) (m : AMap α) {j : Nat} (h : j ≤ n) :
    AMap.get d ((l.zipIdx n).foldl (fun m p => AMap.put m (p.2 + 1) p.1) m) j = AMap.get d m j := by
  induction l generalizing n m with
  | nil => rfl
  | cons a t ih =>
    rw [List.zipIdx_cons, List.foldl_cons, ih (n + 1) _ (by omega), AMap.get_put_other d m a (by omega)]

/-- Values put under the keys from n + 1 on read back in order, and what follows them is as before. -/
theorem AMap.get_putFrom {α : Type} (d : α) (l : List α) (n : Nat) (m : AMap α) (i : Nat) :
    AMap.get d ((l.zipIdx n).foldl (fun m p => AMap.put m (p.2 + 1) p.1) m) (n + i + 1)
      = l.getD i (AMap.get d m (n + i + 1)) := by
  induction l generalizing n m i with
  | nil => rfl
  | cons a t ih =>
    rw [List.zipIdx_cons, List.foldl_cons]
    cases i with
    | zero => rw [AMap.get_putFrom_below d t (n + 1) _ (by omega)]; simp
    | succ i =>
      rw [show n + (i + 1) + 1 = (n + 1) + i + 1 by omega, ih (n + 1) _ i, AMap.get_put_other d m a (by omega)]
      rfl

/-- A map that lists a value for each of some keys, all different, holds them. -/
theorem AMap.find_map_of_mem {α : Type} {key : Nat → Nat} (hk : Function.Injective key) (f : Nat → α) {l : List Nat} {i : Nat}
    (h : i ∈ l) : AMap.find (l.map fun j => (key j, f j)) (key i) = some (f i) := by
  induction l with
  | nil => cases h
  | cons a t ih =>
    rw [List.map_cons, AMap.find]
    split
    · rename_i e; rw [hk e]
    · rename_i e
      exact ih ((List.mem_cons.1 h).resolve_left fun x => e (congrArg key x))

/-! Kernels and the pool (R18, R223, R233). -/

@[simp] theorem State.modKernel_ctxs (s : State) (k : Nat) (f : Kernel → Kernel) : (s.modKernel k f).ctxs = s.ctxs := by
  unfold State.modKernel; split <;> rfl
@[simp] theorem State.modKernel_mem (s : State) (k : Nat) (f : Kernel → Kernel) : (s.modKernel k f).mem = s.mem := by
  unfold State.modKernel; split <;> rfl
@[simp] theorem State.modKernel_pool (s : State) (k : Nat) (f : Kernel → Kernel) :
    (s.modKernel k f).ce.pool = s.ce.pool := by
  unfold State.modKernel; split <;> rfl
theorem State.kernel_modKernel_self {s : State} {k : Nat} {x : Kernel} (h : s.kernel k = some x) (f : Kernel → Kernel) :
    (s.modKernel k f).kernel k = some (f x) := by
  unfold State.modKernel
  rw [h]
  exact AMap.find_put_self _ _ _

@[simp] theorem State.loadImages_ctxs (s : State) (c k : Nat) : (s.loadImages c k).ctxs = s.ctxs := by
  unfold State.loadImages; split <;> rfl
@[simp] theorem State.loadImages_mem (s : State) (c k : Nat) : (s.loadImages c k).mem = s.mem := by
  unfold State.loadImages; split <;> rfl
@[simp] theorem State.loadImages_ce (s : State) (c k : Nat) : (s.loadImages c k).ce = s.ce := by
  unfold State.loadImages; split <;> rfl

@[simp] theorem State.notePick_ctxs (s : State) (k : Kernel) : (s.notePick k).ctxs = s.ctxs := by
  unfold State.notePick; split <;> rfl
@[simp] theorem State.notePick_mem (s : State) (k : Kernel) : (s.notePick k).mem = s.mem := by
  unfold State.notePick; split <;> rfl
@[simp] theorem State.notePick_poison (s : State) (k : Kernel) : (s.notePick k).poison = s.poison := by
  unfold State.notePick; split <;> rfl
@[simp] theorem State.notePick_pool (s : State) (k : Kernel) : (s.notePick k).ce.pool = s.ce.pool := by
  unfold State.notePick; split <;> rfl
@[simp] theorem State.notePick_kernel (s : State) (k : Kernel) (j : Nat) : (s.notePick k).kernel j = s.kernel j := by
  unfold State.notePick State.kernel; split <;> rfl
/-- The save area of a partition stays where it is when a pickup is noted. -/
@[simp] theorem State.notePick_slotBase (s : State) (k : Kernel) (part g : Nat) :
    (s.notePick k).slotBase part g = s.slotBase part g := by
  unfold State.notePick
  split
  · rename_i p hp
    simp only [State.slotBase, AMap.find_put]
    split
    · rename_i e; rw [e, hp]; rfl
    · rfl
  · rfl

/-! What the journal and a write into poisoned granules leave alone (R193, R231). -/

/-- Entries for granules cost numbers of the journal, and change nothing else of the command engine. -/
theorem State.journalPoison_ce (s : State) (l : List Nat) : ∃ n, (s.journalPoison l).ce = { s.ce with jseq := n } := by
  refine foldl_keeps (P := fun t : State => ∃ n, t.ce = { s.ce with jseq := n }) _ (fun t g ht => ?_) l s ⟨_, rfl⟩
  obtain ⟨n, hn⟩ := ht
  obtain e | ⟨e, he⟩ := t.journalGranule_cases g
  · exact ⟨n, by rw [e, hn]⟩
  · exact ⟨n + 1, by rw [he, State.journal_ce, hn]⟩
theorem State.mergeCells_ce (s : State) (l : List (Nat × Byte)) : ∃ n, (s.mergeCells l).ce = { s.ce with jseq := n } :=
  ((s.writeCells l).addPoison (s.poisonHits l)).journalPoison_ce (s.poisonHits l)
theorem State.writePhys_ce (s : State) (pa : Nat) (l : List Byte) : ∃ n, (s.writePhys pa l).ce = { s.ce with jseq := n } := by
  unfold State.writePhys
  split
  · exact ⟨_, rfl⟩
  · exact s.mergeCells_ce _

theorem physKey_ge (pa : Nat) : 0x100000000000 ≤ physKey pa := by
  unfold physKey; split <;> omega

/-- The journal is off, or lies elsewhere: it writes no byte of near store. -/
theorem State.read_journal (s : State) (e : JournalEntry) {k : Nat} (h : journalOff s ∨ k < 0x10000000) :
    (s.journal e).mem.read k = s.mem.read k := by
  rcases h with h | h
  · rw [s.journal_off e h]
  · simp only [State.journal]
    split
    · rfl
    · refine State.read_writeCells_other _ _ fun c hc => ?_
      obtain ⟨p, -, rfl⟩ := List.mem_map.1 hc
      have := physKey_ge (fld s.ce.jcfg 51 12 * 4096 + (s.ce.jseq - 1) % 2 ^ fld s.ce.jcfg 4 0 * 64)
      simp only [ne_eq]
      omega
theorem State.read_journalPoison (s : State) (l : List Nat) {k : Nat} (h : journalOff s ∨ k < 0x10000000) :
    (s.journalPoison l).mem.read k = s.mem.read k := by
  refine (foldl_keeps (P := fun t : State => t.ce.jcfg = s.ce.jcfg ∧ t.mem.read k = s.mem.read k) _ (fun t g ht => ?_) l s
    ⟨rfl, rfl⟩).2
  obtain ⟨hj, hm⟩ := ht
  obtain e | ⟨e, he⟩ := t.journalGranule_cases g
  · rw [e]; exact ⟨hj, hm⟩
  · rw [he, State.journal_ce, State.read_journal t e (by rwa [journalOff, hj])]
    exact ⟨hj, hm⟩

/-- What a write into near store tells the journal does not reach a key: the journal is off, no granule is poisoned, or the key
lies below everything that the journal can write. -/
def State.journalSpares (s : State) (k : Nat) : Prop := journalOff s ∨ s.poison = [] ∨ k < 0x10000000

theorem State.mergeCells_unpoisoned {s : State} (h : s.poison = []) (l : List (Nat × Byte)) : s.mergeCells l = s.writeCells l :=
  s.mergeCells_clean l (by simp [State.poisonHits, h])
theorem State.journalSpares_mergeCells {s : State} {k : Nat} (h : s.journalSpares k) (l : List (Nat × Byte)) :
    (s.mergeCells l).journalSpares k := by
  rcases h with h | h | h
  · obtain ⟨n, hn⟩ := s.mergeCells_ce l
    exact .inl (by rw [journalOff, hn]; exact h)
  · exact .inr (.inl (by rw [State.mergeCells_unpoisoned h]; simp [State.writeCells, h]))
  · exact .inr (.inr h)
/-- A byte that no cell names, and that the journal spares, is as before. -/
theorem State.read_mergeCells_other {s : State} {k : Nat} (hk : s.journalSpares k) {l : List (Nat × Byte)}
    (h : ∀ c ∈ l, c.1 ≠ k) : (s.mergeCells l).mem.read k = s.mem.read k := by
  have plain := s.read_writeCells_other l h
  have spared := ((s.writeCells l).addPoison (s.poisonHits l)).read_journalPoison (s.poisonHits l) (k := k)
  rcases hk with hj | hp | hl
  · exact (spared (.inl hj)).trans plain
  · rw [State.mergeCells_unpoisoned hp, plain]
  · exact (spared (.inr hl)).trans plain
/-- A byte of near store that is written alone reads back. -/
theorem State.read_mergeCells_one (s : State) {k : Nat} (b : Byte) (hk : k < 0x10000000) :
    (s.mergeCells [(k, b)]).mem.read k = b :=
  (State.read_journalPoison _ _ (.inr hk)).trans (Memory.read_write_self _ _ _)

/-! Numbers in memory (R6). -/

theorem leNat_lt (l : List Byte) : leNat l < 256 ^ l.length := by
  induction l with
  | nil => simp [leNat]
  | cons b t ih =>
    have := b.isLt
    rw [leNat, List.length_cons, Nat.pow_succ]
    omega
theorem readNat_lt (m : Memory) (key n : Nat) : readNat m key n < 256 ^ n := by
  simpa [readNat, readKeys] using leNat_lt (readKeys m key n)
/-- A register of 8 n bits holds the number of n bytes. -/
theorem toNat_ofNat_readNat (m : Memory) (key : Nat) {n w : Nat} (h : w = 8 * n) :
    (BitVec.ofNat w (readNat m key n)).toNat = readNat m key n := by
  have bound : readNat m key n < 2 ^ w := by
    rw [h, Nat.pow_mul]
    exact readNat_lt m key n
  rw [BitVec.toNat_ofNat, Nat.mod_eq_of_lt bound]

end Sys2Proof.Machine
end

section
/-!
PROOFS. The events of a context's life but for its resume: pickup, spawned start, seal, freeze and save.
-/

namespace Sys2Proof.Machine

open Sys2Proof.Claims (journalOff)

/-! Pickup (R17, R223). -/

@[simp] theorem State.record_ctxs (s : State) (kid : Nat) (k : Kernel) (e : BitVec 128) : (s.record kid k e).ctxs = s.ctxs := by
  unfold State.record
  split
  · rfl
  · split <;> simp
@[simp] theorem State.record_pool (s : State) (kid : Nat) (k : Kernel) (e : BitVec 128) :
    (s.record kid k e).ce.pool = s.ce.pool := by
  unfold State.record
  split
  · rfl
  · split
    · simp
    · obtain ⟨n, hn⟩ := s.writePhys_ce (k.logEntry (k.recCount % k.logCapacity)) (leBytes 16 e.toNat)
      simp [hn]
/-- The log of a kernel takes its decision or gives up an entry: no context and no record changes. -/
theorem State.pickDecided_keeps (s : State) (kid : Nat) (k : Kernel) (r : Record) :
    (s.pickDecided kid k r).ctxs = s.ctxs ∧ (s.pickDecided kid k r).ce.pool = s.ce.pool := by
  unfold State.pickDecided
  dsimp only
  cases k.replays with
  | false => split <;> simp
  | true => cases s.nextEntry k 2 0 <;> dsimp only [if_true] <;> split <;> simp

/-- The state of a pickup before its context is set: images loaded, the pickup noted, the record out of the pool. -/
def State.recordTaken (s : State) (g : Nat) (r : Record) (k : Kernel) : State :=
  let s1 := (if (s.core (coreOf g)).loaded = some r.kernel then s else s.loadImages (coreOf g) r.kernel).notePick k
  { s1 with ce := { s1.ce with pool := s1.ce.pool.filter fun x => x.order != r.order, nextGen := s1.ce.nextGen + 1 } }
theorem State.recordTaken_ctxs (s : State) (g : Nat) (r : Record) (k : Kernel) : (s.recordTaken g r k).ctxs = s.ctxs := by
  unfold State.recordTaken
  dsimp only
  split <;> simp
theorem State.recordTaken_pool (s : State) (g : Nat) (r : Record) (k : Kernel) :
    (s.recordTaken g r k).ce.pool = s.ce.pool.filter fun x => x.order != r.order := by
  unfold State.recordTaken
  dsimp only
  split <;> simp
/-- The context that starts on a record of a kernel. -/
def State.started (s : State) (g : Nat) (r : Record) (k : Kernel) (gen : Nat) : Ctx :=
  (s.ctx g).start g k.desc r.kernel gen r.task r.phase r.segno 0 r.resume (u32At k.desc 0x34) r.args
theorem State.pickUp_eq {s : State} {r : Record} {k : Kernel} (h : s.kernel r.kernel = some k) (g : Nat) :
    ∃ gen, s.pickUp g r = (((s.recordTaken g r k).setCtx g ((s.recordTaken g r k).started g r k gen)).pickDecided r.kernel k
      r).modKernel r.kernel fun x => x.beginSegment r := by
  unfold State.pickUp
  rw [h]
  exact ⟨_, rfl⟩

/-- A pickup starts its context on the record, leaves the other contexts, and takes the record out of the pool. -/
theorem State.pickUp_spec {s : State} {r : Record} {k : Kernel} (h : s.kernel r.kernel = some k) (g : Nat) :
    (∃ gen, (s.pickUp g r).ctx g = s.started g r k gen) ∧ (∀ j, j ≠ g → (s.pickUp g r).ctx j = s.ctx j)
      ∧ (s.pickUp g r).ce.pool = s.ce.pool.filter fun x => x.order != r.order := by
  obtain ⟨gen, e⟩ := State.pickUp_eq h g
  have before := State.ctx_congr (s.recordTaken_ctxs g r k)
  have ctxs : ∀ j, (s.pickUp g r).ctx j = ((s.recordTaken g r k).setCtx g (s.started g r k gen)).ctx j := fun j => by
    rw [e, State.ctx_congr ((State.modKernel_ctxs _ _ _).trans (State.pickDecided_keeps _ _ _ _).1), State.started, before]
    rfl
  refine ⟨⟨gen, ?_⟩, fun j hj => ?_, ?_⟩
  · rw [ctxs, State.ctx_setCtx_self]
  · rw [ctxs, State.ctx_setCtx_other _ _ hj, before]
  · rw [e, State.modKernel_pool, (State.pickDecided_keeps _ _ _ _).2]
    exact s.recordTaken_pool g r k

/-- R17: the arguments of the record are in s1 and on, and no other scalar holds a value. -/
theorem Ctx.start_arg (c : Ctx) (g : Nat) (desc : VWord) (kernel gen : Nat) (task : BitVec 10) (phase : BitVec 32)
    (segno : BitVec 8) (spawn : Nat) (pc fmt : BitVec 32) (args : List Word) (i : Nat) :
    (c.start g desc kernel gen task phase segno spawn pc fmt args).arch.s (i + 1) = args.getD i 0 := by
  have := AMap.get_putFrom (0 : Word) args 0 [] i
  rw [Nat.zero_add] at this
  exact this

/-- An idle context takes the record that it is offered. -/
theorem recordPickup_starts (g : Nat) (r : Record) (k : Kernel) (s : State) (offer : s.offered g = some r)
    (run : s.kernel r.kernel = some k) : ∃ t, exec (.recordPickup g) s = .next t
      ∧ (t.ctx g).state = .running ∧ (t.ctx g).kernel = some r.kernel ∧ (t.ctx g).task = r.task ∧ (t.ctx g).phase = r.phase
      ∧ (t.ctx g).segno = r.segno ∧ (t.ctx g).spawn = 0 ∧ (t.ctx g).intrap = false ∧ (t.ctx g).arch.pc = r.resume
      ∧ (t.ctx g).arch.tick = 0 ∧ (t.ctx g).arch.fmt = u32At k.desc 0x34 ∧ (t.ctx g).arch.rngkey = u64At k.desc 0x38
      ∧ (t.ctx g).arch.tvec = u32At k.desc 0x40 ∧ (t.ctx g).arch.flags = 0 ∧ (t.ctx g).arch.mlim = 0xFFFFFFFF
      ∧ (∀ i, (t.ctx g).arch.s (i + 1) = r.args.getD i 0) ∧ (∀ i, (t.ctx g).arch.v i = 0)
      ∧ (∀ i, i ≠ 0 → (t.ctx g).arch.p i = 0) ∧ (∀ h, h ≠ g → t.ctx h = s.ctx h)
      ∧ t.ce.pool = s.ce.pool.filter fun x => x.order != r.order := by
  obtain ⟨⟨gen, started⟩, others, pool⟩ := State.pickUp_spec run g
  refine ⟨s.pickUp g r, ?_, ?_⟩
  · show execRecordPickup g s = _
    rw [execRecordPickup, offer]
  · rw [started]
    exact ⟨rfl, rfl, rfl, rfl, rfl, rfl, rfl, rfl, rfl, rfl, rfl, rfl, rfl, rfl, Ctx.start_arg _ _ _ _ _ _ _ _ _ _ _ _,
      fun _ => rfl, fun _ hi => if_neg hi, others, pool⟩
theorem recordPickup_none {g : Nat} {s : State} (h : s.offered g = none) : exec (.recordPickup g) s = .next s := by
  show execRecordPickup g s = _
  rw [execRecordPickup, h]
theorem contextResume_none {g : Nat} {s : State} (h : s.offeredSaved g = none) : exec (.contextResume g) s = .next s := by
  show execContextResume g s = _
  rw [execContextResume, h]

/-! Spawned starts (R23). -/

theorem spawnedContextStart_ready (g : Nat) (s : State) (h : s.spawnReady g = true) :
    ∃ t, exec (.spawnedContextStart g) s = .next t
      ∧ t.ctx g = { s.ctx g with startSeg := none, startAt := 0 } ∧ (∀ j, j ≠ g → t.ctx j = s.ctx j) ∧ t.mem = s.mem := by
  show ∃ t, execSpawnedContextStart g s = .next t ∧ _
  unfold execSpawnedContextStart
  rw [if_neg (by simp [h])]
  cases claim : (s.ctx g).kernel with
  | none => simp [State.spawnReady, claim] at h
  | some kid =>
    have same : ∀ (c : Prop) [Decidable c] (n : Nat), (if c then s else s.loadImages n kid).ctxs = s.ctxs
        ∧ (if c then s else s.loadImages n kid).mem = s.mem := by
      intro c _ n; split <;> simp
    refine ⟨_, rfl, ?_, fun j hj => ?_, ?_⟩
    · rw [State.ctx_modCtx_self, State.ctx_congr (same _ _).1]
    · rw [State.ctx_modCtx_other _ _ hj, State.ctx_congr (same _ _).1]
    · exact (same _ _).2
theorem spawnedContextStart_early (g : Nat) (s : State) (h : s.cycle < (s.ctx g).startAt) :
    exec (.spawnedContextStart g) s = .next s := by
  have : s.spawnReady g = false := by
    unfold State.spawnReady
    dsimp only
    split
    · simp [Nat.not_le.2 h]
    · rfl
  show execSpawnedContextStart g s = _
  rw [execSpawnedContextStart, this]
  rfl

/-! Seals (R14, R20, R239, R240). -/

theorem State.releaseItem_store (s : State) (g : Nat) (b : List (Nat × Byte)) :
    s.releaseItem g (.store b) = s.mergeCells (b.map fun p => (nearKey (coreOf g) p.1, p.2)) := rfl

/-- Stores that leave the buffer change no context. -/
theorem State.releaseStores_ctxs (s : State) (g : Nat) (l : List Gated) (h : ∀ e ∈ l, ∃ b, e.item = .store b) :
    (l.foldl (fun s e => s.releaseItem g e.item) s).ctxs = s.ctxs := by
  refine List.foldlRecOn (motive := fun t : State => t.ctxs = s.ctxs) l _ rfl fun t ht e he => ?_
  obtain ⟨b, hb⟩ := h e he
  rw [hb, State.releaseItem_store, State.mergeCells_ctxs, ht]
/-- Stores that leave the buffer change no byte that none of them names and that the journal spares. -/
theorem State.read_releaseStores (s : State) (g : Nat) (l : List Gated) (h : ∀ e ∈ l, ∃ b, e.item = .store b) {k : Nat}
    (hk : s.journalSpares k) (hl : ∀ e ∈ l, ∀ b, e.item = .store b → ∀ x ∈ b, nearKey (coreOf g) x.1 ≠ k) :
    (l.foldl (fun s e => s.releaseItem g e.item) s).mem.read k = s.mem.read k := by
  refine (List.foldlRecOn (motive := fun t : State => t.journalSpares k ∧ t.mem.read k = s.mem.read k) l _ ⟨hk, rfl⟩
    fun t ht e he => ?_).2
  obtain ⟨spares, same⟩ := ht
  obtain ⟨b, hb⟩ := h e he
  rw [hb, State.releaseItem_store]
  refine ⟨State.journalSpares_mergeCells spares _, (State.read_mergeCells_other spares fun c hc => ?_).trans same⟩
  obtain ⟨x, hx, rfl⟩ := List.mem_map.1 hc
  exact hl e he b hb x hx

/-- The gated items that the seal of a proof releases. -/
def Ctx.sealedItems (c : Ctx) (p : Capture) : List Gated := c.gated.filter fun e => decide (e.seg < p.serial)
/-- What a context is when its oldest proof p has sealed, with the proofs l after it. -/
def Ctx.sealed (c : Ctx) (p : Capture) (l : List Capture) : Ctx :=
  { c with captured := some p, unsealed := l, gated := c.gated.filter fun e => decide (p.serial ≤ e.seg) }
/-- The state at a seal before what the proof releases takes effect. -/
def State.sealing (s : State) (g : Nat) (p : Capture) (l : List Capture) : State :=
  (s.modCore (coreOf g) fun k => k.sealKinds g (s.ctx g).gen p.serial).modCtx g fun x => x.sealed p l
/-- The state at a seal when what the proof releases has taken effect in order. -/
def State.released (s : State) (g : Nat) (p : Capture) (l : List Capture) : State :=
  ((s.ctx g).sealedItems p).foldl (fun s e => s.releaseItem g e.item) (s.sealing g p l)

@[simp] theorem State.ctx_sealing_self (s : State) (g : Nat) (p : Capture) (l : List Capture) :
    (s.sealing g p l).ctx g = (s.ctx g).sealed p l := State.ctx_modCtx_self _ _ _
theorem State.ctx_sealing_other (s : State) {g h : Nat} (p : Capture) (l : List Capture) (n : h ≠ g) :
    (s.sealing g p l).ctx h = s.ctx h := State.ctx_modCtx_other _ _ n

theorem State.sealDue_iff {s : State} {g : Nat} {p : Capture} {l : List Capture} (h : (s.ctx g).unsealed = p :: l) :
    s.sealDue g = true ↔ p.cycle + 384 ≤ s.cycle := by
  unfold State.sealDue
  rw [h]
  exact decide_eq_true_iff
theorem proofSeal_early {g : Nat} {p : Capture} {l : List Capture} {s : State} (h : (s.ctx g).unsealed = p :: l)
    (early : s.cycle < p.cycle + 384) : exec (.proofSeal g) s = .next s := by
  show execProofSeal g s = _
  simp only [execProofSeal, h]
  exact if_pos (by simp [Bool.eq_false_iff, State.sealDue_iff h, early])
/-- A PROOF that is due releases its items, and its context goes on. -/
theorem proofSeal_proof {g : Nat} {p : Capture} {l : List Capture} {s : State} (h : (s.ctx g).unsealed = p :: l)
    (due : p.cycle + 384 ≤ s.cycle) (kind : p.kind = .proof) : exec (.proofSeal g) s = .next (s.released g p l) := by
  show execProofSeal g s = _
  simp only [execProofSeal, h, kind]
  exact if_neg (by simp [(State.sealDue_iff h).2 due])
/-- The DONE of a task that is due releases its items, commits the task and ends the run of its context. -/
theorem proofSeal_done {g : Nat} {p : Capture} {l : List Capture} {s : State} (h : (s.ctx g).unsealed = p :: l)
    (due : p.cycle + 384 ≤ s.cycle) (kind : p.kind = .done) (task : (s.ctx g).spawn = 0) :
    exec (.proofSeal g) s = .next ((((s.released g p l).commitTask (s.ctx g).kernel (s.ctx g).task).endRun g).progressOf
      (s.ctx g).kernel) := by
  show execProofSeal g s = _
  simp only [execProofSeal, h, kind, task]
  exact if_neg (by simp [(State.sealDue_iff h).2 due])

/-- R239, R240: the seal of a proof performs the stores before it, and they alone change memory. -/
theorem proofSeal_stores {g : Nat} {p : Capture} {l : List Capture} {s : State} (h : (s.ctx g).unsealed = p :: l)
    (due : p.cycle + 384 ≤ s.cycle) (kind : p.kind = .proof) (stores : ∀ e ∈ (s.ctx g).gated, ∃ b, e.item = .store b) :
    ∃ t, exec (.proofSeal g) s = .next t ∧ (t.ctx g).captured = some p ∧ (t.ctx g).unsealed = l
      ∧ (t.ctx g).gated = (s.ctx g).gated.filter (fun e => decide (p.serial ≤ e.seg))
      ∧ (t.ctx g).arch = (s.ctx g).arch ∧ (∀ j, j ≠ g → t.ctx j = s.ctx j)
      ∧ ∀ k, (∀ e ∈ (s.ctx g).gated, e.seg < p.serial → ∀ b, e.item = .store b → ∀ x ∈ b, nearKey (coreOf g) x.1 ≠ k) →
        journalOff s ∨ s.poison = [] ∨ k < 0x10000000 → t.mem.read k = s.mem.read k := by
  have sealed : ∀ e ∈ (s.ctx g).sealedItems p, e ∈ (s.ctx g).gated ∧ e.seg < p.serial := fun e he => by
    simpa [Ctx.sealedItems] using he
  have ctxs : (s.released g p l).ctxs = (s.sealing g p l).ctxs :=
    State.releaseStores_ctxs _ g _ fun e he => stores e (sealed e he).1
  have own := (State.ctx_congr ctxs g).trans (s.ctx_sealing_self g p l)
  refine ⟨_, proofSeal_proof h due kind, by rw [own]; rfl, by rw [own]; rfl, by rw [own]; rfl, by rw [own]; rfl,
    fun j hj => ?_, fun k untouched spares => ?_⟩
  · exact (State.ctx_congr ctxs j).trans (s.ctx_sealing_other p l hj)
  · exact State.read_releaseStores _ g _ (fun e he => stores e (sealed e he).1) spares
      fun e he => untouched e (sealed e he).1 (sealed e he).2
/-- R240: a byte that a gated store holds is in memory after the seal. -/
theorem proofSeal_store_lands {g : Nat} {p : Capture} {l : List Capture} {s : State} (h : (s.ctx g).unsealed = p :: l)
    (due : p.cycle + 384 ≤ s.cycle) (kind : p.kind = .proof) {a : Nat} {b : Byte} (near : nearKey (coreOf g) a < 0x10000000)
    {e : Gated} (only : (s.ctx g).gated = [e]) (store : e.item = .store [(a, b)]) (before : e.seg < p.serial) :
    ∃ t, exec (.proofSeal g) s = .next t ∧ t.mem.read (nearKey (coreOf g) a) = b := by
  refine ⟨_, proofSeal_proof h due kind, ?_⟩
  have out : (s.ctx g).sealedItems p = [e] := by simp [Ctx.sealedItems, only, before]
  simp only [State.released, out, List.foldl_cons, List.foldl_nil, store, State.releaseItem_store]
  exact State.read_mergeCells_one _ b near

theorem State.restState_cases (s : State) (g : Nat) : s.restState g = .idle ∨ s.restState g = .reserved := by
  unfold State.restState
  split
  · exact .inr rfl
  · exact .inl rfl
@[simp] theorem State.endRun_mem (s : State) (g : Nat) : (s.endRun g).mem = s.mem := rfl
theorem State.endRun_rests (s : State) (g : Nat) :
    ((s.endRun g).ctx g).state = s.restState g ∧ ((s.endRun g).ctx g).kernel = none := by
  unfold State.endRun
  rw [State.ctx_modCtx_self]
  exact ⟨rfl, rfl⟩
theorem State.ctx_endRun_other (s : State) {g j : Nat} (h : j ≠ g) : (s.endRun g).ctx j = s.ctx j :=
  State.ctx_modCtx_other _ _ h
theorem State.kernel_congr {s t : State} (h : t.ce.kernels = s.ce.kernels) (k : Nat) : t.kernel k = s.kernel k := by
  rw [State.kernel, h]; rfl
@[simp] theorem State.progressOf_kernels (s : State) (k : Option Nat) : (s.progressOf k).ce.kernels = s.ce.kernels := by
  unfold State.progressOf; split <;> rfl

/-- R14, R20: with nothing gated, the seal of a DONE commits the task of its context, which is then free. -/
theorem proofSeal_commits {g : Nat} {p : Capture} {l : List Capture} {s : State} (h : (s.ctx g).unsealed = p :: l) {kid : Nat}
    {k : Kernel} (due : p.cycle + 384 ≤ s.cycle) (kind : p.kind = .done) (none_gated : (s.ctx g).gated = [])
    (runs : (s.ctx g).kernel = some kid) (kernel : s.kernel kid = some k) (task : (s.ctx g).spawn = 0) :
    ∃ t k', exec (.proofSeal g) s = .next t ∧ (t.ctx g).kernel = none
      ∧ ((t.ctx g).state = .idle ∨ (t.ctx g).state = .reserved) ∧ t.kernel kid = some k'
      ∧ (s.ctx g).task.toNat ∈ k'.committed ∧ t.mem = s.mem ∧ ∀ j, j ≠ g → t.ctx j = s.ctx j := by
  have nothing : s.released g p l = s.sealing g p l := by simp [State.released, Ctx.sealedItems, none_gated]
  have sealed : (s.sealing g p l).kernel kid = some k := kernel
  let t0 := (s.sealing g p l).commitTask (some kid) (s.ctx g).task
  have ctxs : ((t0.endRun g).progressOf (some kid)).ctxs = (t0.endRun g).ctxs := State.progressOf_ctxs _ _
  obtain ⟨rests, free⟩ := t0.endRun_rests g
  refine ⟨(t0.endRun g).progressOf (some kid), { k with committed := k.committed.add (s.ctx g).task.toNat }, ?_, ?_, ?_, ?_,
    (NSet.mem_add _ _ _).2 (.inl rfl), ?_, fun j hj => ?_⟩
  · rw [proofSeal_done h due kind task, nothing, runs]
  · rw [State.ctx_congr ctxs, free]
  · rw [State.ctx_congr ctxs, rests]
    exact t0.restState_cases g
  · exact (State.kernel_congr (State.progressOf_kernels _ _) kid).trans (State.kernel_modKernel_self sealed _)
  · rw [State.progressOf_mem]
    exact State.modKernel_mem _ _ _
  · rw [State.ctx_congr ctxs, State.ctx_endRun_other _ hj]
    exact (State.ctx_congr (State.modKernel_ctxs _ _ _) j).trans (State.ctx_sealing_other _ _ _ hj)

/-! Pre-emption (R131, R252). -/

theorem preemptFreeze_due (g : Nat) (s : State) (running : (s.ctx g).state = .running) (due : s.freezeDue g = true) :
    ∃ t, exec (.preemptFreeze g) s = .next t
      ∧ (t.ctx g).state = .frozen ∧ (t.ctx g).freeze = some .preempt ∧ (t.ctx g).arch = (s.ctx g).arch
      ∧ (t.ctx g).unsealed.length = (s.ctx g).unsealed.length + 1 ∧ t.mem = s.mem ∧ ∀ j, j ≠ g → t.ctx j = s.ctx j := by
  refine ⟨_, if_pos ⟨running, due⟩, ?_⟩
  rw [State.ctx_modCtx_self]
  exact ⟨rfl, rfl, rfl, List.length_append, rfl, fun j hj => State.ctx_modCtx_other _ _ hj⟩
/-- R247, R252: no freeze without a request, nor in a handler. -/
theorem preemptFreeze_unasked (g : Nat) (s : State) (h : (s.ctx g).preq = false ∨ (s.ctx g).intrap = true) :
    exec (.preemptFreeze g) s = .next s := by
  have : s.mayPreempt g = false := by
    rcases h with h | h <;> simp [State.mayPreempt, h]
  exact if_neg fun x => by simp [State.freezeDue, State.freezeAsked, this] at x

/-- R131, R228: the factor commands of a run wait for its resume, and the device keeps what it knows of the run. -/
def State.parkRun (s : State) (g gen : Nat) (sv : Saved) : State := { s with
  cmds := s.cmds.map fun d => if d.op.isFactor ∧ d.by_.g = g ∧ d.by_.gen = gen then { d with parked := true } else d
  ce := { s.ce with saved := AMap.put s.ce.saved g sv } }
theorem preemptSave_eq {g kid : Nat} {k : Kernel} {s : State} (due : s.saveDue g = true) (runs : (s.ctx g).kernel = some kid)
    (kernel : s.kernel kid = some k) : ∃ cells, exec (.preemptSave g) s = .next
      ((((s.writeCells cells).parkRun g (s.ctx g).gen (s.savedRecord g kid)).endRun g).modCtx g fun x =>
        { x with state := .idle }) := by
  have mine : s.myKernel g = some k := by simp [State.myKernel, runs, kernel]
  show ∃ _, execPreemptSave g s = _
  simp only [execPreemptSave, due, runs, mine]
  exact ⟨_, rfl⟩
/-- R131, R228, R252: a saved context is idle; its commands stay in flight, those of its factorisations parked. -/
theorem preemptSave_due (g kid : Nat) (k : Kernel) (s : State) (due : s.saveDue g = true) (runs : (s.ctx g).kernel = some kid)
    (kernel : s.kernel kid = some k) :
    ∃ t sv, exec (.preemptSave g) s = .next t ∧ (t.ctx g).state = .idle ∧ (t.ctx g).kernel = none
      ∧ AMap.find t.ce.saved g = some sv ∧ sv.kernel = kid ∧ sv.gen = (s.ctx g).gen ∧ sv.parent = (s.ctx g).parent
      ∧ (∀ d ∈ s.cmds, (if d.op.isFactor = true ∧ d.by_.g = g ∧ d.by_.gen = (s.ctx g).gen then { d with parked := true } else d)
        ∈ t.cmds)
      ∧ t.cores = s.cores ∧ (∀ j, j ≠ g → t.ctx j = s.ctx j) ∧ t.kernel kid = some k := by
  obtain ⟨cells, e⟩ := preemptSave_eq due runs kernel
  refine ⟨_, s.savedRecord g kid, e, ?_⟩
  rw [State.ctx_modCtx_self]
  exact ⟨rfl, (State.endRun_rests _ g).2, AMap.find_put_self _ _ _, rfl, rfl, rfl, fun d hd => List.mem_map_of_mem hd, rfl,
    fun j hj => (State.ctx_modCtx_other _ _ hj).trans (State.ctx_endRun_other _ hj), kernel⟩

end Sys2Proof.Machine
end

section
/-!
PROOFS. The resume of a saved context: the registers come from its slot, and its first bundle waits for its factor command.
-/

namespace Sys2Proof.Machine

/-! The streams of a context are apart from its registers. -/

@[simp] theorem Arch.s_withStreams (a : Arch) (l : AMap Stream) (r : Nat) : ({ a with streams := l } : Arch).s r = a.s r := rfl
@[simp] theorem Arch.v_withStreams (a : Arch) (l : AMap Stream) (r : Nat) : ({ a with streams := l } : Arch).v r = a.v r := rfl
@[simp] theorem Arch.p_withStreams (a : Arch) (l : AMap Stream) (r : Nat) : ({ a with streams := l } : Arch).p r = a.p r := rfl

/-! Fields and registers of a slot (R7, R253). -/

theorem State.toNat_slot32 (s : State) (base off : Nat) :
    (s.slot32 base off).toNat = readNat s.mem (physKey (base + off)) 4 := toNat_ofNat_readNat _ _ rfl
theorem State.toNat_slot64 (s : State) (base off : Nat) :
    (s.slot64 base off).toNat = readNat s.mem (physKey (base + off)) 8 := toNat_ofNat_readNat _ _ rfl
/-- R60: the reserved bits of FMT are those from bit 21 on. -/
theorem State.toNat_slotFmt (s : State) (base off : Nat) :
    (s.slotFmt base off).toNat = readNat s.mem (physKey (base + off)) 4 % 2 ^ 21 := by
  rw [State.slotFmt, BitVec.toNat_and, State.toNat_slot32]
  exact Nat.and_two_pow_sub_one_eq_mod _ 21
/-- R58: the reserved bits of MGEO are those from bit 24 on. -/
theorem State.toNat_slotMgeo (s : State) (base off : Nat) :
    (s.slotEngineReg base off 0x010).toNat = readNat s.mem (physKey (base + off)) 8 % 2 ^ 24 := by
  rw [← State.toNat_slot64]
  exact (BitVec.toNat_and _ _).trans (Nat.and_two_pow_sub_one_eq_mod _ 24)

theorem State.slotArch_s (s : State) (base codeBase g : Nat) (sv : Saved) {i : Nat} (lo : 1 ≤ i) (hi : i < 32) :
    ((s.slotArch base codeBase g sv).s i).toNat = readNat s.mem (physKey (base + 0x400 + 8 * i)) 8 := by
  obtain ⟨j, rfl⟩ := Nat.exists_eq_add_of_le' lo
  have found := AMap.find_map_of_mem (add_left_injective 1) (fun j => s.slot64 base (0x400 + 8 * (j + 1)))
    (List.mem_range.2 (show j < 31 by omega))
  have : (s.slotArch base codeBase g sv).s (j + 1) = s.slot64 base (0x400 + 8 * (j + 1)) := congrArg (·.getD 0) found
  rw [this, State.toNat_slot64, Nat.add_assoc]
theorem State.slotArch_p (s : State) (base codeBase g : Nat) (sv : Saved) {i : Nat} (lo : 1 ≤ i) (hi : i < 8) :
    ((s.slotArch base codeBase g sv).p i).toNat = readNat s.mem (physKey (base + 0x500 + 32 * i)) 32 := by
  obtain ⟨j, rfl⟩ := Nat.exists_eq_add_of_le' lo
  have found := AMap.find_map_of_mem (add_left_injective 1)
    (fun j => BitVec.ofNat 256 (s.slotField base (0x500 + 32 * (j + 1)) 32)) (List.mem_range.2 (show j < 7 by omega))
  have : (s.slotArch base codeBase g sv).p (j + 1) = BitVec.ofNat 256 (s.slotField base (0x500 + 32 * (j + 1)) 32) :=
    congrArg (·.getD 0) found
  rw [this, Nat.add_assoc]
  exact toNat_ofNat_readNat _ _ rfl
theorem State.slotArch_v (s : State) (base codeBase g : Nat) (sv : Saved) {i : Nat} (hi : i < 32) :
    ((s.slotArch base codeBase g sv).v i).toNat = readNat s.mem (physKey (base + 0x1000 + 256 * i)) 256 := by
  have found := AMap.find_map_of_mem Function.injective_id
    (fun j => BitVec.ofNat 2048 (s.slotField base (0x1000 + 256 * j) 256)) (List.mem_range.2 hi)
  have : (s.slotArch base codeBase g sv).v i = BitVec.ofNat 2048 (s.slotField base (0x1000 + 256 * i) 256) :=
    congrArg (·.getD 0) found
  rw [this, Nat.add_assoc]
  exact toNat_ofNat_readNat _ _ rfl

/-! The steps of a resume (R131, R252). -/

theorem State.slotCore_ctxs (s : State) (g base kid lo hi : Nat) : (s.slotCore g base kid lo hi).ctxs = s.ctxs := by
  unfold State.slotCore
  dsimp only
  split <;> rfl
/-- The streams of a resumed context change no register of it and no other context. -/
theorem State.slotStreams_spec (s : State) (g base : Nat) (sv : Saved) :
    (∃ l, ((s.slotStreams g base sv).ctx g).arch = { (s.ctx g).arch with streams := l })
      ∧ ((s.slotStreams g base sv).ctx g).state = (s.ctx g).state
      ∧ ((s.slotStreams g base sv).ctx g).kernel = (s.ctx g).kernel
      ∧ ((s.slotStreams g base sv).ctx g).gen = (s.ctx g).gen
      ∧ ∀ j, j ≠ g → (s.slotStreams g base sv).ctx j = s.ctx j := by
  unfold State.slotStreams
  dsimp only
  rw [State.ctx_setCtx_self]
  exact ⟨⟨_, rfl⟩, rfl, rfl, rfl, fun j hj => State.ctx_setCtx_other _ _ hj⟩
/-- R131: the factor commands that go on change of the contexts only what the first bundle of the resumed one waits for: the
reload of the command that its save recorded, which a slot that holds one gives back. -/
theorem State.resumeFactors_spec (s : State) (g : Nat) (k : Kernel) (sv : Saved) (job : Option (FacJob × BitVec 4)) (r : Growth)
    (kept : sv.job = none ∨ job ≠ none) :
    (∃ w, (s.resumeFactors g k sv job r).ctx g = { s.ctx g with reload := w } ∧ ∀ id, sv.job = some id → w = some id)
      ∧ ∀ j, j ≠ g → (s.resumeFactors g k sv job r).ctx j = s.ctx j := by
  unfold State.resumeFactors
  cases recorded : sv.job with
  | none =>
    cases job with
    | none => exact ⟨⟨_, rfl, fun _ h => by cases h⟩, fun _ _ => rfl⟩
    | some j => exact ⟨⟨_, State.ctx_modCtx_self _ _ _, fun _ h => by cases h⟩, fun i hi => State.ctx_modCtx_other _ _ hi⟩
  | some id =>
    cases job with
    | none => simp [recorded] at kept
    | some j => exact ⟨⟨_, State.ctx_modCtx_self _ _ _, fun _ h => h⟩, fun i hi => State.ctx_modCtx_other _ _ hi⟩

/-- R253: with no poisoned granule, a resume brings back core, context, streams and factor commands from the slot. -/
theorem State.resume_unpoisoned {s : State} {sv : Saved} {k : Kernel} (kernel : s.kernel sv.kernel = some k)
    (clean : s.poison = []) (g : Nat) :
    let base := s.slotBase k.part g
    let c := s.slotCtx g base k sv
    let s0 : State := { s with ce := { s.ce with saved := AMap.del s.ce.saved g } }
    s.resume g sv = (((s0.slotCore g base sv.kernel c.splo.toNat c.sphi.toNat).setCtx g c).slotStreams g base sv).resumeFactors
      g k sv (s.slotJob base c.splo c.sphi c.fperm) c.growth := by
  have sound : ∀ key, s.poisoned key = false := fun key => by simp [State.poisoned, clean]
  unfold State.resume
  rw [kernel]
  dsimp only
  rw [List.find?_eq_none.2 fun i _ => by simp [sound]]

theorem State.slotJob_ne_none {s : State} {base : Nat} (h : s.slotField base 0xC00 4 = 1) (lo hi : BitVec 32)
    (perm : BitVec 1024) : s.slotJob base lo hi perm ≠ none := by
  unfold State.slotJob
  rw [if_neg (not_not.2 h)]
  exact Option.some_ne_none _

/-- R7, R131, R252, R253: a saved context goes on with the registers of its slot, and waits for the factor command in it. -/
theorem State.resume_spec {s : State} {sv : Saved} {k : Kernel} (kernel : s.kernel sv.kernel = some k) (clean : s.poison = [])
    (g : Nat) (kept : sv.job = none ∨ s.slotField (s.slotBase k.part g) 0xC00 4 = 1) :
    (∃ l, ((s.resume g sv).ctx g).arch = { s.slotArch (s.slotBase k.part g) k.codeBase g sv with streams := l })
      ∧ ((s.resume g sv).ctx g).state = .running ∧ ((s.resume g sv).ctx g).kernel = some sv.kernel
      ∧ ((s.resume g sv).ctx g).gen = sv.gen ∧ (∀ id, sv.job = some id → ((s.resume g sv).ctx g).reload = some id)
      ∧ ∀ j, j ≠ g → (s.resume g sv).ctx j = s.ctx j := by
  rw [State.resume_unpoisoned kernel clean g]
  dsimp only
  obtain ⟨⟨w, own, waits⟩, others⟩ := State.resumeFactors_spec _ g k sv _ _
    (kept.imp_right fun h => State.slotJob_ne_none h _ _ _)
  rw [own]
  obtain ⟨⟨l, arch⟩, state, kern, gen, rest⟩ := State.slotStreams_spec _ g (s.slotBase k.part g) sv
  refine ⟨⟨l, arch.trans ?_⟩, state.trans ?_, kern.trans ?_, gen.trans ?_, waits, fun j hj => ?_⟩
  · rw [State.ctx_setCtx_self]; rfl
  · rw [State.ctx_setCtx_self]; rfl
  · rw [State.ctx_setCtx_self]; rfl
  · rw [State.ctx_setCtx_self]; rfl
  · rw [others j hj, rest j hj, State.ctx_setCtx_other _ _ hj]
    exact State.ctx_congr (State.slotCore_ctxs _ _ _ _ _ _) j

/-- R228, R252: the saved context that is offered resumes. -/
theorem contextResume_offered (g : Nat) (v : Saved) (k : Kernel) (s : State) (offer : s.offeredSaved g = some v)
    (kernel : s.kernel v.kernel = some k) :
    let base := s.slotBase k.part g
    s.poison = [] → (v.job = none ∨ readNat s.mem (physKey (base + 0xC00)) 4 = 1) → ∃ t, exec (.contextResume g) s = .next t
      ∧ (t.ctx g).state = .running ∧ (t.ctx g).kernel = some v.kernel ∧ (t.ctx g).gen = v.gen
      ∧ (∀ id, v.job = some id → (t.ctx g).reload = some id)
      ∧ (t.ctx g).arch.pc.toNat = readNat s.mem (physKey (base + 0x10)) 4
      ∧ (t.ctx g).arch.tick = readNat s.mem (physKey (base + 8)) 8
      ∧ (t.ctx g).arch.fmt.toNat = readNat s.mem (physKey (base + 0x18)) 4 % 2 ^ 21
      ∧ (t.ctx g).arch.mgeo.toNat = readNat s.mem (physKey (base + 0x600)) 8 % 2 ^ 24
      ∧ (∀ i, 1 ≤ i → i < 32 → ((t.ctx g).arch.s i).toNat = readNat s.mem (physKey (base + 0x400 + 8 * i)) 8)
      ∧ (∀ i, i < 32 → ((t.ctx g).arch.v i).toNat = readNat s.mem (physKey (base + 0x1000 + 256 * i)) 256)
      ∧ (∀ i, 1 ≤ i → i < 8 → ((t.ctx g).arch.p i).toNat = readNat s.mem (physKey (base + 0x500 + 32 * i)) 32)
      ∧ ∀ h, h ≠ g → t.ctx h = s.ctx h := by
  intro base clean kept
  let s1 := s.notePick k
  have same : s1.slotBase k.part g = base := s.notePick_slotBase k k.part g
  have mem : s1.mem = s.mem := s.notePick_mem k
  obtain ⟨⟨l, arch⟩, state, kern, gen, reload, others⟩ := State.resume_spec (s := s1) (sv := v)
    ((s.notePick_kernel k v.kernel).trans kernel) ((s.notePick_poison k).trans clean) g
    (by rwa [same, State.slotField, mem])
  rw [same] at arch
  refine ⟨s1.resume g v, ?_, state, kern, gen, reload, ?_⟩
  · show execContextResume g s = _
    simp only [execContextResume, offer, kernel, s1]
  · simp only [arch, Arch.s_withStreams, Arch.v_withStreams, Arch.p_withStreams, ← mem]
    exact ⟨s1.toNat_slot32 _ _, rfl, s1.toNat_slotFmt _ _, s1.toNat_slotMgeo _ _, fun i => s1.slotArch_s _ _ _ _,
      fun i => s1.slotArch_v _ _ _ _, fun i => s1.slotArch_p _ _ _ _,
      fun j hj => (others j hj).trans (State.ctx_congr (s.notePick_ctxs k) j)⟩

end Sys2Proof.Machine
end

section
/-!
PROOFS. The statements of the scope, settled: RaisingBundleHasNoEffect and ContextLifeEvents.
-/

namespace Sys2Proof.Machine

/-- Settles O14 (R7, R71): the bundle neither waits nor follows a FENCE, and a raised cause drops what its slots have done. -/
theorem raisingBundleHasNoEffect : Obligations.RaisingBundleHasNoEffect := by
  unfold Obligations.RaisingBundleHasNoEffect
  intro s words size reps e c s0 s1 noWait noFence raised
  unfold State.issueBundle
  dsimp only
  rw [if_neg (by simpa using noWait), noFence, Bool.false_and, if_neg Bool.false_ne_true]
  simp only [s1, s0] at raised
  rw [raised]

/-- Settles O31, event by event: pickup, nothing offered, spawned start, seal, freeze, save and resume. -/
theorem contextLifeEvents : Obligations.ContextLifeEvents := by
  unfold Obligations.ContextLifeEvents
  refine ⟨recordPickup_starts, fun g s => ⟨recordPickup_none, contextResume_none⟩,
    fun g s => ⟨spawnedContextStart_ready g s, spawnedContextStart_early g s⟩, fun g p l s oldest => ⟨?_, ?_, ?_, ?_⟩,
    fun g s => ⟨preemptFreeze_due g s, preemptFreeze_unasked g s⟩, preemptSave_due, contextResume_offered⟩
  · exact proofSeal_early oldest
  · exact proofSeal_stores oldest
  · intro a b due kind near ⟨e, only, store, before⟩
    exact proofSeal_store_lands oldest due kind near only store before
  · intro kid k
    exact proofSeal_commits oldest

end Sys2Proof.Machine
end

section
/-!
PROOFS. SPAWN and the ends of segments at their issue (R15, R20, R22, R23, R304).
-/

namespace Sys2Proof.Machine

open Sys2Proof.Claims (spawnTarget)

/-! SPAWN (R22, R23). -/

/-- R23: the context that a SPAWN of the context in execution claims, on a kernel. -/
def State.spawned (s : State) (kn : Nat) (kk : Kernel) (x y : BitVec 5) (n : BitVec 4) (k : BitVec 3) : Ctx :=
  { (s.ctx (spawnTarget s k)).start (spawnTarget s k) kk.desc kn s.ce.nextGen s.me.task s.me.phase s.me.segno (k.toNat + 1)
      ((s.rs x).truncate 32) s.me.arch.fmt ((List.range n.toNat).map fun i => s.me.arch.s (y.toNat + i)) with
    parent := some (s.cur, s.me.gen)
    startAt := s.cycle + Config.spawnDelay
    startSeg := some (s.cur, s.me.gen, s.me.serial) }

section
variable {s : State} {kn : Nat} {kk : Kernel} {x y : BitVec 5} {n : BitVec 4} {k : BitVec 3}

/-- A SPAWN of a legal form outside a handler claims its target where that is another context at rest, and raises its cause
elsewhere. -/
theorem execSpawn_legal (slot : s.slot = 0) (user : s.me.intrap = false) (few : n.toNat ≤ 8)
    (args : n.toNat ≠ 0 → y.toNat + n.toNat - 1 ≤ 31) (runs : s.me.kernel = some kn) (kernel : s.kernel kn = some kk) :
    execSpawn x y n k s = .next (
      if spawnTarget s k = s.cur
          || !((s.ctx (spawnTarget s k)).state = .idle || (s.ctx (spawnTarget s k)).state = .reserved) then
        s.raise (s.slotCause 0x05 (k.zeroExtend 32) 0)
      else ({ s with ce := { s.ce with nextGen := s.ce.nextGen + 1 } } : State).setCtx (spawnTarget s k)
        (s.spawned kn kk x y n k)) := by
  have mine : s.myKernel s.cur = some kk := by
    show s.me.kernel.bind s.kernel = _
    rw [runs]
    exact kernel
  have legal : (s.me.intrap || decide (8 < n.toNat) || (n != 0 && decide (31 < y.toNat + n.toNat - 1))) = false := by
    have nonzero : n ≠ 0 → n.toNat ≠ 0 := fun h e => h (BitVec.eq_of_toNat_eq e)
    simp only [user, Bool.false_or, Bool.or_eq_false_iff, Bool.and_eq_false_iff, bne_eq_false_iff_eq,
      decide_eq_false_iff_not, not_lt]
    exact ⟨few, or_iff_not_imp_left.2 fun h => args (nonzero h)⟩
  unfold execSpawn inC
  rw [inSlot_ok (by rw [slot]; rfl)]
  dsimp only
  rw [legal, runs, mine]
  rfl

/-- R17, R23: the arguments of a SPAWN are in s1 and on, and no other scalar holds a value. -/
theorem State.spawned_s (i : Nat) :
    (s.spawned kn kk x y n k).arch.s (i + 1) = ((List.range n.toNat).map fun i => s.me.arch.s (y.toNat + i)).getD i 0 :=
  (s.ctx (spawnTarget s k)).start_arg _ kk.desc kn s.ce.nextGen _ _ _ _ _ _ _ i
theorem State.spawned_arg {i : Nat} (h : i < n.toNat) :
    (s.spawned kn kk x y n k).arch.s (i + 1) = s.me.arch.s (y.toNat + i) := by
  simp [State.spawned_s, List.getD_eq_getElem?_getD, h]
theorem State.spawned_rest {r : Nat} (h : n.toNat < r) : (s.spawned kn kk x y n k).arch.s r = 0 := by
  obtain ⟨i, rfl⟩ : ∃ i, r = i + 1 := ⟨r - 1, by omega⟩
  rw [State.spawned_s, List.getD_eq_default _ _ (by simpa using Nat.lt_succ_iff.1 h)]
end

/-! SUSP and DONE (R15, R20, R304). -/

section
variable {s : State}

/-- R20: the segment ends when every context spawned has ended and there is room for the proof. -/
theorem State.endSegment_ready (h : s.hasChildren s.cur s.me.gen = false ∧ s.me.unsealed.length < 2) (kind : CapKind) :
    s.endSegment kind = { s with iss := { s.iss with ends := some kind } } := by
  obtain ⟨alone, room⟩ := h
  simp [State.endSegment, State.proofRoom, Ctx.nUnsealed, alone, room, State.modIss]
theorem State.endSegment_stalls (h : ¬(s.hasChildren s.cur s.me.gen = false ∧ s.me.unsealed.length < 2)) (kind : CapKind) :
    s.endSegment kind = s.stall := by
  refine if_pos ?_
  by_contra busy
  exact h (by simpa [State.proofRoom, Ctx.nUnsealed] using busy)

theorem execDone_user (slot : s.slot = 0) (user : s.me.intrap = false) : execDone s = .next (s.endSegment .done) := by
  unfold execDone inC
  rw [inSlot_ok (by rw [slot]; rfl), user]
  rfl

/-- R15: the record that a SUSP posts. -/
def State.suspRecord (s : State) (kn : Nat) (x y : BitVec 5) (aff : Affinity) : Record :=
  ⟨kn, (s.rs x).truncate 32, s.me.phase, aff, s.me.task, false, s.me.segno + 1, clusterOf s.cur, coreOf s.cur % 4,
    (List.range 6).map fun i => s.me.arch.s (y.toNat + i), 0⟩
theorem execSusp_user (slot : s.slot = 0) (user : s.me.intrap = false) {x y : BitVec 5} {kn : Nat} (task : s.me.spawn = 0)
    (args : y.toNat ≤ 26) (runs : s.me.kernel = some kn) (aff : Affinity) :
    execSusp x y aff s = .next (s.endSegment (.susp (s.suspRecord kn x y aff))) := by
  have legal : ¬(s.me.intrap || decide (s.me.spawn ≠ 0) || decide (26 < y.toNat)) = true := by simp [user, task, args]
  unfold execSusp inC
  rw [inSlot_ok (by rw [slot]; rfl)]
  dsimp only
  rw [if_neg legal, runs]
  rfl
end

/-- The low half of a register as a parcel address. -/
theorem truncate_eq_ofNat (v : Word) : v.truncate 32 = BitVec.ofNat 32 v.toNat := by
  simp

/-- R22, R23: what SPAWN leaves. -/
theorem spawnResults : Claims.SpawnResults := by
  unfold Claims.SpawnResults
  intro x y n k s kn kk slot user few args runs kernel
  dsimp only
  have meaning : exec (.spawn x y n k) s = _ := execSpawn_legal slot user few args runs kernel
  refine ⟨fun ⟨other, rest⟩ => ⟨_, meaning.trans (congrArg _ (if_neg ?_)), ?_⟩, fun busy => ?_⟩
  · simpa [other, or_iff_not_imp_left] using rest
  · rw [State.ctx_setCtx_self]
    exact ⟨rfl, rfl, truncate_eq_ofNat _, rfl, rfl, rfl, rfl, rfl, rfl, fun i => State.spawned_arg,
      fun r h _ => State.spawned_rest h, rfl, rfl, rfl, rfl, rfl, fun h hh => State.ctx_setCtx_other _ _ hh⟩
  · refine meaning.trans (congrArg _ (if_pos ?_))
    by_contra rest
    exact busy (by simpa [or_iff_not_imp_left] using rest)

/-- R15, R20, R304: what SUSP and DONE leave. -/
theorem segmentEndResults : Claims.SegmentEndResults := by
  unfold Claims.SegmentEndResults
  intro s slot user
  have done : exec .done s = _ := execDone_user slot user
  refine ⟨fun ready => ?_, fun waits => ?_, fun x y aff kn task args runs => ?_⟩
  · rw [done, State.endSegment_ready ready]
  · rw [done, State.endSegment_stalls waits]; rfl
  · have susp : exec (.susp x y aff) s = _ := execSusp_user slot user task args runs aff
    refine ⟨fun ready => ⟨s.suspRecord kn x y aff, ?_, rfl, truncate_eq_ofNat _, rfl, rfl, rfl, rfl, rfl⟩, fun waits => ?_⟩
    · rw [susp, State.endSegment_ready ready]
    · rw [susp, State.endSegment_stalls waits]; rfl

end Sys2Proof.Machine
end

section
/-!
PROOFS. The command at the head of a queue: its acceptance and start, and its ends (R216 to R218, R222, R229).
-/

namespace Sys2Proof.Machine

open Sys2Proof.Claims (atHead passed completed endedFaulted journalOff numbered)

/-! The started commands of a queue (R229). -/

section
variable (x : Queue) (l : List Started) (n : Nat)

theorem Queue.setStarted_only : ∃ p, x.setStarted l n = { x with started := l, progress := p } := by
  unfold Queue.setStarted
  dsimp only
  split
  · exact ⟨x.progress, rfl⟩
  · exact ⟨_, rfl⟩
@[simp] theorem Queue.setStarted_started : (x.setStarted l n).started = l := by
  obtain ⟨_, e⟩ := x.setStarted_only l n
  rw [e]
@[simp] theorem Queue.setStarted_head : (x.setStarted l n).head = x.head := by
  obtain ⟨_, e⟩ := x.setStarted_only l n
  rw [e]
@[simp] theorem Queue.setStarted_accepted : (x.setStarted l n).accepted = x.accepted := by
  obtain ⟨_, e⟩ := x.setStarted_only l n
  rw [e]
@[simp] theorem Queue.setStarted_expect : (x.setStarted l n).expect = x.expect := by
  obtain ⟨_, e⟩ := x.setStarted_only l n
  rw [e]
@[simp] theorem Queue.setStarted_running : (x.setStarted l n).running = x.running := by
  obtain ⟨_, e⟩ := x.setStarted_only l n
  rw [e]
@[simp] theorem Queue.setStarted_prio : (x.setStarted l n).prio = x.prio := by
  obtain ⟨_, e⟩ := x.setStarted_only l n
  rw [e]
@[simp] theorem Queue.setStarted_priv : (x.setStarted l n).priv = x.priv := by
  obtain ⟨_, e⟩ := x.setStarted_only l n
  rw [e]
end

@[simp] theorem State.numbered_queue (s : State) (q : Nat) : (numbered s).queue q = s.queue q := rfl
@[simp] theorem State.noteTurn_queue (s : State) (q r : Nat) : (s.noteTurn q).queue r = s.queue r := rfl
@[simp] theorem State.noteTurn_jcfg (s : State) (q : Nat) : (s.noteTurn q).ce.jcfg = s.ce.jcfg := rfl

theorem State.journalCmd_off {s : State} (off : journalOff s) (q : Nat) (c : Started) (st cause : Nat) (d0 d1 : Word) :
    s.journalCmd q c st cause d0 d1 = numbered s := s.journal_off _ off

/-! Acceptance (R218). -/

/-- R218: a command as its queue accepts it. -/
def State.headCmd (s : State) (w : BitVec 512) : Started := ⟨0, u32At w 4, u8At w 0, s.timeNs, 0, 0, w, none, none⟩
/-- R218: the state once the command at the head of a queue is accepted. -/
def State.headAccepted (s : State) (q : Nat) (w : BitVec 512) : State :=
  (numbered s).modQueue q fun y => { y with accepted := some (s.headCmd w), expect := some (u32At w 4 + 1) }

section
variable {s : State} {q : Nat} {w : BitVec 512}

/-- R218: a good header is refused for the lack of a privilege alone. -/
theorem State.acceptHead_atHead (h : atHead s q w) : s.acceptHead q =
    if 7 ≤ u8At w 0 ∧ (s.queue q).priv = false then (numbered s).rejectHead q (s.headCmd w) 0x42 else s.headAccepted q w := by
  obtain ⟨-, noAccepted, -, waiting, header, formed, inSequence, off⟩ := h
  have good : (false || false || ((s.queue q).expect.map fun e => e != u32At w 4).getD false) = false := by
    rcases inSequence with e | e <;> simp [e]
  unfold State.acceptHead
  simp only [noAccepted, waiting, header, Option.isSome_none, Bool.false_eq_true, or_self, if_false, Option.getD_some,
    Option.isNone_some, formed, State.journalCmd_off off, good, Bool.not_eq_true', State.headCmd, State.headAccepted]

/-- The row of the opcode table that a command at the head of its queue runs. -/
theorem State.nextOp_atHead (h : atHead s q w) : s.nextOp q = some (eventOp (u8At w 0)) := by
  obtain ⟨-, noAccepted, -, waiting, header, -, -, -⟩ := h
  simp [State.nextOp, noAccepted, waiting, header]

/-- R217, R218: a command refused for the lack of a privilege ends faulted. -/
theorem State.runCommand_refused (h : atHead s q w) (privileged : 7 ≤ u8At w 0) (user : (s.queue q).priv = false) {op : Nat}
    (row : eventOp (u8At w 0) = op) (act : Started → State → State) : endedFaulted s (s.runCommand q op act) q := by
  have refused : s.acceptHead q = (numbered s).rejectHead q (s.headCmd w) 0x42 := by
    rw [State.acceptHead_atHead h, if_pos ⟨privileged, user⟩]
  have next := State.nextOp_atHead h
  obtain ⟨readable, noAccepted, noStarted, -, -, -, -, off⟩ := h
  have rejected : (numbered s).rejectHead q (s.headCmd w) 0x42 = (numbered (numbered s)).modQueue q fun x =>
      { x with head := x.head + 1, running := false, faulted := true } := by
    unfold State.rejectHead
    rw [State.journalCmd_off (s := numbered s) off]
  have ends : s.runCommand q op act = (numbered (numbered s)).modQueue q fun x =>
      { x with head := x.head + 1, running := false, faulted := true } := by
    have none_left : (((numbered s).rejectHead q (s.headCmd w) 0x42).queue q).accepted = none := by
      rw [rejected, State.queue_modQueue_self]
      exact noAccepted
    unfold State.runCommand
    simp only [readable, next, row, refused, none_left, bne_self_eq_false, Bool.not_true, Bool.or_self, Bool.false_eq_true,
      if_false]
    exact rejected
  rw [ends, endedFaulted, State.queue_modQueue_self]
  exact ⟨rfl, noStarted, noAccepted, rfl, rfl, rfl⟩

/-! Start (R222). -/

/-- The state with other queues of the command engine, other turns of theirs, and another count of the journal. -/
def State.withQueues (s : State) (l : AMap Queue) (passed : List Nat) (rr : AMap Nat) (n : Nat) : State :=
  { s with ce := { s.ce with queues := l, passed := passed, rrStart := rr, jseq := n } }
/-- R217, R222: u is s in which the command w at the head of queue q has started as c. -/
structure HeadStarts (s : State) (q : Nat) (w : BitVec 512) (c : Started) (u : State) : Prop where
  only : ∃ l p r n, u = s.withQueues l p r n
  journal : journalOff s
  slot : c.slot = w
  headPassed : passed s u q w
  started : (u.queue q).started = [c]
  running : (u.queue q).running = true
  prio : (u.queue q).prio = (s.queue q).prio
  priv : (u.queue q).priv = (s.queue q).priv
  entries : ∀ x ∈ u.ce.queues, x ∈ s.ce.queues ∨ ∀ d ∈ x.2.started, x.1 = q ∧ d = c

theorem State.readable_running (h : s.readable q = true) : (s.queue q).running = true := by
  unfold State.readable at h
  simp only [Bool.and_eq_true] at h
  obtain ⟨⟨⟨-, running⟩, -⟩, -⟩ := h
  exact running

/-- The command w of queue q as it starts. -/
def State.headCmdStarted (s : State) (q : Nat) (w : BitVec 512) : Started :=
  { s.headCmd w with n := ((s.headAccepted q w).queue q).count + 1, startT := s.timeNs, cycle := s.cycle }
/-- A queue once its accepted command has started as c: the head passes it. -/
def Queue.start (x : Queue) (c : Started) (cycle : Nat) : Queue :=
  { x.setStarted (x.started ++ [c]) cycle with accepted := none, count := x.count + 1, head := x.head + 1 }
/-- The state once the command w at the head of queue q has started. -/
def State.headStarted (s : State) (q : Nat) (w : BitVec 512) : State :=
  numbered (((s.headAccepted q w).noteTurn q).modQueue q fun x => x.start (s.headCmdStarted q w) s.cycle)

theorem State.startCmd_headAccepted (off : journalOff s) :
    (s.headAccepted q w).startCmd q (s.headCmd w) = (s.headCmdStarted q w, s.headStarted q w) := by
  have quiet : ∀ f, journalOff (((s.headAccepted q w).noteTurn q).modQueue q f) := fun f => by
    rw [journalOff, State.modQueue_ce_jcfg, State.noteTurn_jcfg]
    exact off
  unfold State.startCmd
  dsimp only
  rw [State.journalCmd_off (quiet _)]
  rfl

theorem State.headAccepted_queue : (s.headAccepted q w).queue q
    = { s.queue q with accepted := some (s.headCmd w), expect := some (u32At w 4 + 1) } := State.queue_modQueue_self _ _ _

theorem State.noteTurn_only (s : State) (q : Nat) :
    ∃ p r, s.noteTurn q = { s with ce := { s.ce with passed := p, rrStart := r } } := ⟨_, _, rfl⟩
theorem State.headStarted_only : ∃ l p r n, s.headStarted q w = s.withQueues l p r n := by
  obtain ⟨p, r, turn⟩ := (s.headAccepted q w).noteTurn_only q
  unfold State.headStarted
  rw [turn]
  simp only [State.headAccepted, numbered, State.modQueue, State.withQueues]
  exact ⟨_, p, r, _, rfl⟩

/-- R222: the command that is accepted starts. -/
theorem State.headStarted_starts (h : atHead s q w) : HeadStarts s q w (s.headCmdStarted q w) (s.headStarted q w) := by
  obtain ⟨readable, -, noStarted, -, -, -, -, off⟩ := h
  have queue : (s.headStarted q w).queue q = ((s.headAccepted q w).queue q).start (s.headCmdStarted q w) s.cycle := by
    rw [State.headStarted, State.numbered_queue, State.queue_modQueue_self, State.noteTurn_queue]
  rw [State.headAccepted_queue, Queue.start] at queue
  refine ⟨State.headStarted_only, off, rfl, ?_, ?_, ?_, ?_, ?_, ?_⟩
  · rw [passed, queue]; simp
  · rw [queue]; simp [noStarted]
  · rw [queue]; simpa using State.readable_running readable
  · rw [queue]; simp
  · rw [queue]; simp
  · intro x hx
    rcases AMap.mem_put hx with rfl | hx
    · refine .inr fun d hd => ⟨rfl, ?_⟩
      simpa [State.headAccepted_queue, Queue.start, noStarted] using hd
    · rcases AMap.mem_put hx with rfl | hx
      · refine .inr fun d hd => absurd ?_ (List.not_mem_nil (a := d))
        rw [← noStarted]
        exact hd
      · exact .inl hx

/-- R217, R222: the command at the head of its queue starts, where its queue has the privilege that it needs and a LAUNCH
finds room in its partition. -/
theorem State.runCommand_starts (h : atHead s q w) (allowed : u8At w 0 < 7 ∨ (s.queue q).priv = true)
    (room : u8At w 0 = 1 → s.partitionRoom q (s.headCmd w) = true) : ∃ c u, HeadStarts s q w c u ∧
      ∀ op act, eventOp (u8At w 0) = op → s.runCommand q op act = act c u := by
  refine ⟨_, _, State.headStarted_starts h, fun op act row => ?_⟩
  have accept : s.acceptHead q = s.headAccepted q w := by
    rw [State.acceptHead_atHead h, if_neg]
    rintro ⟨privileged, user⟩
    rcases allowed with low | priv
    · omega
    · rw [user] at priv; cases priv
  have next := State.nextOp_atHead h
  obtain ⟨readable, -, noStarted, -, -, -, -, off⟩ := h
  have queue := State.headAccepted_queue (s := s) (q := q) (w := w)
  have turn : (s.headAccepted q w).turnInQueue q (s.headCmd w) = true := by
    simp [State.turnInQueue, queue, noStarted]
  have own : (s.headAccepted q w).queueRoom q = true := by
    simp [State.queueRoom, queue, noStarted]
  have may : (s.headAccepted q w).mayStart q (s.headCmd w) = true := by
    have free : (s.headCmd w).op = 1 → (s.headAccepted q w).partitionRoom q (s.headCmd w) = true := room
    by_cases launch : (s.headCmd w).op = 1
    · simp [State.mayStart, State.launchRoom, turn, own, free launch]
    · simp [State.mayStart, turn, launch]
  unfold State.runCommand
  simp only [readable, next, row, accept, queue, may, bne_self_eq_false, Bool.not_true, Bool.or_self, Bool.false_eq_true,
    if_false, if_true, State.startCmd_headAccepted off]
end

/-! The ends of a command (R217, R222). -/

@[simp] theorem State.dropStarted_queue (s : State) (q n : Nat) : (s.dropStarted q n).queue q
    = (s.queue q).setStarted ((s.queue q).started.filter fun c => c.n != n) s.cycle := State.queue_modQueue_self _ _ _

theorem State.faultCmd_off {s : State} (off : journalOff s) (q : Nat) (c : Started) (cause : Nat) (d0 d1 : Word) :
    s.faultCmd q c cause d0 d1 = (numbered (s.dropStarted q c.n)).modQueue q fun x =>
      { x with running := false, faulted := true } := by
  unfold State.faultCmd
  rw [State.journalCmd_off (by exact off)]
theorem State.completeCmd_off {s : State} (off : journalOff s) (q : Nat) (c : Started) (d0 : Word) :
    s.completeCmd q c d0 = (numbered (s.dropStarted q c.n)).modQueue q fun x => x.restartTimer s.cycle := by
  unfold State.completeCmd
  rw [State.journalCmd_off (by exact off)]

/-- R222: a completion leaves memory, contexts and partitions. -/
theorem State.completeCmd_frame {s : State} (off : journalOff s) (q : Nat) (c : Started) (d0 : Word) :
    (s.completeCmd q c d0).mem = s.mem ∧ (s.completeCmd q c d0).ctxs = s.ctxs
      ∧ (s.completeCmd q c d0).ce.parts = s.ce.parts := by
  rw [State.completeCmd_off off]
  exact ⟨rfl, rfl, rfl⟩

section
variable {s u : State} {q : Nat} {w : BitVec 512} {c : Started}

/-- What does not read the queues, their turns or the journal's count is as it was before the command started. -/
theorem HeadStarts.keeps {α : Type} (h : HeadStarts s q w c u) (f : State → α)
    (blind : ∀ l p r n, f (s.withQueues l p r n) = f s := by exact fun _ _ _ _ => rfl) : f u = f s := by
  obtain ⟨l, p, r, n, e⟩ := h.only
  rw [e, blind]
theorem HeadStarts.journalOff (h : HeadStarts s q w c u) : journalOff u :=
  (h.keeps fun v => fld v.ce.jcfg 4 0).trans h.journal
theorem HeadStarts.mem (h : HeadStarts s q w c u) : u.mem = s.mem := h.keeps State.mem

/-- R217: a started command that faults stops its queue. -/
theorem HeadStarts.faulted (h : HeadStarts s q w c u) (cause : Nat) (d0 d1 : Word) :
    endedFaulted s (u.faultCmd q c cause d0 d1) q := by
  obtain ⟨head, noAccepted, -⟩ := h.headPassed
  rw [State.faultCmd_off h.journalOff, endedFaulted, State.queue_modQueue_self]
  simp only [State.numbered_queue, State.dropStarted_queue, h.started]
  exact ⟨by simpa using head, by simp, by simpa using noAccepted, trivial, trivial, h.mem⟩

/-- R222: a command that has started completes. -/
theorem State.completeCmd_completed (off : journalOff u) (pass : passed s u q w) (started : (u.queue q).started = [c])
    (running : (u.queue q).running = true) (d0 : Word) : completed s (u.completeCmd q c d0) q w := by
  obtain ⟨head, noAccepted, expect⟩ := pass
  rw [State.completeCmd_off off, completed, passed, State.queue_modQueue_self]
  simp [Queue.restartTimer, started, head, noAccepted, expect, running]
end

end Sys2Proof.Machine
end

section
/-!
PROOFS. LAUNCH, MIGRATE and PARTCFG: what each makes of a good command at the head of its queue (R16, R26, R219 to R222).
-/

namespace Sys2Proof.Machine

open Sys2Proof.Claims (atHead passed completed endedFaulted journalOff)

/-! What a LAUNCH loads (R30, R219). -/

theorem State.loadLts_ce (s : State) (cl src dst n cls act : Nat) : (s.loadLts cl src dst n cls act).ce = s.ce :=
  State.store_ce _ _ _ _
theorem State.loadLts_ctxs (s : State) (cl src dst n cls act : Nat) : (s.loadLts cl src dst n cls act).ctxs = s.ctxs :=
  State.store_ctxs _ _ _ _
/-- Images change neither the command engine nor a context. -/
theorem State.loadCluster_keeps (s : State) (d : VWord) (cl : Nat) :
    (s.loadCluster d cl).ce = s.ce ∧ (s.loadCluster d cl).ctxs = s.ctxs :=
  foldl_keeps (P := fun t : State => t.ce = s.ce ∧ t.ctxs = s.ctxs) _
    (fun t _ ⟨ce, ctxs⟩ => ⟨(t.loadLts_ce ..).trans ce, (t.loadLts_ctxs ..).trans ctxs⟩) _ _
    ⟨s.loadLts_ce .., s.loadLts_ctxs ..⟩
theorem State.loadClusters_keeps (s : State) (d : VWord) (l : List Nat) :
    (l.foldl (fun t cl => t.loadCluster d cl) s).ce = s.ce ∧ (l.foldl (fun t cl => t.loadCluster d cl) s).ctxs = s.ctxs :=
  foldl_keeps (P := fun t : State => t.ce = s.ce ∧ t.ctxs = s.ctxs) _
    (fun t cl ⟨ce, ctxs⟩ => ⟨(t.loadCluster_keeps d cl).1.trans ce, (t.loadCluster_keeps d cl).2.trans ctxs⟩) l s ⟨rfl, rfl⟩

/-! The records of a phase (R16, R223). -/

/-- Records that are posted one after another stand in the pool in that order. -/
theorem State.post_range (f : Nat → Record) (n : Nat) (s : State) : (List.range n).foldl (fun t i => t.post (f i)) s
    = { s with ce := { s.ce with
        pool := s.ce.pool ++ (List.range n).map fun i => { f i with order := s.ce.nextOrder + i }
        nextOrder := s.ce.nextOrder + n } } := by
  induction n with
  | zero => simp
  | succ n ih =>
    rw [List.range_succ, List.foldl_append, ih, List.foldl_cons, List.foldl_nil, State.post, List.map_append]
    simp [Nat.add_assoc]

/-- R16: the entry records of a phase of a kernel, one for each task in ascending order. -/
def entryRecords (kid : Nat) (k : Kernel) (l : List Record) : Prop :=
  l.length = 1024 ∧ ∀ i, i < 1024 → ∃ r : Record, l[i]? = some r ∧ r.task.toNat = i ∧ r.kernel = kid
    ∧ r.resume = u32At k.desc 0xA8 ∧ r.phase = k.phase ∧ r.entry = true ∧ r.segno = 0 ∧ r.args = k.args

theorem State.postPhase_eq {s : State} {kid : Nat} {k : Kernel} (h : s.kernel kid = some k) : ∃ l n,
    s.postPhase kid = { s with ce := { s.ce with pool := s.ce.pool ++ l, nextOrder := n } } ∧ entryRecords kid k l := by
  unfold State.postPhase
  rw [h]
  dsimp only
  rw [State.post_range]
  refine ⟨_, _, rfl, by rw [List.length_map, List.length_range]; rfl, fun i hi => ?_⟩
  rw [List.getElem?_map, List.getElem?_range (show i < Config.tasks from hi)]
  exact ⟨_, rfl, by simpa using Nat.mod_eq_of_lt hi, rfl, rfl, rfl, rfl, rfl, rfl⟩

/-- R210: the snapshot that a kernel's phase takes changes nothing else of it. -/
theorem State.takeSnapshot_eq {s : State} {kid : Nat} {k : Kernel} (h : s.kernel kid = some k) : ∃ m a b,
    s.takeSnapshot kid = { s with ce := { s.ce with
      kernels := AMap.put s.ce.kernels kid { k with moves := m, snap := a, snapPoison := b } } } := by
  unfold State.takeSnapshot State.modKernel
  rw [h]
  cases phased : k.phased
  · exact ⟨k.moves, k.snap, k.snapPoison, by simp [phased]⟩
  · exact ⟨_, _, _, by simp [phased]; rfl⟩

/-! Contexts that a LAUNCH reserves or asks to stop (R26, R228). -/

/-- The contexts run what they ran, and the command engine is as it was. -/
def State.sameWork (s t : State) : Prop :=
  t.ce = s.ce ∧ ∀ g, (t.ctx g).arch = (s.ctx g).arch ∧ (t.ctx g).kernel = (s.ctx g).kernel

theorem State.sameWork_refl (s : State) : s.sameWork s := ⟨rfl, fun _ => ⟨rfl, rfl⟩⟩
theorem State.sameWork_modCtx {s t : State} (h : s.sameWork t) (g : Nat) (f : Ctx → Ctx)
    (keeps : ∀ c, (f c).arch = c.arch ∧ (f c).kernel = c.kernel) : s.sameWork (t.modCtx g f) := by
  refine ⟨h.1, fun j => ?_⟩
  by_cases own : j = g
  · subst own
    rw [State.ctx_modCtx_self, (keeps _).1, (keeps _).2]
    exact h.2 j
  · rw [State.ctx_modCtx_other _ _ own]
    exact h.2 j
theorem Ctx.request_keeps (c : Ctx) : c.request.arch = c.arch ∧ c.request.kernel = c.kernel := by
  unfold Ctx.request
  split <;> exact ⟨rfl, rfl⟩

theorem State.reserve_sameWork (s : State) (m : BitVec 16) (mask : Nat) : s.sameWork (s.reserve m mask) := by
  refine foldl_keeps (P := fun t : State => s.sameWork t) _ (fun t g same => ?_) _ s s.sameWork_refl
  split
  · exact State.sameWork_modCtx same g _ fun _ => ⟨rfl, rfl⟩
  · exact same
theorem State.preemptLower_sameWork {s t : State} (h : s.sameWork t) (m : BitVec 16) (prio : Nat) :
    s.sameWork (t.preemptLower m prio) := by
  refine foldl_keeps (P := fun t : State => s.sameWork t) _ (fun t g same => ?_) _ t h
  split
  · split
    · exact State.sameWork_modCtx same g _ Ctx.request_keeps
    · exact same
  · exact same

/-! The kernel that a LAUNCH starts (R16, R219, R222). -/

/-- The state once the images of a LAUNCH are loaded and its kernel is in the list. -/
def State.kernelAdded (u : State) (q part : Nat) (p : Partition) (c : Started) (d : VWord) : State :=
  let kid := u.ce.nextKernel
  let s1 := (clustersOf p.clusters).foldl (fun t cl => t.loadCluster d cl) u
  let s2 : State := { s1 with ce := { s1.ce with
    kernels := AMap.put s1.ce.kernels kid (newKernel q part (u.queue q).prio u.ce.nextOrder c d (u.regionTable d))
    nextKernel := kid + 1
    nextOrder := s1.ce.nextOrder + 1 } }
  s2.modQueue q fun x => { x with started := x.started.map fun y => if y.n = c.n then { y with kernel := some kid } else y }

section
variable (u : State) (q part : Nat) (p : Partition) (c : Started) (d : VWord)

theorem State.startKernel_sameWork :
    (((u.kernelAdded q part p c d).takeSnapshot u.ce.nextKernel).postPhase u.ce.nextKernel).sameWork
      (u.startKernel q part p c d) := by
  have reserved := (((u.kernelAdded q part p c d).takeSnapshot u.ce.nextKernel).postPhase u.ce.nextKernel).reserve_sameWork
    p.clusters (u8At d 0x22)
  unfold State.startKernel
  dsimp only
  split
  · exact State.preemptLower_sameWork reserved _ _
  · exact reserved

theorem State.kernelAdded_ce : (u.kernelAdded q part p c d).ce = { u.ce with
    queues := AMap.put u.ce.queues q { u.queue q with
      started := (u.queue q).started.map fun y => if y.n = c.n then { y with kernel := some u.ce.nextKernel } else y }
    kernels := AMap.put u.ce.kernels u.ce.nextKernel
      (newKernel q part (u.queue q).prio u.ce.nextOrder c d (u.regionTable d))
    nextKernel := u.ce.nextKernel + 1
    nextOrder := u.ce.nextOrder + 1 } := by
  have loaded := (u.loadClusters_keeps d (clustersOf p.clusters)).1
  simp only [State.kernelAdded, State.modQueue, State.queue, loaded]
theorem State.kernelAdded_ctxs : (u.kernelAdded q part p c d).ctxs = u.ctxs :=
  (u.loadClusters_keeps d (clustersOf p.clusters)).2

/-- R219, R222: k is the kernel that the LAUNCH w of queue q starts with descriptor d. -/
def startedBy (k : Kernel) (q part prio : Nat) (w : BitVec 512) (d : VWord) : Prop :=
  k.queue = q ∧ k.part = part ∧ k.desc = d ∧ k.phase = 0 ∧ k.ended = none ∧ k.prio = prio
    ∧ k.args = (List.range 6).map fun i => u64At w (0x10 + 8 * i)

/-- R16, R219, R222: a LAUNCH whose checks have passed adds its kernel and that kernel's entry records. -/
theorem State.startKernel_spec :
    let t := u.startKernel q part p c d
    (∃ k l, t.kernel u.ce.nextKernel = some k ∧ startedBy k q part (u.queue q).prio c.slot d
        ∧ t.ce.pool = u.ce.pool ++ l ∧ entryRecords u.ce.nextKernel k l)
      ∧ t.ce.nextKernel = u.ce.nextKernel + 1 ∧ (∀ m, m ≠ u.ce.nextKernel → t.kernel m = u.kernel m)
      ∧ t.queue q = { u.queue q with
        started := (u.queue q).started.map fun y => if y.n = c.n then { y with kernel := some u.ce.nextKernel } else y }
      ∧ ∀ g, (t.ctx g).arch = (u.ctx g).arch ∧ (t.ctx g).kernel = (u.ctx g).kernel := by
  intro t
  obtain ⟨same, work⟩ := u.startKernel_sameWork q part p c d
  have added := u.kernelAdded_ce q part p c d
  have ctxs := u.kernelAdded_ctxs q part p c d
  generalize u.kernelAdded q part p c d = v at same work added ctxs
  have new : v.kernel u.ce.nextKernel = some (newKernel q part (u.queue q).prio u.ce.nextOrder c d (u.regionTable d)) := by
    rw [State.kernel, added]
    exact AMap.find_put_self _ _ _
  obtain ⟨m, a, b, snapped⟩ := State.takeSnapshot_eq new
  obtain ⟨l, n, posted, records⟩ := State.postPhase_eq (s := v.takeSnapshot u.ce.nextKernel) (kid := u.ce.nextKernel)
    (by rw [snapped]; exact AMap.find_put_self _ _ _)
  have idle : ((v.takeSnapshot u.ce.nextKernel).postPhase u.ce.nextKernel).ctxs = u.ctxs := by
    rw [posted, snapped]
    exact ctxs
  rw [posted, snapped, added] at same
  refine ⟨⟨_, l, ?_, ⟨rfl, rfl, rfl, rfl, rfl, rfl, rfl⟩, congrArg Engine.pool same, records⟩, congrArg Engine.nextKernel same,
    fun j hj => ?_, ?_, fun g => ?_⟩
  · exact (congrArg (fun e => AMap.find e.kernels u.ce.nextKernel) same).trans (AMap.find_put_self _ _ _)
  · exact (congrArg (fun e => AMap.find e.kernels j) same).trans
      ((AMap.find_put_other _ _ hj).trans (AMap.find_put_other _ _ hj))
  · exact (congrArg (fun e => AMap.get Queue.reset e.queues q) same).trans (AMap.get_put_self _ _ _ _)
  · rw [← State.ctx_congr idle g]
    exact work g
end

/-! LAUNCH (R16, R26, R219, R220). -/

section
variable {s u : State} {q n : Nat} {p : Partition} {w : BitVec 512} {c : Started}

/-- R219: the descriptor that a LAUNCH names. -/
def State.descriptor (s : State) (w : BitVec 512) : VWord := BitVec.ofNat 2048 (readNat s.mem (physKey (u64At w 8).toNat) 256)
/-- R26, R222: a partition has room for a kernel with the spawn reservation that a LAUNCH brings. -/
def State.roomFor (s : State) (n : Nat) (w : BitVec 512) : Prop :=
  (s.activeKernels n).length < 16
    ∧ ∀ k ∈ s.activeKernels n, u8At k.2.desc 0x22 &&& (s.mem.read (physKey ((u64At w 8).toNat + 0x22))).toNat = 0

theorem State.partitionRoom_of_roomFor (part : s.partOf q = some (n, p)) (room : s.roomFor n w) :
    s.partitionRoom q (s.headCmd w) = true := by
  obtain ⟨few, apart⟩ := room
  have fits : (s.activeKernels n).length < Config.partitionKernels := few
  simp only [State.partitionRoom, part, fits, decide_true, Bool.true_and, List.all_eq_true, beq_iff_eq]
  exact apart

/-- R26, R222: a LAUNCH that finds room starts, and is judged by its descriptor. -/
theorem execLaunch_room (h : atHead s q w) (op : u8At w 0 = 1) (part : s.partOf q = some (n, p)) (room : s.roomFor n w) :
    ∃ c u, HeadStarts s q w c u ∧ exec (.launch q) s = .next (
      if (s.mapped ((u64At w 8).toNat + 0x23) && (u8At (s.descriptor w) 0x23).testBit 0 && !(s.queue q).priv) = true then
        u.faultCmd q c 0x42 0 0
      else if (!s.descriptorOk (u64At w 8).toNat (s.descriptor w)) = true then u.faultCmd q c 0x43 0 0
      else u.startKernel q n p c (s.descriptor w)) := by
  obtain ⟨c, u, starts, runs⟩ := State.runCommand_starts h (.inl (by omega)) fun _ => State.partitionRoom_of_roomFor part room
  refine ⟨c, u, starts, ?_⟩
  show execLaunch q s = _
  unfold execLaunch
  rw [runs 1 _ (by rw [op]; rfl), starts.slot, starts.mem, starts.keeps (State.partOf · q), part]
  dsimp only
  rw [starts.keeps (State.mapped · _), starts.priv, starts.keeps (State.descriptorOk · _ _)]
  rfl

theorem execLaunch_badDescriptor (h : atHead s q w) (op : u8At w 0 = 1) (part : s.partOf q = some (n, p))
    (room : s.roomFor n w) (bad : s.descriptorOk (u64At w 8).toNat (s.descriptor w) = false) :
    ∃ t, exec (.launch q) s = .next t ∧ endedFaulted s t q := by
  obtain ⟨c, u, starts, runs⟩ := execLaunch_room h op part room
  refine ⟨_, runs, ?_⟩
  rw [bad]
  split
  · exact starts.faulted _ _ _
  · exact starts.faulted _ _ _

/-- R16, R219, R222: a LAUNCH whose checks pass starts its kernel and posts its entry records. -/
theorem execLaunch_starts (h : atHead s q w) (op : u8At w 0 = 1) (part : s.partOf q = some (n, p)) (room : s.roomFor n w)
    (allowed : (u8At (s.descriptor w) 0x23).testBit 0 = false ∨ (s.queue q).priv = true)
    (good : s.descriptorOk (u64At w 8).toNat (s.descriptor w) = true) :
    ∃ t k l, exec (.launch q) s = .next t ∧ passed s t q w ∧ t.kernel s.ce.nextKernel = some k
      ∧ startedBy k q n (s.queue q).prio w (s.descriptor w) ∧ t.ce.nextKernel = s.ce.nextKernel + 1
      ∧ (∀ m, m ≠ s.ce.nextKernel → t.kernel m = s.kernel m) ∧ t.ce.pool = s.ce.pool ++ l ∧ entryRecords s.ce.nextKernel k l
      ∧ ∀ g, (t.ctx g).arch = (s.ctx g).arch ∧ (t.ctx g).kernel = (s.ctx g).kernel := by
  obtain ⟨c, u, starts, runs⟩ := execLaunch_room h op part room
  have permitted : ¬(s.mapped ((u64At w 8).toNat + 0x23) && (u8At (s.descriptor w) 0x23).testBit 0
      && !(s.queue q).priv) = true := by
    rcases allowed with e | e <;> simp [e]
  rw [if_neg permitted, if_neg (by simp [good])] at runs
  obtain ⟨⟨k, l, new, born, pool, records⟩, next, others, own, ctxs⟩ := u.startKernel_spec q n p c (s.descriptor w)
  rw [starts.prio, starts.slot] at born
  rw [starts.keeps fun v => v.ce.pool] at pool
  rw [starts.keeps fun v => v.ce.nextKernel] at new next others records
  refine ⟨_, k, l, runs, ?_, new, born, next, fun m hm => (others m hm).trans (starts.keeps (State.kernel · m)), pool, records,
    fun g => ?_⟩
  · rw [passed, own]
    exact starts.headPassed
  · rw [← starts.keeps (State.ctx · g)]
    exact ctxs g

/-! MIGRATE and PARTCFG (R221). -/

/-- R221: MIGRATE needs a privileged queue. -/
theorem execMigrate_user (h : atHead s q w) (op : u8At w 0 = 7) (user : (s.queue q).priv = false) :
    ∃ t, exec (.migrate q) s = .next t ∧ endedFaulted s t q :=
  ⟨_, rfl, State.runCommand_refused h (by omega) user (by rw [op]; rfl) _⟩
/-- R221: PARTCFG needs a privileged queue. -/
theorem execPartcfg_user (h : atHead s q w) (op : u8At w 0 = 8) (user : (s.queue q).priv = false) :
    ∃ t, exec (.partcfg q) s = .next t ∧ endedFaulted s t q :=
  ⟨_, rfl, State.runCommand_refused h (by omega) user (by rw [op]; rfl) _⟩

/-- R185, R221: the packet that a MIGRATE names. -/
def State.migratePacket (s : State) (w : BitVec 512) : BitVec 512 :=
  BitVec.ofNat 512 (readNat s.mem (physKey (u64At w 8).toNat) 64)

/-- R221: the command that a MIGRATE on a partition puts in flight. -/
def State.migration (s : State) (n : Nat) (p : Partition) (pkt : BitVec 512) : Cmd :=
  Cmd.new s.nextCmd (migrateIssuer n (8 * ((clustersOf p.clusters).head?.getD 0))) (.pmig pkt 0 0) []
/-- R221: the migration d of command c of a queue is in flight. -/
def State.withMigration (s : State) (q : Nat) (c : Started) (d : Cmd) : State :=
  ({ s with cmds := s.cmds ++ [d], nextCmd := s.nextCmd + 1 } : State).modQueue q fun x => { x with
    started := x.started.map fun y => if y.n = c.n then { y with cmd := some d.id } else y }
theorem State.withMigration_queue (c : Started) (d : Cmd) : (s.withMigration q c d).queue q = { s.queue q with
    started := (s.queue q).started.map fun y => if y.n = c.n then { y with cmd := some d.id } else y } :=
  State.queue_modQueue_self _ _ _

/-- R221: a MIGRATE of a good packet puts its migration in flight. -/
theorem execMigrate_starts (h : atHead s q w) (op : u8At w 0 = 7) (part : s.partOf q = some (n, p))
    (priv : (s.queue q).priv = true) (there : s.structureOk (u64At w 8).toNat 64 = true)
    (good : pmigOk (s.migratePacket w) s.edge.dev = true) : ∃ t d c, exec (.migrate q) s = .next t ∧ passed s t q w
      ∧ t.cmds = s.cmds ++ [d] ∧ d.id = s.nextCmd ∧ d.op = .pmig (s.migratePacket w) 0 0 ∧ d.by_.part = n
      ∧ (t.queue q).started = [c] ∧ c.cmd = some s.nextCmd ∧ t.mem = s.mem ∧ t.ctxs = s.ctxs := by
  obtain ⟨c, u, starts, runs⟩ := State.runCommand_starts h (.inr priv) (by omega)
  have packet : u.migratePacket w = s.migratePacket w := starts.keeps (State.migratePacket · w)
  have legal : ¬(!u.structureOk (u64At w 8).toNat 64 || !pmigOk (u.migratePacket w) u.edge.dev) = true := by
    simp [starts.keeps (State.structureOk · (u64At w 8).toNat 64), there, starts.keeps State.edge, packet, good]
  have nextCmd : u.nextCmd = s.nextCmd := starts.keeps State.nextCmd
  have flies : exec (.migrate q) s = .next (u.withMigration q c (u.migration n p (s.migratePacket w))) := by
    show execMigrate q s = _
    unfold execMigrate
    rw [← packet, runs 7 _ (by rw [op]; rfl), starts.slot, starts.keeps (State.partOf · q), part]
    exact congrArg _ (if_neg legal)
  refine ⟨_, u.migration n p (s.migratePacket w), { c with cmd := some u.nextCmd }, flies, ?_, ?_, nextCmd, rfl, rfl, ?_,
    congrArg some nextCmd, starts.mem, starts.keeps State.ctxs⟩
  · rw [passed, State.withMigration_queue]
    exact starts.headPassed
  · rw [← starts.keeps State.cmds]
    rfl
  · rw [State.withMigration_queue, starts.started]
    simp [State.migration, Cmd.new]

/-- R221: a PARTCFG with a bad field ends faulted. -/
theorem execPartcfg_bad (h : atHead s q w) (op : u8At w 0 = 8) (priv : (s.queue q).priv = true)
    (bad : s.partBad (u8At w 8) (partFields w) = true) : ∃ t, exec (.partcfg q) s = .next t ∧ endedFaulted s t q := by
  obtain ⟨c, u, starts, runs⟩ := State.runCommand_starts h (.inr priv) (by omega)
  refine ⟨u.faultCmd q c 0x41 0 0, ?_, starts.faulted _ _ _⟩
  show execPartcfg q s = _
  unfold execPartcfg
  rw [runs 8 _ (by rw [op]; rfl), starts.slot]
  exact congrArg _ (if_pos ((starts.keeps (State.partBad · _ _)).trans bad))

/-- R221: a partition is not busy while no command of any queue but its own PARTCFG is started, and no other partition shares
a cluster, a group or a queue with it. -/
theorem HeadStarts.partBusy (h : HeadStarts s q w c u) (quiet : ∀ x ∈ s.ce.queues, x.2.started = [])
    (apart : ∀ o ∈ s.ce.parts, o.1 ≠ n → o.2.clusters &&& p.clusters = 0 ∧ o.2.groups &&& p.groups = 0
      ∧ o.2.queues &&& p.queues = 0) : u.partBusy q n c p = false := by
  have own : ∀ x ∈ u.ce.queues, ∀ d ∈ x.2.started, x.1 = q ∧ d = c := fun x hx => by
    rcases h.entries x hx with old | new
    · rw [quiet x old]
      exact fun d hd => absurd hd List.not_mem_nil
    · exact new
  unfold State.partBusy
  rw [Bool.or_eq_false_iff, h.keeps fun v => v.ce.parts]
  refine ⟨List.any_eq_false.2 fun x hx => ?_, List.any_eq_false.2 fun o ho => ?_⟩
  · rw [Bool.and_eq_true, List.any_eq_true]
    rintro ⟨-, d, hd, foreign⟩
    obtain ⟨rfl, rfl⟩ := own x hx d hd
    simp at foreign
  · by_cases other : o.1 = n
    · simp [other]
    · obtain ⟨clusters, groups, queues⟩ := apart o ho other
      simp [clusters, groups, queues]

/-- R221: the state with a partition set, or taken away where it has no cluster. -/
def State.withPartition (s : State) (n : Nat) (p : Partition) : State :=
  { s with ce := { s.ce with parts := if p.clusters = 0 then AMap.del s.ce.parts n else AMap.put s.ce.parts n p } }
theorem State.withPartition_self (s : State) (n : Nat) (p : Partition) :
    AMap.find (s.withPartition n p).ce.parts n = if p.clusters = 0 then none else some p := by
  simp only [State.withPartition]
  split <;> simp
theorem State.withPartition_other (s : State) {n m : Nat} (p : Partition) (h : m ≠ n) :
    AMap.find (s.withPartition n p).ce.parts m = AMap.find s.ce.parts m := by
  simp only [State.withPartition]
  split
  · rw [AMap.find_del, if_neg h]
  · exact AMap.find_put_other _ _ h

/-- R221: a PARTCFG of a good partition that is not busy sets it. -/
theorem execPartcfg_sets (h : atHead s q w) (op : u8At w 0 = 8) (priv : (s.queue q).priv = true)
    (good : s.partBad (u8At w 8) (partFields w) = false) (quiet : ∀ x ∈ s.ce.queues, x.2.started = [])
    (apart : ∀ o ∈ s.ce.parts, o.1 ≠ u8At w 8 → o.2.clusters &&& (partFields w).clusters = 0
      ∧ o.2.groups &&& (partFields w).groups = 0 ∧ o.2.queues &&& (partFields w).queues = 0) :
    ∃ t, exec (.partcfg q) s = .next t ∧ completed s t q w ∧ t.mem = s.mem ∧ t.ctxs = s.ctxs
      ∧ AMap.find t.ce.parts (u8At w 8) = (if (partFields w).clusters = 0 then none else some (partFields w))
      ∧ ∀ m, m ≠ u8At w 8 → AMap.find t.ce.parts m = AMap.find s.ce.parts m := by
  obtain ⟨c, u, starts, runs⟩ := State.runCommand_starts h (.inr priv) (by omega)
  have free := starts.partBusy quiet apart
  have good' : u.partBad (u8At w 8) (partFields w) = false := (starts.keeps (State.partBad · _ _)).trans good
  have off : journalOff (u.withPartition (u8At w 8) (partFields w)) := starts.journalOff
  have sets : exec (.partcfg q) s = .next ((u.withPartition (u8At w 8) (partFields w)).completeCmd q c 0) := by
    show execPartcfg q s = _
    unfold execPartcfg
    rw [runs 8 _ (by rw [op]; rfl), starts.slot]
    exact congrArg _ ((if_neg (by simp [good'])).trans (if_neg (by simp [free])))
  refine ⟨_, sets, State.completeCmd_completed off starts.headPassed starts.started starts.running 0, ?_⟩
  obtain ⟨mem, ctxs, parts⟩ := State.completeCmd_frame off q c 0
  rw [mem, ctxs, parts]
  exact ⟨starts.mem, starts.keeps State.ctxs, u.withPartition_self _ _, fun m hm =>
    (u.withPartition_other _ hm).trans (starts.keeps fun v => AMap.find v.ce.parts m)⟩
end

end Sys2Proof.Machine
end

section
/-!
PROOFS. The statements of the execution family, settled: ResetState, LaunchMigrateAndPartcfgEvents and
SpawnAndSegmentEndResults.
-/

namespace Sys2Proof.Machine

/-- Settles O19 (R17, R60, R216): nothing is listed at reset, so every context, queue and byte has its reset value. -/
theorem resetState : Obligations.ResetState := by
  unfold Obligations.ResetState
  exact ⟨fun _ => ⟨rfl, rfl, rfl⟩, fun _ => rfl, rfl, rfl, rfl, Memory.read_nil⟩

/-- Settles O29 (R16, R26, R216, R218 to R222), command by command: each starts and does its work, or ends faulted. -/
theorem launchMigrateAndPartcfgEvents : Obligations.LaunchMigrateAndPartcfgEvents := by
  unfold Obligations.LaunchMigrateAndPartcfgEvents
  refine ⟨fun q n p w s head op part => ⟨fun room allowed good => ?_, execLaunch_badDescriptor head op part⟩,
    fun q n p w s head op part => ⟨execMigrate_starts head op part, execMigrate_user head op⟩,
    fun q w s head op => ⟨execPartcfg_sets head op, execPartcfg_bad head op, execPartcfg_user head op⟩⟩
  obtain ⟨t, k, l, runs, pass, new, ⟨queue, part, desc, phase, ended, prio, args⟩, next, others, pool, ⟨count, each⟩, ctxs⟩ :=
    execLaunch_starts head op part room allowed good
  refine ⟨t, k, runs, pass, new, queue, part, desc, phase, ended, prio, next, others, ⟨l, pool, count, fun i hi => ?_⟩, ctxs⟩
  obtain ⟨r, place, task, kernel, resume, inPhase, entry, segno, words⟩ := each i hi
  exact ⟨r, place, task, kernel, resume.trans (by rw [desc]; rfl), inPhase.trans phase, entry, segno, words.trans args⟩

/-- Settles O49 (R15, R20, R22, R23, R304): a claim or the SPAWN cause; the end of the segment or a stall. -/
theorem spawnAndSegmentEndResults : Obligations.SpawnAndSegmentEndResults := by
  unfold Obligations.SpawnAndSegmentEndResults
  exact ⟨spawnResults, segmentEndResults⟩

end Sys2Proof.Machine
end

section
/-!
PROOFS. The slot instructions, each in its slots (R64, R71): what an instruction leaves when its slot may hold it, the writes
that it adds to the pending ones, and the words that decode to it.
-/

namespace Sys2Proof.Machine

open Sys2Proof.Claims (mayStand)
open Sys2Proof.Laws.Encoding

/-! The fields of an encoded word (R62). -/

theorem major_encA (op : BitVec 7) (d a b : BitVec 5) (fn : BitVec 10) : (encA op d a b fn).extractLsb' 25 7 = op :=
  (bits_A_op op d a b fn 25 7 (by decide)).trans BitVec.extractLsb'_eq_self
theorem major_encB (op : BitVec 7) (d a : BitVec 5) (imm : BitVec 15) : (encB op d a imm).extractLsb' 25 7 = op :=
  (bits_B_op op d a imm 25 7 (by decide)).trans BitVec.extractLsb'_eq_self
theorem major_encC (op : BitVec 7) (d : BitVec 5) (imm : BitVec 20) : (encC op d imm).extractLsb' 25 7 = op :=
  (bits_C_op op d imm 25 7 (by decide)).trans BitVec.extractLsb'_eq_self
theorem major_encM (op : BitVec 7) (t base : BitVec 5) (pg : BitVec 3) (off : BitVec 12) :
    (encM op t base pg off).extractLsb' 25 7 = op :=
  (bits_M_op op t base pg off 25 7 (by decide)).trans BitVec.extractLsb'_eq_self
theorem major_encE (op : BitVec 7) (eop : BitVec 10) (a b : BitVec 5) : (encE op eop a b).extractLsb' 25 7 = op :=
  (bits_E_op op eop a b 25 7 (by decide)).trans BitVec.extractLsb'_eq_self
theorem major_encV (op : BitVec 7) (d a b : BitVec 5) (pg : BitVec 3) (ty : BitVec 2) (zi zo : Bool) (fn : BitVec 3) :
    (encV op d a b pg ty zi zo fn).extractLsb' 25 7 = op :=
  (bits_V_op op d a b pg ty zi zo fn 25 7 (by decide)).trans BitVec.extractLsb'_eq_self
theorem dest_encA (op : BitVec 7) (d a b : BitVec 5) (fn : BitVec 10) : (encA op d a b fn).extractLsb' 20 5 = d :=
  (bits_A_d op d a b fn 20 5 (by decide) (by decide)).trans BitVec.extractLsb'_eq_self
theorem dest_encB (op : BitVec 7) (d a : BitVec 5) (imm : BitVec 15) : (encB op d a imm).extractLsb' 20 5 = d :=
  (bits_B_d op d a imm 20 5 (by decide) (by decide)).trans BitVec.extractLsb'_eq_self
theorem dest_encC (op : BitVec 7) (d : BitVec 5) (imm : BitVec 20) : (encC op d imm).extractLsb' 20 5 = d :=
  (bits_C_d op d imm 20 5 (by decide) (by decide)).trans BitVec.extractLsb'_eq_self
theorem dest_encV (op : BitVec 7) (d a b : BitVec 5) (pg : BitVec 3) (ty : BitVec 2) (zi zo : Bool) (fn : BitVec 3) :
    (encV op d a b pg ty zi zo fn).extractLsb' 20 5 = d :=
  (bits_V_vd op d a b pg ty zi zo fn 20 5 (by decide) (by decide)).trans BitVec.extractLsb'_eq_self

/-! Slots (R64). -/

/-- R64: the slots that hold the words of a major. -/
def slotsOfMajor (m : Nat) : List Nat :=
  match m with
  | 0x35 | 0x36 => [5]
  | m => if m ≤ 0x10 then [1, 2] else if m ≤ 0x21 then [3] else if m ≤ 0x38 then [4, 5] else if m ≤ 0x44 then [6]
    else if m ≤ 0x68 then [0] else [7]

/-- An instruction whose word has a major may stand in the slots of that major. -/
theorem mayStand_of_major {i : Instr} {op : BitVec 7} {l : List Nat}
    (h : mayStand i = slotsOfMajor ((encodeWord i).extractLsb' 25 7 : BitVec 7).toNat)
    (major : (encodeWord i).extractLsb' 25 7 = op) (slots : slotsOfMajor op.toNat = l) : mayStand i = l := by
  rw [h, major, slots]

/-- R64, R71: an instruction has the effect k in the slots l that may hold it, which `ok` tells. -/
structure Runs (i : Instr) (l : List Nat) (ok : Nat → Bool) (k : State → State) : Prop where
  slots : mayStand i = l
  runs : ∀ s, exec i s = inSlot ok s k
  fits : ∀ n, ok n = true ↔ n ∈ l

section
variable {i : Instr} {k : State → State}

theorem runsST (slots : mayStand i = [1, 2]) (runs : ∀ s, exec i s = inST s k) : Runs i [1, 2] slotScalar k :=
  ⟨slots, runs, fun n => by simp [slotScalar]⟩
theorem runsVW (slots : mayStand i = [4, 5]) (runs : ∀ s, exec i s = inVW s k) : Runs i [4, 5] slotVector k :=
  ⟨slots, runs, fun n => by simp [slotVector]⟩
theorem runsW (slots : mayStand i = [5]) (runs : ∀ s, exec i s = inW s k) : Runs i [5] (· == 5) k :=
  ⟨slots, runs, fun n => by simp⟩
theorem runsX (slots : mayStand i = [6]) (runs : ∀ s, exec i s = inX s k) : Runs i [6] (· == 6) k :=
  ⟨slots, runs, fun n => by simp⟩
theorem runsM (slots : mayStand i = [3]) (runs : ∀ s, exec i s = inM s k) : Runs i [3] (· == 3) k :=
  ⟨slots, runs, fun n => by simp⟩
theorem runsC (slots : mayStand i = [0]) (runs : ∀ s, exec i s = inC s k) : Runs i [0] (· == 0) k :=
  ⟨slots, runs, fun n => by simp⟩
theorem runsE (slots : mayStand i = [7]) (runs : ∀ s, exec i s = inE s k) : Runs i [7] (· == 7) k :=
  ⟨slots, runs, fun n => by simp⟩

end

/-! What an instruction adds to the pending writes of its context (R40 to R42). -/

/-- From s on to t, the context that executes has more pending writes behind those that it had, each of a register file and
number that `names` allows and of a later tick, and RNGCTR has advanced by n; everything else is as it was. -/
structure Issues (names : RegFile → Nat → Prop) (n : Word) (s t : State) : Prop where
  only : OnlyArch s t
  iss : t.iss = s.iss
  arch : ∃ l : List Pending, t.me.arch = { s.me.arch with pend := s.me.arch.pend ++ l, rngctr := s.me.arch.rngctr + n }
    ∧ ∀ p ∈ l, s.me.arch.tick < p.tick ∧ names p.file p.num

section
variable {names : RegFile → Nat → Prop} {n : Word} {s t : State}

theorem Issues.refl (names : RegFile → Nat → Prop) (s : State) : Issues names 0 s s :=
  ⟨.refl s, rfl, [], by simp, fun _ hp => nomatch hp⟩

theorem Issues.streams (h : Issues names n s t) (none : s.me.arch.streams = []) : t.me.arch.streams = [] := by
  obtain ⟨l, hl, -⟩ := h.arch
  rw [hl]; exact none

theorem State.me_modArch (s : State) (f : Arch → Arch) : (s.modArch s.cur f).me = { s.me with arch := f s.me.arch } :=
  State.ctx_modArch_self s s.cur f

theorem Issues.landAt (h : Issues names n s t) {l : Nat} (later : 0 < l) {file : RegFile} {num : Nat} (named : names file num)
    (mask : PWord) (val : VWord) (poison : Option Word) : Issues names n s (t.landAt l file num mask val poison) := by
  obtain ⟨only, iss, w, arch, each⟩ := h
  refine ⟨only.trans (t.landAt_only ..), iss, w ++ [⟨file, num, t.me.arch.tick + l, t.slot, mask, val, t.iss.parcel, t.iss.rep,
    poison, t.me.arch.tick, none, none⟩], ?_, ?_⟩
  · unfold State.landAt
    rw [State.me_modArch, arch, List.append_assoc]
  · rw [arch]
    simp only [List.mem_append, List.mem_singleton]
    rintro p (hp | rfl)
    · exact each p hp
    · exact ⟨Nat.lt_add_of_pos_right later, named⟩

theorem Issues.landS (h : Issues names n s t) {l : Nat} (later : 0 < l) {d : Nat} (named : d ≠ 0 → names .scalar d) (v : Word) :
    Issues names n s (t.landS l d v) := by
  unfold State.landS
  split
  · exact h
  · exact h.landAt later (named ‹_›) ..

theorem Issues.landP (h : Issues names n s t) {l : Nat} (later : 0 < l) {d : Nat} (named : d ≠ 0 → names .predicate d)
    (mask v : PWord) : Issues names n s (t.landP l d mask v) := by
  unfold State.landP
  split
  · exact h
  · exact h.landAt later (named ‹_›) ..

theorem Issues.raiseFlags (h : Issues names n s t) {l : Nat} (later : 0 < l) (named : names .flagSet 0x01E) (f : BitVec 4) :
    Issues names n s (t.raiseFlags l f) := by
  unfold State.raiseFlags
  split
  · exact h
  · exact h.landAt later named ..

end

end Sys2Proof.Machine
end

section
/-!
PROOFS. Results of the instructions of slots S, T, V, W and X (R288, R341 to R379) as pending writes of their destination.
-/

namespace Sys2Proof.Machine

open Sys2Proof.Claims (mayStand lands)

/-- R51: the number that bits [24:20] of the word of an instruction give its destination. -/
def destField (i : Instr) : Nat := ((encodeWord i).extractLsb' 20 5 : BitVec 5).toNat

theorem destField_eq {i : Instr} {d : BitVec 5} (h : (encodeWord i).extractLsb' 20 5 = d) : destField i = d.toNat := by
  rw [destField, h]

/-! Slots S and T (R288). -/

/-- R288: FLAGS, and the scalar register that a word names as its destination. -/
def scalarNames (i : Instr) (file : RegFile) (num : Nat) : Prop :=
  file = .flagSet ∨ (file = .scalar ∧ num = destField i ∧ num ≠ 0)

section
variable {i : Instr} {s t : State} {d : BitVec 5} {l : Nat}

/-- R288: from s on to t, a scalar instruction has added writes of its destination or of FLAGS, and nothing else. -/
def ScalarIssues (i : Instr) (s t : State) : Prop := Issues (scalarNames i) 0 s t

theorem scalarIssues_self : ScalarIssues i s s := Issues.refl _ _

theorem scalarIssues_landS (h : (encodeWord i).extractLsb' 20 5 = d) (later : 0 < l) {v : Word} :
    ScalarIssues i s (s.landS l d.toNat v) :=
  scalarIssues_self.landS later (fun hd => .inr ⟨rfl, (destField_eq h).symm, hd⟩) _

end

/-! Slots V, W and X (R51, R56, R88). -/

/-- R41: FLAGS, and the registers that a word of slots V, W and X names as its destinations. -/
def vectorNames (i : Instr) (file : RegFile) (num : Nat) : Prop :=
  file = .flagSet ∨ (file = .vector ∧ num = destField i)
    ∨ (file = .predicate ∧ num ≠ 0 ∧ (num = destField i ∨ (∃ d a b pf w zi zo,
      (i = .vdot d a b pf w zi zo ∨ i = .vdota d a b pf w zi zo) ∧ num = pf.toNat)))
    ∨ (file = .scalar ∧ (num = destField i ∨ ∃ d a b, i = .xqnt d a b ∧ num = b.toNat))

/-- R40 to R42, R88: from s on to t, a vector instruction has added writes of its destinations or of FLAGS, and RNGCTR has
advanced at most by one. -/
def VectorIssues (i : Instr) (s t : State) : Prop := ∃ n, (n = 0 ∨ n = 1) ∧ Issues (vectorNames i) n s t

theorem Arch.bound_noStreams {a : Arch} (none : a.streams = []) (r : Nat) : a.bound r = Option.none := by
  simp [Arch.bound, none]

section
variable {i : Instr} {s u : State} {d r : BitVec 5} {l : Nat}

theorem vectorIssues_self : VectorIssues i s s := ⟨0, .inl rfl, .refl _ _⟩

theorem vectorIssues_drawn {m : RMode} : VectorIssues i s (s.drawn m) := by
  by_cases h : m = .sr
  · refine ⟨1, .inr rfl, ?_⟩
    rw [State.drawn, if_pos h]
    exact ⟨State.modArch_only .., rfl, [], by rw [State.me_modArch]; simp, fun _ hp => nomatch hp⟩
  · rw [State.drawn, if_neg h]
    exact vectorIssues_self

namespace VectorIssues

theorem noStreams (h : VectorIssues i s u) (none : s.me.arch.streams = []) : u.me.arch.streams = [] :=
  let ⟨_, _, h⟩ := h
  h.streams none

theorem raiseFlags (h : VectorIssues i s u) (later : 0 < l) {f : BitVec 4} : VectorIssues i s (u.raiseFlags l f) :=
  let ⟨n, hn, h⟩ := h
  ⟨n, hn, h.raiseFlags later (.inl rfl) f⟩

theorem landS (h : VectorIssues i s u) (later : 0 < l) (field : (encodeWord i).extractLsb' 20 5 = d) {v : Word} :
    VectorIssues i s (u.landS l d.toNat v) :=
  let ⟨n, hn, h⟩ := h
  ⟨n, hn, h.landS later (fun _ => .inr (.inr (.inr ⟨rfl, .inl (destField_eq field).symm⟩))) v⟩

/-- R378: XQNT lands its block scale in sb. -/
theorem landScale {vd va b : BitVec 5} (h : VectorIssues (.xqnt vd va b) s u) (later : 0 < l) {v : Word} :
    VectorIssues (.xqnt vd va b) s (u.landS l b.toNat v) :=
  let ⟨n, hn, h⟩ := h
  ⟨n, hn, h.landS later (fun _ => .inr (.inr (.inr ⟨rfl, .inr ⟨vd, va, b, rfl, rfl⟩⟩))) v⟩

theorem landP (h : VectorIssues i s u) (later : 0 < l) {d : BitVec 3}
    (field : (encodeWord i).extractLsb' 20 5 = d.zeroExtend 5) {mask v : PWord} : VectorIssues i s (u.landP l d.toNat mask v) :=
  let ⟨n, hn, h⟩ := h
  have num : d.toNat = destField i := by
    rw [destField_eq field]; exact (BitVec.toNat_setWidth_of_le (by decide)).symm
  ⟨n, hn, h.landP later (fun hd => .inr (.inr (.inl ⟨rfl, hd, .inl num⟩))) mask v⟩

theorem landV (h : VectorIssues i s u) (none : s.me.arch.streams = []) (later : 0 < l)
    (field : (encodeWord i).extractLsb' 20 5 = d) {mask : PWord} {v : VWord} : VectorIssues i s (u.landV l d mask v) := by
  rw [State.landV_register (Arch.bound_noStreams (h.noStreams none) _)]
  obtain ⟨n, hn, h⟩ := h
  exact ⟨n, hn, h.landAt later (.inr (.inl ⟨rfl, (destField_eq field).symm⟩)) ..⟩

theorem landFloat (h : VectorIssues i s u) (none : s.me.arch.streams = []) (later : 0 < l)
    (field : (encodeWord i).extractLsb' 20 5 = d) {pg : BitVec 3} {w : EW} {zo : Bool} {rs : List Rounded} :
    VectorIssues i s (u.landFloat l d pg w zo rs) :=
  (h.raiseFlags later).landV none later field

end VectorIssues

/-- With no stream bound a destination is no read stream. -/
theorem State.checkDst_noStreams (none : s.me.arch.streams = []) (d : BitVec 5) (k : State → State) : s.checkDst d k = k s :=
  State.checkDst_register (Arch.bound_noStreams none _) k
/-- With no stream bound a source is a register. -/
theorem State.readV_noStreams (none : s.me.arch.streams = []) (l : Nat) (r : BitVec 5) (k : VWord → State → State) :
    s.readV l r k = k (s.me.arch.v r.toNat) s := State.readV_register (Arch.bound_noStreams none _) l k

/-- A vector instruction that writes no register named by a stream. -/
theorem vectorIssues_checkDst {k : State → State} (none : s.me.arch.streams = []) (h : VectorIssues i s (k s)) :
    VectorIssues i s (s.checkDst d k) := by rwa [State.checkDst_noStreams none]
theorem vectorIssues_readV {k : VWord → State → State} (none : s.me.arch.streams = [])
    (h : VectorIssues i s (k (s.me.arch.v r.toNat) s)) : VectorIssues i s (s.readV l r k) := by
  rwa [State.readV_noStreams none]

theorem vectorIssues_landV (none : s.me.arch.streams = []) (later : 0 < l) (field : (encodeWord i).extractLsb' 20 5 = d)
    {mask : PWord} {v : VWord} : VectorIssues i s (s.landV l d mask v) := vectorIssues_self.landV none later field

end

end Sys2Proof.Machine
end

section
/-!
PROOFS. The shapes of the instructions of slots V, W and X, and every slot word in its slots (R38, R64, R71).
-/

namespace Sys2Proof.Machine

open Sys2Proof.Claims (mayStand lands)

/-! The shapes of vector instructions (R51, R341, R353, R366, R369). -/

section
variable {i : Instr} {s : State} {l : Nat} {vd va vb : BitVec 5} {pg : BitVec 3} {w : EW} {zi zo : Bool}

section
variable (none : s.me.arch.streams = []) (field : (encodeWord i).extractLsb' 20 5 = vd)
include none field

theorem vectorIssues_vmap1 (later : 0 < l) {f : Nat → Nat} : VectorIssues i s (s.vmap1 l vd va pg w f) :=
  vectorIssues_checkDst none (vectorIssues_readV none (vectorIssues_landV none later field))
theorem vectorIssues_vmap2 (later : 0 < l) {f : Nat → Nat → Nat} : VectorIssues i s (s.vmap2 l vd va vb pg w f) :=
  vectorIssues_checkDst none (vectorIssues_readV none (vectorIssues_readV none (vectorIssues_landV none later field)))
theorem vectorIssues_vmapX (later : 0 < l) {f : Nat → Nat → Nat} : VectorIssues i s (s.vmapX l vd va vb pg w f) :=
  vectorIssues_checkDst none (vectorIssues_readV none (vectorIssues_landV none later field))
theorem vectorIssues_vreduce {f : List Nat → Nat} : VectorIssues i s (s.vreduce vd va pg w f) :=
  vectorIssues_checkDst none (vectorIssues_readV none (vectorIssues_landV none (by decide) field))
theorem vectorIssues_vfloat2 {op : RMode → FV → FV → FV} : VectorIssues i s (s.vfloat2 vd va vb pg w zi zo op) :=
  vectorIssues_checkDst none (vectorIssues_readV none (vectorIssues_readV none
    (vectorIssues_drawn.landFloat none (by decide) field)))
theorem vectorIssues_vcode1 {op : FFmt → Nat → Nat} : VectorIssues i s (s.vcode1 vd va pg w zi zo op) :=
  vectorIssues_checkDst none (vectorIssues_readV none (vectorIssues_self.landFloat none (by decide) field))
theorem vectorIssues_vcode2 {op : FFmt → Nat → Nat → Nat} : VectorIssues i s (s.vcode2 vd va vb pg w zi zo op) :=
  vectorIssues_checkDst none (vectorIssues_readV none (vectorIssues_readV none
    (vectorIssues_self.landFloat none (by decide) field)))
theorem vectorIssues_vfused {sub : Bool} : VectorIssues i s (s.vfused vd va vb pg w zi zo sub) :=
  vectorIssues_checkDst none (vectorIssues_readV none (vectorIssues_readV none (vectorIssues_readV none
    (vectorIssues_drawn.landFloat none (by decide) field))))
theorem vectorIssues_vfbest {op : FFmt → Nat → Nat → Nat} : VectorIssues i s (s.vfbest vd va pg w zi zo op) :=
  vectorIssues_checkDst none (vectorIssues_readV none ((vectorIssues_self.raiseFlags (by decide)).landV none (by decide) field))
theorem vectorIssues_vspecial {fn : SpecFn} : VectorIssues i s (s.vspecial vd va pg w zi zo fn) :=
  vectorIssues_checkDst none (vectorIssues_readV none (vectorIssues_self.landFloat none (by decide) field))

end

section
variable {pd : BitVec 3} (none : s.me.arch.streams = []) (field : (encodeWord i).extractLsb' 20 5 = pd.zeroExtend 5)
include none field

theorem vectorIssues_vcmp (later : 0 < l) {f : Nat → Nat → Bool} : VectorIssues i s (s.vcmp l pd va vb pg w f) :=
  vectorIssues_readV none (vectorIssues_readV none (vectorIssues_self.landP later field))
theorem vectorIssues_vfcmp {op : FV → FV → Bool} : VectorIssues i s (s.vfcmp pd va vb pg w zi op) := by
  unfold State.vfcmp
  exact vectorIssues_vcmp none field (by decide)

end

end

/-- A vector instruction issues its writes, or is ILLEGAL; only a VBNET uses a free choice. -/
def VectorSettles (i : Instr) (s t : State) : Prop :=
  (∃ c, t.iss.verdict = .raised c) ∨ ∃ ch, VectorIssues i { s with choice := ch } t ∧ ((∀ d a b k, i ≠ .vbnet d a b k) → ch = s.choice)

theorem VectorIssues.settles {i : Instr} {s t : State} (h : VectorIssues i s t) : VectorSettles i s t :=
  .inr ⟨s.choice, h, fun _ => rfl⟩

/-- R348: VDOT and VDOTA are ILLEGAL under a segment length that the spec does not name. -/
theorem vectorSettles_vdot {i : Instr} {s : State} {vd va vb : BitVec 5} {pf : BitVec 3} {w : EW} {zi acc : Bool}
    (none : s.me.arch.streams = []) (field : (encodeWord i).extractLsb' 20 5 = vd)
    (dot : ∃ d a b pf' w zi zo, (i = .vdot d a b pf' w zi zo ∨ i = .vdota d a b pf' w zi zo) ∧ pf = pf') :
    VectorSettles i s (s.vdot vd va vb pf w zi acc) := by
  obtain ⟨d, a, b, pf, w', zi', zo, is, rfl⟩ := dot
  unfold State.vdot
  by_cases h : 6 ≤ fld s.me.arch.fmt 20 18
  · exact .inl ⟨_, by dsimp only; rw [if_pos h]; rfl⟩
  · dsimp only
    rw [if_neg h]
    refine VectorIssues.settles (vectorIssues_checkDst none ?_)
    have lands (q : PWord) (f : BitVec 4) (v : VWord) :
        VectorIssues i s (((s.raiseFlags 6 f).landP 6 pf.toNat allLanes q).landV 6 vd allLanes v) := by
      refine VectorIssues.landV ?_ none (by decide) field
      obtain ⟨n, hn, h⟩ := (vectorIssues_self (i := i) (s := s)).raiseFlags (l := 6) (f := f) (by decide)
      exact ⟨n, hn, h.landP (by decide)
        (fun hd => .inr (.inr (.inl ⟨rfl, hd, .inr ⟨d, a, b, pf, w', zi', zo, is, rfl⟩⟩))) ..⟩
    cases acc <;> simp only [Bool.false_eq_true, if_false, if_true, State.readV_noStreams none] <;> exact lands ..

/-- R296: the stencil of a VBNET changes nothing but the choice. -/
theorem State.stencil_choice (s : State) (k : Nat) : ∃ ch, (s.stencil k).2 = { s with choice := ch } := by
  refine foldl_keeps (P := fun r : BitVec 28672 × State => ∃ ch, r.2 = { s with choice := ch }) _ ?_ _ _ ⟨s.choice, rfl⟩
  rintro ⟨st, u⟩ e ⟨ch, rfl⟩
  dsimp only
  split
  · exact ⟨ch, rfl⟩
  · exact ⟨_, rfl⟩

theorem vectorSettles_vbnet {s : State} {vd va vb : BitVec 5} {k : BitVec 3} (none : s.me.arch.streams = []) {x y : VWord} :
    VectorSettles (.vbnet vd va vb k) s ((s.stencil k.toNat).2.landV 3 vd allLanes (routeBits (s.stencil k.toNat).1 x y)) := by
  obtain ⟨ch, hch⟩ := s.stencil_choice k.toNat
  have field : (encodeWord (.vbnet vd va vb k)).extractLsb' 20 5 = vd := dest_encA ..
  rw [hch]
  exact .inr ⟨ch, vectorIssues_landV (s := { s with choice := ch }) none (by decide) field, fun h => absurd rfl (h _ _ _ _)⟩

/-- R38, R64, R71: what a slot word is: NOP or ILLEGAL in every slot, or an instruction that has its effect in the slots of its
major and is ILLEGAL elsewhere; of slots S and T, and of V, W and X, with what it issues. -/
inductive WordForm (i : Instr) : Prop
  | anywhere (is : i = .nop ∨ ∃ w, i = .illegalWord w)
  | scalar (k : State → State) (runs : Runs i [1, 2] slotScalar k) (issues : ∀ s, ScalarIssues i s (k s))
  | vector (l : List Nat) (ok : Nat → Bool) (k : State → State) (runs : Runs i l ok k) (slots : ∀ n ∈ l, n = 4 ∨ n = 5 ∨ n = 6)
      (settles : ∀ s, s.me.arch.streams = [] → VectorSettles i s (k s))
  | other (l : List Nat) (ok : Nat → Bool) (k : State → State) (runs : Runs i l ok k) (slots : ∀ n ∈ l, n = 0 ∨ n = 3 ∨ n = 7)

section
variable {i : Instr} {k : State → State}

theorem WordForm.vw (slots : mayStand i = [4, 5]) (runs : ∀ s, exec i s = inVW s k)
    (issues : ∀ s, s.me.arch.streams = [] → VectorIssues i s (k s)) : WordForm i :=
  .vector _ _ k (runsVW slots runs) (by decide) fun s none => (issues s none).settles
theorem WordForm.w (slots : mayStand i = [5]) (runs : ∀ s, exec i s = inW s k)
    (issues : ∀ s, s.me.arch.streams = [] → VectorIssues i s (k s)) : WordForm i :=
  .vector _ _ k (runsW slots runs) (by decide) fun s none => (issues s none).settles
theorem WordForm.x (slots : mayStand i = [6]) (runs : ∀ s, exec i s = inX s k)
    (issues : ∀ s, s.me.arch.streams = [] → VectorIssues i s (k s)) : WordForm i :=
  .vector _ _ k (runsX slots runs) (by decide) fun s none => (issues s none).settles
theorem WordForm.m (slots : mayStand i = [3]) (runs : ∀ s, exec i s = inM s k) : WordForm i :=
  .other _ _ k (runsM slots runs) (by decide)
theorem WordForm.c (slots : mayStand i = [0]) (runs : ∀ s, exec i s = inC s k) : WordForm i :=
  .other _ _ k (runsC slots runs) (by decide)
theorem WordForm.e (slots : mayStand i = [7]) (runs : ∀ s, exec i s = inE s k) : WordForm i :=
  .other _ _ k (runsE slots runs) (by decide)

end

end Sys2Proof.Machine
end

section
/-!
PROOFS. The words that decode (R62 to R71): none decodes to a parcel, to a step of the device, to NOP but zero, or to
ILLEGAL.
-/

namespace Sys2Proof.Machine

open Sys2Proof.Claims (mayStand lands)

/-- R62: an instruction of a row of the encoding tables: neither NOP nor an ILLEGAL word, a parcel or a step of the device. -/
def isRow : Instr → Bool
  | .nop | .illegalWord _ | .print _ _ | .fullBundleHeader _ | .stackSlide _ | .inverseSlide _ | .launch _ | .semsig _ | .semwait _
  | .semwaitConditionMet _ | .semtmo _ | .qbarrier _ | .timestamp _ | .jmark _ | .migrate _ | .partcfg _ | .recordPickup _
  | .spawnedContextStart _ | .proofSeal _ | .strikeReport _ | .trapEntry _ | .preemptFreeze _ | .preemptSave _
  | .contextResume _ | .calends _ | .kernelCompletion _ | .watchdogCheck | .watchdogDrain _ | .ageTick _ | .ltsExpiry _
  | .refreshServiceSlot _ | .matrixKstep _ _ | .mretDrain _ _ | .gangCompletion _ | .factorStop _ | .copyCompletion _
  | .globalAccessCompletion _ | .collCompletion _ _ | .weightStreamTile _ | .streamPrefetch _ _ | .vigilCompletion _
  | .vigilto _ | .replaydiv _ | .pmigPageMigration _ | .noleveRemoteAccess _ _ _ | .tlbShootdown _ _ | .doorbell _ _
  | .queueConfigWrite _ _ _ _ | .qctlRestart _ | .qctlPreempt _ | .replayLogReadPointer _ _ | .jcfgWrite _ _ | .fqptrWrite _
  | .dbgctlHalt _ | .dbgctlStep _ | .debuggerStateWrite _ _ | .debuggerRelease _ | .parcelBreakpoint _
  | .mgmtRegisterWrite _ _ _ | .hostWindowAccess _ _ _ | .channelRetirement _ | .channelRetrain _ _ | .rowActivation _ _
  | .refreshWindow _ | .coldStart _ | .deviceReset | .standbyEntry | .interfaceNegotiation _ _ | .attestationQuote _
  | .debugResume _ | .lqryServed _ | .cappedStateChange _ => false
  | _ => true

/-- Whatever it is that has decoded, it is an instruction of a row. -/
def Rows (o : Option Instr) : Prop := ∀ i, o = some i → isRow i = true

theorem rows_none : Rows none := fun _ h => nomatch h
theorem rows_some (i : Instr) : Rows (some i) ↔ isRow i = true := by simp [Rows]
theorem rows_need (c : Prop) [Decidable c] (i : Instr) : Rows (need c i) ↔ (c → isRow i = true) := by
  by_cases h : c <;> simp [Rows, need, h]
theorem rows_bind {α : Type} (o : Option α) (k : α → Option Instr) : Rows (o.bind k) ↔ ∀ x, o = some x → Rows (k x) := by
  cases o <;> simp [Rows]
theorem rows_vInt (w : BitVec 32) (k : EW → Option Instr) :
    Rows (vInt w k) ↔ ((flag w 3 || flag w 4) = false → ∀ x, EW.ofCode (bits w 5 2) = some x → Rows (k x)) := by
  by_cases h : (flag w 3 || flag w 4) = true <;> simp [vInt, h, rows_none, rows_bind]
theorem rows_vFlt (w : BitVec 32) (k : EW → Option Instr) :
    Rows (vFlt w k) ↔ ∀ x, EW.ofCode (bits w 5 2) = some x → Rows (k x) := rows_bind _ _


/-- R62: every arm of the decoder gives an instruction of a row. -/
theorem rows_decodeRaw (w : BitVec 32) : Rows (decodeRaw w) := by
  unfold decodeRaw
  split
  · exact rows_none
  · split <;> simp only [
      rows_none, decOp01, decOp02, decOp03, decOp04, decOp05, decOp06, decOp07, decOp08, decOp09, decOp0A, decOp0B, decOp0C,
      decOp0D, decOp0E, decOp0F, decOp10, decOp11, decOp12, decOp13, decOp14, decOp15, decOp16, decOp17, decOp18, decOp19,
      decOp1A, decOp1B, decOp1C, decOp1D, decOp1E, decOp1F, decOp20, decOp21, decOp28, decOp29, decOp2A, decOp2B, decOp2C,
      decOp2D, decOp30, decOp31, decOp32, decOp33, decOp34, decOp35, decOp36, decOp38, decOp40, decOp41, decOp42, decOp43,
      decOp44, decOp50, decOp51, decOp52, decOp53, decOp54, decOp55, decOp56, decOp57, decOp58, decOp59, decOp5A, decOp5B,
      decOp5C, decOp5D, decOp5E, decOp5F, decOp60, decOp61, decOp62, decOp63, decOp64, decOp65, decOp66, decOp67, decOp68,
      decOp70, decOp71, decOp72, decOp73, decOp74, decOp75, decOp76, decOp77, decOp78, decOp79, decOp7A, decOp7B, decOp7C,
      decOp7D, decOp7E, decOp7F]
    all_goals
      repeat' split
      all_goals
        simp only [rows_none, rows_some, rows_need, rows_bind, rows_vInt, rows_vFlt] <;> intros <;> rfl

/-- R71: what a nonzero word decodes to is an instruction of a row. -/
theorem decodeWord_row {w : BitVec 32} {i : Instr} (h : decodeWord w = some i) : i = .nop ∨ isRow i = true := by
  unfold decodeWord at h
  split at h
  · exact .inl (Option.some.inj h).symm
  · obtain ⟨j, raw, hj⟩ := Option.bind_eq_some_iff.1 h
    split at hj
    · exact .inr (Option.some.inj hj ▸ rows_decodeRaw w j raw)
    · exact nomatch hj

/-- R38: an instruction of a row means in its slot what it means to the machine. -/
theorem exec_eq_execSlot {i : Instr} (row : isRow i = true) (s : State) : exec i s = execSlot i s := by
  cases i with
  | nop | illegalWord | print | fullBundleHeader | stackSlide | inverseSlide | launch | semsig | semwait | semwaitConditionMet
  | semtmo | qbarrier | timestamp | jmark | migrate | partcfg | recordPickup | spawnedContextStart | proofSeal | strikeReport
  | trapEntry | preemptFreeze | preemptSave | contextResume | calends | kernelCompletion | watchdogCheck | watchdogDrain
  | ageTick | ltsExpiry | refreshServiceSlot | matrixKstep | mretDrain | gangCompletion | factorStop | copyCompletion
  | globalAccessCompletion | collCompletion | weightStreamTile | streamPrefetch | vigilCompletion | vigilto | replaydiv
  | pmigPageMigration | noleveRemoteAccess | tlbShootdown | doorbell | queueConfigWrite | qctlRestart | qctlPreempt
  | replayLogReadPointer | jcfgWrite | fqptrWrite | dbgctlHalt | dbgctlStep | debuggerStateWrite | debuggerRelease
  | parcelBreakpoint | mgmtRegisterWrite | hostWindowAccess | channelRetirement | channelRetrain | rowActivation
  | refreshWindow | coldStart | deviceReset | standbyEntry | interfaceNegotiation | attestationQuote | debugResume
  | lqryServed | cappedStateChange => nomatch row
  | _ => rfl

end Sys2Proof.Machine
end

section
/-!
PROOFS. Every slot word has its form.
-/

namespace Sys2Proof.Machine

open Sys2Proof.Claims (mayStand lands)

theorem WordForm.st {i : Instr} {k : State → State} (slots : mayStand i = [1, 2]) (runs : ∀ s, exec i s = inST s k)
    (issues : ∀ s, ScalarIssues i s (k s)) : WordForm i := .scalar k (runsST slots runs) issues

/-- R38, R64, R71: every slot word has its form. -/
theorem wordForm (i : Instr) (word : i.isWord = true ∨ isRow i = true) : WordForm i := by
  cases i with
  | nop => exact .anywhere (.inl rfl)
  | illegalWord w => exact .anywhere (.inr ⟨w, rfl⟩)
  | add | sub | and | or | xor | sll | srl | sra | slt | sltu | min | max | minu | maxu | mul | mulh | mulhu | div | divu | rem
  | remu | clz | ctz | popc | brev | bext | bins | lea | fadd | fsub | fmul | fmin | fmax | feq | flt | fle | fcvtf | ffma =>
    refine .st (mayStand_of_major rfl (major_encA ..) rfl) (fun _ => rfl) fun _ => scalarIssues_landS ?_ (by decide)
    exact dest_encA ..
  | addi | andi | ori | xori | slti | slli | srli | srai =>
    refine .st (mayStand_of_major rfl (major_encB ..) rfl) (fun _ => rfl) fun _ => scalarIssues_landS ?_ (by decide)
    exact dest_encB ..
  | li | lih | lix =>
    refine .st (mayStand_of_major rfl (major_encC ..) rfl) (fun _ => rfl) fun _ => scalarIssues_landS ?_ (by decide)
    exact dest_encC ..
  | cmov d a b =>
    refine .st (mayStand_of_major rfl (major_encA ..) rfl) (fun _ => rfl) fun s => ?_
    split
    · exact scalarIssues_self
    · exact scalarIssues_landS (by exact dest_encA ..) (by decide)
  | fcvti =>
    refine .st (mayStand_of_major rfl (major_encA ..) rfl) (fun _ => rfl) fun _ =>
      (scalarIssues_landS ?_ (by decide)).raiseFlags (by decide) (.inl rfl) _
    exact dest_encA ..
  | ldb | ldbu | ldh | ldhu | ldw | ldwu | ldd | stb | sth | stw | std | vld | vst =>
    exact .m (mayStand_of_major rfl (major_encM ..) rfl) fun _ => rfl
  | vlds | vsts | vgath | vscat | naadd | nacas | naxch | spill | fill | vspill | vfill =>
    exact .m (mayStand_of_major rfl (major_encA ..) rfl) fun _ => rfl
  | vadd | vsub | vmul | vmulh | vmin | vmax | vand | vor | vxor | vandn | vshl | vshr | vsra | vrotl =>
    refine .vw (mayStand_of_major rfl (major_encV ..) rfl) (fun _ => rfl) fun _ none =>
      vectorIssues_vmap2 none ?_ (by decide)
    exact dest_encV ..
  | vabs | vmov | vpopc | vclz =>
    refine .vw (mayStand_of_major rfl (major_encV ..) rfl) (fun _ => rfl) fun _ none =>
      vectorIssues_vmap1 none ?_ (by decide)
    exact dest_encV ..
  | vaddx | vsubx | vmulx | vshlx | vshrx | vsrax | vminx | vmaxx =>
    refine .vw (mayStand_of_major rfl (major_encV ..) rfl) (fun _ => rfl) fun _ none =>
      vectorIssues_vmapX none ?_ (by decide)
    exact dest_encV ..
  | vceq | vcne | vclt | vcle | vcltu | vcleu =>
    refine .vw (mayStand_of_major rfl (major_encV ..) rfl) (fun _ => rfl) fun _ none => vectorIssues_vcmp none ?_ (by decide)
    exact dest_encV ..
  | vfeq | vfne | vflt | vfle | vfun =>
    refine .vw (mayStand_of_major rfl (major_encV ..) rfl) (fun _ => rfl) fun _ none => vectorIssues_vfcmp none ?_
    exact dest_encV ..
  | vbcast | viota | vins =>
    refine .vw (mayStand_of_major rfl (major_encV ..) rfl) (fun _ => rfl) fun _ none =>
      vectorIssues_checkDst none (vectorIssues_landV none (by decide) ?_)
    exact dest_encV ..
  | vrot | vrev =>
    refine .vw (mayStand_of_major rfl (major_encV ..) rfl) (fun _ => rfl) fun _ none =>
      vectorIssues_checkDst none (vectorIssues_readV none (vectorIssues_landV none (by decide) ?_))
    exact dest_encV ..
  | vsel | vperm =>
    refine .vw (mayStand_of_major rfl (major_encV ..) rfl) (fun _ => rfl) fun _ none =>
      vectorIssues_checkDst none (vectorIssues_readV none (vectorIssues_readV none
        (vectorIssues_landV none (by decide) ?_)))
    exact dest_encV ..
  | vadds =>
    refine .vw (mayStand_of_major rfl (major_encV ..) rfl) (fun _ => rfl) fun _ none =>
      vectorIssues_checkDst none (vectorIssues_readV none (vectorIssues_readV none
        ((vectorIssues_self.raiseFlags (by decide)).landV none (by decide) ?_)))
    exact dest_encV ..
  | vextr =>
    refine .vw (mayStand_of_major rfl (major_encV ..) rfl) (fun _ => rfl) fun _ none =>
      vectorIssues_readV none (vectorIssues_self.landS (by decide) ?_)
    exact dest_encV ..
  | vrsum | vrmax | vrmin =>
    refine .vw (mayStand_of_major rfl (major_encV ..) rfl) (fun _ => rfl) fun _ none => vectorIssues_vreduce none ?_
    exact dest_encV ..
  | vfadd | vfsub | vfmul =>
    refine .vw (mayStand_of_major rfl (major_encV ..) rfl) (fun _ => rfl) fun _ none => vectorIssues_vfloat2 none ?_
    exact dest_encV ..
  | vfmin | vfmax | vfcps =>
    refine .vw (mayStand_of_major rfl (major_encV ..) rfl) (fun _ => rfl) fun _ none => vectorIssues_vcode2 none ?_
    exact dest_encV ..
  | vfabs | vfneg =>
    refine .vw (mayStand_of_major rfl (major_encV ..) rfl) (fun _ => rfl) fun _ none => vectorIssues_vcode1 none ?_
    exact dest_encV ..
  | vfma | vfms =>
    refine .vw (mayStand_of_major rfl (major_encV ..) rfl) (fun _ => rfl) fun _ none => vectorIssues_vfused none ?_
    exact dest_encV ..
  | vfrmax | vfrmin =>
    refine .vw (mayStand_of_major rfl (major_encV ..) rfl) (fun _ => rfl) fun _ none => vectorIssues_vfbest none ?_
    exact dest_encV ..
  | vfrsum =>
    refine .vw (mayStand_of_major rfl (major_encV ..) rfl) (fun _ => rfl) fun _ none =>
      vectorIssues_checkDst none (vectorIssues_readV none
        ((vectorIssues_self.raiseFlags (by decide)).landV none (by decide) ?_))
    exact dest_encV ..
  | vdot d a b pf w zi zo =>
    refine .vector _ _ _ (runsVW (mayStand_of_major rfl (major_encV ..) rfl) fun _ => rfl) (by decide) fun _ none =>
      vectorSettles_vdot none ?_ ⟨d, a, b, pf, w, zi, zo, .inl rfl, rfl⟩
    exact dest_encV ..
  | vdota d a b pf w zi zo =>
    refine .vector _ _ _ (runsVW (mayStand_of_major rfl (major_encV ..) rfl) fun _ => rfl) (by decide) fun _ none =>
      vectorSettles_vdot none ?_ ⟨d, a, b, pf, w, zi, zo, .inr rfl, rfl⟩
    exact dest_encV ..
  | pand | por | pxor | pandn | pnot =>
    refine .vw (mayStand_of_major rfl (major_encA ..) rfl) (fun _ => rfl) fun _ _ =>
      vectorIssues_self.landP (by decide) ?_
    exact dest_encA ..
  | planes =>
    refine .vw (mayStand_of_major rfl (major_encV ..) rfl) (fun _ => rfl) fun _ _ =>
      vectorIssues_self.landP (by decide) ?_
    exact dest_encV ..
  | pcnt | pfirst =>
    refine .vw (mayStand_of_major rfl (major_encV ..) rfl) (fun _ => rfl) fun _ _ =>
      vectorIssues_self.landS (by decide) ?_
    exact dest_encV ..
  | vrcp | vrsq | vsqrt | vexp2 | vlog2 | vtanh | vsinpi | verf =>
    refine .w (mayStand_of_major rfl (major_encV ..) rfl) (fun _ => rfl) fun _ none => vectorIssues_vspecial none ?_
    exact dest_encV ..
  | vbnet vd va vb k =>
    refine .vector _ _ _ (runsW (mayStand_of_major rfl (major_encA ..) rfl) fun _ => rfl) (by decide) fun s none => ?_
    rw [State.checkDst_noStreams none, State.readV_noStreams none, State.readV_noStreams none]
    exact vectorSettles_vbnet none
  | xcvt | xpack =>
    refine .x (mayStand_of_major rfl (major_encB ..) rfl) (fun _ => rfl) fun _ none =>
      vectorIssues_checkDst none (vectorIssues_readV none
        ((vectorIssues_drawn.raiseFlags (by decide)).landV none (by decide) ?_))
    exact dest_encB ..
  | xexp | xtrn =>
    refine .x (mayStand_of_major rfl (major_encB ..) rfl) (fun _ => rfl) fun _ none =>
      vectorIssues_checkDst none (vectorIssues_readV none (vectorIssues_landV none (by decide) ?_))
    exact dest_encB ..
  | xscl =>
    refine .x (mayStand_of_major rfl (major_encA ..) rfl) (fun _ => rfl) fun _ none =>
      vectorIssues_checkDst none (vectorIssues_readV none (vectorIssues_landV none (by decide) ?_))
    exact dest_encA ..
  | xqnt =>
    refine .x (mayStand_of_major rfl (major_encA ..) rfl) (fun _ => rfl) fun _ none =>
      vectorIssues_checkDst none (vectorIssues_readV none
        (((vectorIssues_drawn.raiseFlags (by decide)).landScale (by decide)).landV none (by decide) ?_))
    exact dest_encA ..
  | beq | bne | blt | bge | bltu | bgeu | loop | setfmt | proof | vigil | waita | fence | spawn | susp | done | trig | trap | eret
  | crd | cwr | bkpt | engrave | bnset => exact .c (mayStand_of_major rfl (major_encB ..) rfl) fun _ => rfl
  | jmp => exact .c (mayStand_of_major rfl (major_encC ..) rfl) fun _ => rfl
  | jmpr => exact .c (mayStand_of_major rfl (major_encA ..) rfl) fun _ => rfl
  | ewr | ewrErhtTail | erd | mma | mzero | mret | mgang | flu | fchol | fqr | ftrsm | cpy | coll | gld | gst | gaadd | gacas
  | gaxch | gamax | gamin | wstrm | strb | stru | lref | lqry | phint | pmig =>
    exact .e (mayStand_of_major rfl (major_encE ..) rfl) fun _ => rfl
  | _ => exact word.elim (fun h => nomatch h) fun h => nomatch h

end Sys2Proof.Machine
end

section
/-!
PROOFS. What an instruction does in the slots that may hold it and in the others, and the settled statements of slots:
ScalarFrame, VectorFrame and SlotRunsDecodedWord.
-/

namespace Sys2Proof.Machine

open Sys2Proof.Claims (mayStand lands onlyMine sameOutside inSlotST)

section
variable {i : Instr} {l : List Nat} {ok : Nat → Bool} {k : State → State} {s t : State}

theorem Runs.right (r : Runs i l ok k) (h : s.slot ∈ mayStand i) : exec i s = .next (k s) := by
  rw [r.runs, inSlot_ok ((r.fits _).2 (r.slots ▸ h))]
theorem Runs.wrong (r : Runs i l ok k) (h : s.slot ∉ mayStand i) : exec i s = .next s.illegal := by
  rw [r.runs, inSlot_wrong (Bool.eq_false_iff.2 fun hok => h (r.slots ▸ (r.fits _).1 hok))]

theorem OnlyArch.sameOutside (h : OnlyArch s t) : sameOutside s t :=
  ⟨h.mem, h.poison, h.flawed, h.deferred, h.turn, h.busy, h.late, h.other, h.cores, h.clusters, h.units, h.cmds, h.nextCmd,
    h.ce, h.edge, h.inbox, h.cycle, h.cur⟩

theorem Issues.me {names : RegFile → Nat → Prop} {n : Word} (h : Issues names n s t) : ∃ p : List Pending,
    t.me = { s.me with arch := { s.me.arch with pend := s.me.arch.pend ++ p, rngctr := s.me.arch.rngctr + n } }
      ∧ ∀ x ∈ p, s.me.arch.tick < x.tick ∧ names x.file x.num := by
  obtain ⟨p, arch, each⟩ := h.arch
  exact ⟨p, by rw [h.only.own, arch], each⟩

end

/-- R71: an ILLEGAL word, as NOP, may stand in every slot. -/
theorem mayStand_anywhere {i : Instr} (h : i = .nop ∨ ∃ w, i = .illegalWord w) : mayStand i = [0, 1, 2, 3, 4, 5, 6, 7] := by
  rcases h with rfl | ⟨w, rfl⟩ <;> rfl

theorem slotRunsItsWord : Claims.SlotRunsItsWord := by
  unfold Claims.SlotRunsItsWord
  refine fun s k w => ⟨fun i t decodes runs => ?_, fun none => ?_⟩
  · have slot : execSlot i { s with slot := k } = .next t := by
      rcases decodeWord_row decodes with rfl | row
      · exact runs
      · rw [← exec_eq_execSlot row, runs]
    simp [State.runSlot, decodeSlot, decodes, slot]
  · simp only [State.runSlot, decodeSlot, none, Option.getD_none]
    rfl

theorem wrongSlotIsIllegal : Claims.WrongSlotIsIllegal := by
  unfold Claims.WrongSlotIsIllegal
  intro i s word inside wrong
  cases wordForm i (.inl word) with
  | anywhere is =>
    rw [mayStand_anywhere is] at wrong
    simp only [List.mem_cons, List.not_mem_nil, or_false] at wrong
    omega
  | scalar k runs => exact runs.wrong wrong
  | vector l ok k runs => exact runs.wrong wrong
  | other l ok k runs => exact runs.wrong wrong

/-- Settles O60 (R38, R64, R71): what decodes is of a row of the tables, and each row has its slots. -/
theorem slotRunsDecodedWord : Obligations.SlotRunsDecodedWord := by
  unfold Obligations.SlotRunsDecodedWord
  exact ⟨slotRunsItsWord, wrongSlotIsIllegal⟩

/-- Settles O15 (R40 to R42, R288), by the form of the word: each scalar result is a pending write. -/
theorem scalarFrame : Obligations.ScalarFrame := by
  unfold Obligations.ScalarFrame
  intro i s t word _ slots slot exec
  have mine : s.slot ∈ mayStand i := by
    rw [slots]; rcases slot with h | h <;> simp [h]
  cases wordForm i (.inl word) with
  | anywhere is => exact nomatch (mayStand_anywhere is).symm.trans slots
  | scalar k runs issues =>
    obtain rfl : k s = t := Host.Outcome.next.inj ((runs.right mine).symm.trans exec)
    obtain ⟨p, me, each⟩ := (issues s).me
    exact ⟨⟨(issues s).only.sameOutside, (issues s).only.slot, (issues s).only.choice⟩, (issues s).iss, p,
      by simpa using me, each⟩
  | vector l ok k runs others =>
    have one : 1 ∈ l := by rw [← runs.slots, slots]; decide
    exact absurd (others 1 one) (by decide)
  | other l ok k runs others =>
    have one : 1 ∈ l := by rw [← runs.slots, slots]; decide
    exact absurd (others 1 one) (by decide)

/-- Settles O16 (R40 to R42, R51, R88), by the form of the word: each vector result is a pending write. -/
theorem vectorFrame : Obligations.VectorFrame := by
  unfold Obligations.VectorFrame
  intro i s t word slots notNop notIllegal slot none verdict _ exec
  obtain ⟨n, hn, vwx⟩ := slots
  cases wordForm i (.inl word) with
  | anywhere is => exact (is.elim notNop fun ⟨w, h⟩ => notIllegal w h).elim
  | scalar k runs issues =>
    rw [runs.slots] at hn
    simp only [List.mem_cons, List.not_mem_nil, or_false] at hn
    omega
  | vector l ok k runs _ settles =>
    obtain rfl : k s = t := Host.Outcome.next.inj ((runs.right slot).symm.trans exec)
    rcases settles s none with ⟨c, raised⟩ | ⟨ch, ⟨n, small, issues⟩, free⟩
    · exact nomatch raised.symm.trans verdict
    · obtain ⟨p, me, each⟩ := issues.me
      exact ⟨issues.only.sameOutside, issues.only.slot, issues.iss, fun h => issues.only.choice.trans (free h), p, n, small,
        me, each⟩
  | other l ok k runs others =>
    have := others n (runs.slots ▸ hn)
    omega

end Sys2Proof.Machine
end

section
/-!
PROOFS. A step that faults with no context that `fetches` names (R256, R260): a debugger's write of DBGCTL with bit 1 set has
a frozen context go on for one bundle, as the entry DBGCTL_STEP of the inbox does, and its fetch may lie outside the LTS.
-/

namespace Sys2Proof.Machine

open Sys2Proof.Claims (fetches)

/-- R219: a kernel whose descriptor is zero, so that its code is at address 0, outside the LTS. -/
def kernelAtZero : Kernel where
  queue := 0
  seq := 1
  part := 0
  args := []
  desc := 0
  phase := 0
  committed := []
  triggered := []
  ended := none
  order := 0
  prio := 0
  snap := []
  snapPoison := []
  moves := []
  logs := []
  ordinals := []
  recCount := 0
  recStop := false
  used := []
  waitSince := none
  regions := []

/-- A context of that kernel that a debugger holds frozen inside a block. -/
def frozenCtx : Ctx :=
  { Ctx.reset with
    state := .frozen
    freeze := some .debug
    kernel := some 0
    gen := 1
    arch := { Arch.reset with crc := some (0, 0) } }

/-- The device with that context alone, and an entry at the head of the inbox. -/
def heldBefore (i : Instr) : State :=
  { State.reset with
    ctxs := [(0, frozenCtx)]
    ce := { State.reset.ce with kernels := [(0, kernelAtZero)] }
    inbox := [(0, i)] }

/-- R256: the write of 2 to DBGCTL of context 0, whose bit 1 is STEP. -/
theorem registerStep_faults : step (heldBefore (.mgmtRegisterWrite 0x3000 2 false)) = .fault .fetchOutsideLts := by
  have stops : (match step (heldBefore (.mgmtRegisterWrite 0x3000 2 false)) with
    | .fault f => f == .fetchOutsideLts
    | _ => false) = true := by decide +kernel
  split at stops
  case h_1 f is => rw [is, eq_of_beq stops]
  case h_2 => exact nomatch stops

/-- Neither a turn nor an entry DBGCTL_STEP is what the step of a register write begins with. -/
theorem registerStep_fetches (g : Nat) : ¬fetches (heldBefore (.mgmtRegisterWrite 0x3000 2 false)) g := by
  rintro (⟨mid | ⟨-, free⟩, -⟩ | ⟨-, -, entry, -⟩)
  · exact absurd mid (by decide)
  · exact nomatch free
  · exact nomatch entry

/-- Refutes O22: the register write makes a frozen context go on for one bundle, so the step faults, and no context `fetches`. -/
theorem not_noStepIsRefused : ¬Obligations.NoStepIsRefused := by
  unfold Obligations.NoStepIsRefused
  intro h
  obtain ⟨-, faults⟩ := h (heldBefore (.mgmtRegisterWrite 0x3000 2 false))
  obtain ⟨-, g, k, names, -⟩ := faults _ registerStep_faults
  exact registerStep_fetches g names

end Sys2Proof.Machine
end

section
/-!
PROOFS. Landing (R40, R41, R50, R51): the bits of masks, the order in which pending writes land, and which of them decides a
register.
-/

namespace Sys2Proof.Machine

/-! Masks. -/

/-- A merged bit is the new one under the mask and the old one elsewhere. -/
theorem getLsbD_merge {n : Nat} (old new mask : BitVec n) (j : Nat) :
    (merge old new mask).getLsbD j = if mask.getLsbD j then new.getLsbD j else old.getLsbD j := by
  by_cases h : j < n
  · rw [merge, BitVec.getLsbD_or, BitVec.getLsbD_and, BitVec.getLsbD_and, BitVec.getLsbD_not]
    cases mask.getLsbD j <;> simp [h]
  · simp [BitVec.getLsbD_of_ge _ _ (Nat.le_of_not_lt h)]

theorem getLsbD_byteOnes (k j : Nat) (h : j < 2048) : ((0xFF : VWord) <<< (8 * k)).getLsbD j = decide (j / 8 = k) := by
  have ones (i : Nat) : (0xFF : VWord).getLsbD i = decide (i < 8) := by
    have byte : Nat.testBit 255 i = decide (i < 8) := Nat.testBit_two_pow_sub_one 8 i
    rw [BitVec.ofNat_eq_ofNat, BitVec.getLsbD_ofNat, byte, ← Bool.decide_and]
    exact decide_eq_decide.2 (by omega)
  rw [BitVec.getLsbD_shiftLeft, ones, ← decide_not, ← Bool.decide_and, ← Bool.decide_and]
  exact decide_eq_decide.2 (by omega)

/-- A bit of a byte mask is the mask's bit of its byte. -/
theorem getLsbD_byteMask (m : PWord) {j : Nat} (h : j < 2048) : (byteMask m).getLsbD j = m.getLsbD (j / 8) := by
  have spread (l : List Nat) (a : VWord) :
      (l.foldl (fun a k => if m.getLsbD k then a ||| ((0xFF : VWord) <<< (8 * k)) else a) a).getLsbD j
        = (a.getLsbD j || l.any fun k => m.getLsbD k && decide (j / 8 = k)) := by
    induction l generalizing a with
    | nil => rw [List.foldl_nil, List.any_nil, Bool.or_false]
    | cons k t ih =>
      rw [List.foldl_cons, ih, List.any_cons]
      cases hk : m.getLsbD k
      · simp
      · simp only [if_true, BitVec.getLsbD_or, getLsbD_byteOnes k j h, Bool.true_and, Bool.or_assoc]
  have zero : (0 : VWord).getLsbD j = false := by simp
  rw [byteMask, spread, zero, Bool.false_or]
  have mine : j / 8 ∈ List.range 256 := List.mem_range.2 (by omega)
  cases hj : m.getLsbD (j / 8)
  · rw [List.any_eq_false]
    rintro k - both
    obtain ⟨hk, is⟩ := Bool.and_eq_true_iff.1 both
    rw [of_decide_eq_true is, hk] at hj
    exact nomatch hj
  · rw [List.any_eq_true]
    exact ⟨j / 8, mine, by simp [hj]⟩

/-- A bit of packed fields is a bit of its field. -/
theorem testBit_packNat {b : Nat} (hb : 0 < b) (l : List Nat) (j : Nat) :
    (packNat b l).testBit j = (l.getD (j / b) 0).testBit (j % b) := by
  induction l generalizing j with
  | nil => simp [packNat]
  | cons x t ih =>
    have cons : packNat b (x :: t) = 2 ^ b * packNat b t + x % 2 ^ b := by rw [Nat.mul_comm]; rfl
    rw [cons, Nat.testBit_two_pow_mul_add _ (Nat.mod_lt _ (Nat.two_pow_pos b))]
    by_cases h : j < b
    · simp [h, Nat.div_eq_of_lt h, Nat.mod_eq_of_lt h, Nat.testBit_mod_two_pow]
    · have div : j / b = (j - b) / b + 1 := Nat.div_eq_sub_div hb (Nat.le_of_not_lt h)
      rw [if_neg h, ih, div, List.getD_cons_succ, ← Nat.mod_eq_sub_mod (Nat.le_of_not_lt h)]

theorem activeLanes : Claims.ActiveLanes := by
  unfold Claims.ActiveLanes
  intro w p j hj
  have bytes : 0 < w.bytes := by cases w <;> decide
  have count : j / w.bytes < w.count := by cases w <;> simp only [EW.bytes, EW.count] <;> omega
  rw [activeMask, laneMask, BitVec.getLsbD_ofNat, decide_eq_true hj, Bool.true_and, testBit_packNat bytes,
    List.getD_eq_getElem _ _ (by simpa using count), List.getElem_map, List.getElem_range, activeLane, Nat.mul_comm]
  cases p.getLsbD (j / w.bytes * w.bytes) with
  | false => simp
  | true => simpa using Nat.mod_lt j bytes

end Sys2Proof.Machine
end

section
/-!
PROOFS. The order of landing (R41), the write that decides a register, and LandingRules.
-/

namespace Sys2Proof.Machine

/-! The order in which pending writes land. -/

/-- R41, R302: where a write stands in the order: by its landing tick, flags set after every other write of the tick. -/
def Pending.rank (p : Pending) : Nat := 2 * p.tick + (if p.file = .flagSet then 1 else 0)

theorem Pending.before_iff (p q : Pending) : p.before q = true ↔ p.rank < q.rank := by
  unfold Pending.before Pending.rank
  simp only [Bool.or_eq_true, Bool.and_eq_true, decide_eq_true_eq, beq_iff_eq, bne_iff_ne]
  split <;> split <;> simp only [*, ne_eq, not_true_eq_false, not_false_eq_true, and_true, and_false, or_false] <;> omega

/-- R41: the order of issue: of two writes of one bundle, that of the higher slot is the later. -/
def Pending.issuedBy (x y : Pending) : Prop := x.issued < y.issued ∨ (x.issued = y.issued ∧ x.slot ≤ y.slot)
/-- R41: the order of landing: by rank, and of one rank by issue. -/
def Pending.landsBy (x y : Pending) : Prop := x.rank < y.rank ∨ (x.rank = y.rank ∧ x.issuedBy y)

theorem mem_insertPending {x p : Pending} {l : List Pending} : x ∈ insertPending p l ↔ x = p ∨ x ∈ l := by
  induction l with
  | nil => simp [insertPending]
  | cons q t ih =>
    unfold insertPending
    split
    · exact List.mem_cons
    · rw [List.mem_cons, ih, List.mem_cons, or_left_comm]

/-- A later issued write goes behind the writes that land no later. -/
theorem pairwise_insertPending {p : Pending} {l : List Pending} (sorted : l.Pairwise Pending.landsBy)
    (last : ∀ x ∈ l, x.issuedBy p) : (insertPending p l).Pairwise Pending.landsBy := by
  induction l with
  | nil => exact List.pairwise_singleton ..
  | cons q t ih =>
    obtain ⟨head, tail⟩ := List.pairwise_cons.1 sorted
    unfold insertPending
    split
    case isTrue h =>
      have rank := (p.before_iff q).1 h
      refine List.pairwise_cons.2 ⟨fun y hy => .inl ?_, sorted⟩
      rcases List.mem_cons.1 hy with rfl | hy
      · exact rank
      · rcases head y hy with less | ⟨same, -⟩ <;> omega
    case isFalse h =>
      have rank : q.rank ≤ p.rank := Nat.le_of_not_lt fun less => h ((p.before_iff q).2 less)
      refine List.pairwise_cons.2 ⟨fun y hy => ?_, ih tail fun x hx => last x (List.mem_cons_of_mem _ hx)⟩
      rcases mem_insertPending.1 hy with rfl | hy
      · exact (Nat.lt_or_eq_of_le rank).imp_right fun same => ⟨same, last q List.mem_cons_self⟩
      · exact head y hy

theorem mem_landingOrder {x : Pending} {l : List Pending} : x ∈ landingOrder l ↔ x ∈ l := by
  have fold (l m : List Pending) : x ∈ l.foldl (fun l p => insertPending p l) m ↔ x ∈ m ∨ x ∈ l := by
    induction l generalizing m with
    | nil => simp
    | cons p t ih => rw [List.foldl_cons, ih, mem_insertPending, List.mem_cons, or_comm (a := x = p), or_assoc]
  rw [landingOrder, fold]
  simp

/-- R41: writes that stand in the order of their issue land in the landing order. -/
theorem pairwise_landingOrder {l : List Pending} (issued : l.Pairwise Pending.issuedBy) :
    (landingOrder l).Pairwise Pending.landsBy := by
  have fold (l m : List Pending) (issued : l.Pairwise Pending.issuedBy) (sorted : m.Pairwise Pending.landsBy)
      (early : ∀ x ∈ m, ∀ y ∈ l, x.issuedBy y) : (l.foldl (fun l p => insertPending p l) m).Pairwise Pending.landsBy := by
    induction l generalizing m with
    | nil => exact sorted
    | cons p t ih =>
      obtain ⟨head, tail⟩ := List.pairwise_cons.1 issued
      refine ih _ tail (pairwise_insertPending sorted fun x hx => early x hx p List.mem_cons_self) fun x hx y hy => ?_
      rcases mem_insertPending.1 hx with rfl | hx
      · exact head y hy
      · exact early x hx y (List.mem_cons_of_mem _ hy)
  exact fold l [] issued .nil fun _ hx => nomatch hx

/-! The write that decides. -/

/-- What is read of a context that the write p sets to v, that the writes that do not hit it leave, and that SPVIO, FMT and the
list of pending writes do not touch. -/
structure Decided {β : Type} (obs : Ctx → β) (hits : Pending → Prop) (p : Pending) (v : β) : Prop where
  sets : ∀ c : Ctx, obs (c.landOne p) = v
  keeps : ∀ (c : Ctx) (x : Pending), ¬hits x → obs (c.landOne x) = obs c
  spvio : ∀ (c : Ctx) (a : BitVec 32), obs { c with arch := { c.arch with spvio := a } } = obs c
  fmt : ∀ (c : Ctx) (f : BitVec 32) (l : List (Nat × BitVec 32)), obs { c with arch := { c.arch with fmt := f, shadow := l } } = obs c

section
variable {β : Type} {obs : Ctx → β} {hits : Pending → Prop} {p : Pending} {v : β}

/-- The write behind which no other one hits decides. -/
theorem Decided.landAll (d : Decided obs hits p v) {l : List Pending} (last : l.Pairwise fun x y => x = p → hits y → y = p)
    {c : Ctx} (h : p ∈ l ∨ (obs c = v ∧ ∀ x ∈ l, hits x → x = p)) : obs (c.landAll l) = v := by
  induction l generalizing c with
  | nil => exact h.elim (fun hp => nomatch hp) And.left
  | cons x t ih =>
    obtain ⟨head, tail⟩ := List.pairwise_cons.1 last
    have spvio : ∀ c' : Ctx, obs (if x.clearsSpv then { c' with arch := { c'.arch with spvio := firstSpv (t ++ c'.arch.pend) } }
        else c') = obs c' := fun c' => by
      split
      · exact d.spvio ..
      · rfl
    refine ih tail ?_
    rw [spvio]
    by_cases is : x = p
    · exact .inr ⟨is ▸ d.sets c, fun y hy => head y hy is⟩
    · rcases h with mem | ⟨now, rest⟩
      · exact .inl ((List.mem_cons.1 mem).resolve_left (Ne.symm is))
      · have misses : ¬hits x := fun hx => is (rest x List.mem_cons_self hx)
        exact .inr ⟨(d.keeps c x misses).trans now, fun y hy => rest y (List.mem_cons_of_mem _ hy)⟩

/-- R41: of the due writes that hit, the one that lands last decides. -/
theorem Decided.land (d : Decided obs hits p v) {c : Ctx} (file : ∀ x, hits x → x.file = p.file)
    (issued : c.arch.pend.Pairwise Pending.issuedBy) (mem : p ∈ c.arch.pend) (due : p.tick ≤ c.arch.tick)
    (decides : ∀ x ∈ c.arch.pend, x ≠ p → hits x → x.tick ≤ c.arch.tick →
      x.tick < p.tick ∨ (x.tick = p.tick ∧ (x.issued < p.issued ∨ (x.issued = p.issued ∧ x.slot < p.slot)))) :
    obs c.land = v := by
  have order := pairwise_landingOrder (issued.filter fun p => decide (p.tick ≤ c.arch.tick))
  have last : (landingOrder (c.arch.pend.filter fun p => decide (p.tick ≤ c.arch.tick))).Pairwise
      fun x y => x = p → hits y → y = p := by
    refine order.imp_of_mem fun {x y} _ hy lands is hit => ?_
    subst is
    by_contra other
    obtain ⟨my, ty⟩ := List.mem_filter.1 (mem_landingOrder.1 hy)
    have late := decides y my other hit (of_decide_eq_true ty)
    unfold Pending.landsBy Pending.issuedBy Pending.rank at lands
    rw [file y hit] at lands
    omega
  refine (d.fmt _ _ _).trans (d.landAll last (.inl (mem_landingOrder.2 (List.mem_filter.2 ⟨mem, decide_eq_true due⟩))))

end

end Sys2Proof.Machine
end

section
/-!
PROOFS. What a landing write leaves, and LandingRules settled (R40, R41, R50, R51).
-/

namespace Sys2Proof.Machine

/-! Control registers at their landing (R53). -/

section
variable (c : Ctx) (r : Nat) (v : Word)

@[simp] theorem Ctx.writeControl_sreg : (c.writeControl r v).arch.sreg = c.arch.sreg := by unfold Ctx.writeControl; split <;> rfl
@[simp] theorem Ctx.writeControl_vreg : (c.writeControl r v).arch.vreg = c.arch.vreg := by unfold Ctx.writeControl; split <;> rfl
@[simp] theorem Ctx.writeControl_preg : (c.writeControl r v).arch.preg = c.arch.preg := by unfold Ctx.writeControl; split <;> rfl

theorem Ctx.writeControl_tvec (h : r ≠ 0x006) : (c.writeControl r v).arch.tvec = c.arch.tvec := by
  unfold Ctx.writeControl
  split
  case h_2 => exact absurd rfl h
  all_goals rfl

end

/-! A landing write of one file leaves the registers of the others. -/

section
variable {c : Ctx} {p : Pending}

theorem Ctx.landOne_sreg (h : p.file ≠ .scalar) : (c.landOne p).arch.sreg = c.arch.sreg := by
  cases hf : p.file <;> simp_all [Ctx.landOne]
theorem Ctx.landOne_vreg (h : p.file ≠ .vector) : (c.landOne p).arch.vreg = c.arch.vreg := by
  cases hf : p.file <;> simp_all [Ctx.landOne]
theorem Ctx.landOne_preg (h : p.file ≠ .predicate) : (c.landOne p).arch.preg = c.arch.preg := by
  cases hf : p.file <;> simp_all [Ctx.landOne]

end

/-! What each write decides. -/

theorem Arch.s_congr {a b : Arch} (h : a.sreg = b.sreg) (r : Nat) : a.s r = b.s r := by simp only [Arch.s, h]
theorem Arch.v_congr {a b : Arch} (h : a.vreg = b.vreg) (r : Nat) : a.v r = b.v r := by simp only [Arch.v, h]
theorem Arch.p_congr {a b : Arch} (h : a.preg = b.preg) (r : Nat) : a.p r = b.p r := by simp only [Arch.p, h]

section
variable {c : Ctx} {p x : Pending} {r j : Nat}

/-- R41: a bit of a scalar after a landing write of scalars. -/
theorem Ctx.landOne_s (file : x.file = .scalar) (hr : r ≠ 0) (hj : j < 64) : ((c.landOne x).arch.s r).getLsbD j
    = if r = x.num ∧ x.mask.getLsbD j = true then x.val.getLsbD j else (c.arch.s r).getLsbD j := by
  rw [Ctx.landOne_scalar c x file, Arch.s_setS]
  by_cases h : r = x.num
  · subst h
    rw [if_pos ⟨rfl, hr⟩, getLsbD_merge]
    simp [hj]
  · simp [h]
/-- R41: a bit of a predicate after a landing write of predicates. -/
theorem Ctx.landOne_p (file : x.file = .predicate) (hr : r ≠ 0) (hj : j < 256) : ((c.landOne x).arch.p r).getLsbD j
    = if r = x.num ∧ x.mask.getLsbD j = true then x.val.getLsbD j else (c.arch.p r).getLsbD j := by
  rw [Ctx.landOne_predicate c x file, Arch.p_setP]
  by_cases h : r = x.num
  · subst h
    rw [if_pos ⟨rfl, hr⟩, getLsbD_merge]
    simp [hj]
  · simp [h]
/-- R51: a bit of a vector after a landing write of vectors. -/
theorem Ctx.landOne_v (file : x.file = .vector) (hj : j < 2048) : ((c.landOne x).arch.v r).getLsbD j
    = if r = x.num ∧ x.mask.getLsbD (j / 8) = true then x.val.getLsbD j else (c.arch.v r).getLsbD j := by
  rw [Ctx.landOne_vector c x file, Arch.v_setV]
  by_cases h : r = x.num
  · subst h
    rw [if_pos rfl, getLsbD_merge, getLsbD_byteMask _ hj]
    simp
  · simp [h]

theorem decided_scalar (file : p.file = .scalar) (num : p.num ≠ 0) (hj : j < 64) (mask : p.mask.getLsbD j = true) :
    Decided (fun c => (c.arch.s p.num).getLsbD j) (fun x => x.file = .scalar ∧ x.num = p.num ∧ x.mask.getLsbD j = true) p
      (p.val.getLsbD j) where
  sets c := by rw [Ctx.landOne_s file num hj, if_pos ⟨rfl, mask⟩]
  keeps c x misses := by
    by_cases hx : x.file = .scalar
    · rw [Ctx.landOne_s hx num hj, if_neg fun ⟨is, bit⟩ => misses ⟨hx, is.symm, bit⟩]
    · rw [Arch.s_congr (Ctx.landOne_sreg hx)]
  spvio _ _ := rfl
  fmt _ _ _ := rfl

theorem decided_predicate (file : p.file = .predicate) (num : p.num ≠ 0) (hj : j < 256) (mask : p.mask.getLsbD j = true) :
    Decided (fun c => (c.arch.p p.num).getLsbD j) (fun x => x.file = .predicate ∧ x.num = p.num ∧ x.mask.getLsbD j = true) p
      (p.val.getLsbD j) where
  sets c := by rw [Ctx.landOne_p file num hj, if_pos ⟨rfl, mask⟩]
  keeps c x misses := by
    by_cases hx : x.file = .predicate
    · rw [Ctx.landOne_p hx num hj, if_neg fun ⟨is, bit⟩ => misses ⟨hx, is.symm, bit⟩]
    · rw [Arch.p_congr (Ctx.landOne_preg hx)]
  spvio _ _ := rfl
  fmt _ _ _ := rfl

theorem decided_vector (file : p.file = .vector) (hj : j < 2048) (mask : p.mask.getLsbD (j / 8) = true) :
    Decided (fun c => (c.arch.v p.num).getLsbD j) (fun x => x.file = .vector ∧ x.num = p.num ∧ x.mask.getLsbD (j / 8) = true) p
      (p.val.getLsbD j) where
  sets c := by rw [Ctx.landOne_v file hj, if_pos ⟨rfl, mask⟩]
  keeps c x misses := by
    by_cases hx : x.file = .vector
    · rw [Ctx.landOne_v hx hj, if_neg fun ⟨is, bit⟩ => misses ⟨hx, is.symm, bit⟩]
    · rw [Arch.v_congr (Ctx.landOne_vreg hx)]
  spvio _ _ := rfl
  fmt _ _ _ := rfl

theorem decided_tvec (file : p.file = .control) (num : p.num = 0x006) :
    Decided (fun c => c.arch.tvec) (fun x => x.file = .control ∧ x.num = p.num) p (p.val.truncate 32) where
  sets c := by
    rw [Ctx.landOne_control c p file, num]
    show (p.val.truncate 64).truncate 32 = _
    exact BitVec.setWidth_setWidth_of_le _ (by decide)
  keeps c x misses := by
    by_cases hx : x.file = .control
    · rw [Ctx.landOne_control c x hx]
      exact Ctx.writeControl_tvec _ _ _ fun h => misses ⟨hx, h.trans num.symm⟩
    · cases hf : x.file <;> simp_all [Ctx.landOne]
  spvio _ _ := rfl
  fmt _ _ _ := rfl

end

/-! The statements. -/

theorem landingOrderDecides : Claims.LandingOrder := by
  unfold Claims.LandingOrder
  intro c p issued mem due decides
  refine ⟨fun file num j hj mask last => ?_, fun file j hj mask last => ?_, fun file num j hj mask last => ?_, fun file num last => ?_⟩
  · exact (decided_scalar file num hj mask).land (fun x h => h.1.trans file.symm) issued mem due
      fun x hx other ⟨hf, hn, bit⟩ => last x hx other (hf.trans file.symm) hn bit
  · exact (decided_vector file hj mask).land (fun x h => h.1.trans file.symm) issued mem due
      fun x hx other ⟨hf, hn, bit⟩ => last x hx other (hf.trans file.symm) hn bit
  · exact (decided_predicate file num hj mask).land (fun x h => h.1.trans file.symm) issued mem due
      fun x hx other ⟨hf, hn, bit⟩ => last x hx other (hf.trans file.symm) hn bit
  · exact (decided_tvec file num).land (fun x h => h.1.trans file.symm) issued mem due
      fun x hx other ⟨hf, hn⟩ => last x hx other (hf.trans file.symm) hn trivial

theorem vectorLanding : Claims.VectorLanding := by
  unfold Claims.VectorLanding
  intro c p j file hj
  rw [Ctx.landOne_v file hj]
  simp

theorem hardwiredRegisters : Claims.HardwiredRegisters := by
  unfold Claims.HardwiredRegisters
  refine fun c p => ⟨rfl, rfl, fun zero file => ?_⟩
  rcases file with file | file
  · rw [Ctx.landOne_scalar c p file, zero]; rfl
  · rw [Ctx.landOne_predicate c p file, zero]; rfl

/-- R41, R44: what lands, and FMT with its shadow. -/
theorem Ctx.land_eq {c : Ctx} {due later : List Pending}
    (hd : landingOrder (c.arch.pend.filter fun p => decide (p.tick ≤ c.arch.tick)) = due)
    (hl : (c.arch.pend.filter fun p => decide (c.arch.tick < p.tick)) = later) : ∃ f l, c.land =
      let u := ({ c with arch := { c.arch with pend := later } } : Ctx).landAll due
      { u with arch := { u.arch with fmt := f, shadow := l } } := by
  subst hd hl
  exact ⟨_, _, rfl⟩

/-- R40: the only pending write, a scalar one that is due, is the whole of what lands. -/
theorem Ctx.land_oneScalar {c : Ctx} {p : Pending} (only : c.arch.pend = [p]) (file : p.file = .scalar) (due : p.tick ≤ c.arch.tick) :
    ∃ f l, c.land =
      let u := ({ c with arch := { c.arch with pend := [] } } : Ctx).landOne p
      { u with arch := { u.arch with fmt := f, shadow := l } } := by
  have noClear : p.clearsSpv = false := by simp [Pending.clearsSpv, file]
  obtain ⟨f, l, land⟩ := Ctx.land_eq (c := c) (due := [p]) (later := [])
    (by simp [only, due, landingOrder, insertPending]) (by simpa [only] using due)
  exact ⟨f, l, by rw [land, Ctx.landAll, noClear]; rfl⟩

theorem scalarLanding : Claims.ScalarLanding := by
  unfold Claims.ScalarLanding
  intro c p only file mask due
  obtain ⟨f, l, land⟩ := Ctx.land_oneScalar only file due
  have ones : p.mask.truncate 64 = BitVec.allOnes 64 := by rw [mask]; decide
  rw [land, Ctx.landOne_scalar _ p file, ones, merge_ones]
  refine ⟨by simp, ?_, fun r hr => ?_, by simp, by simp, by simp⟩
  · show (Arch.setS _ p.num _).s p.num = _
    rw [Arch.s_setS]
    by_cases h : p.num = 0
    · rw [if_neg fun both => both.2 h, if_pos h, h]; rfl
    · rw [if_pos ⟨rfl, h⟩, if_neg h]; rfl
  · show (Arch.setS _ p.num _).s r = _
    rw [Arch.s_setS, if_neg fun both => hr both.1]; rfl

/-- Settles O44 (R40, R41, R50, R51): landing follows rank and issue, and a write changes the bits of its mask. -/
theorem landingRules : Obligations.LandingRules := by
  unfold Obligations.LandingRules
  exact ⟨scalarLanding, landingOrderDecides, vectorLanding, activeLanes, hardwiredRegisters⟩

end Sys2Proof.Machine
end

section
/-!
PROOFS. LOOP and SETFMT (R44, R46, R320, R333): LoopAndSetfmtResults settled.
-/

namespace Sys2Proof.Machine

/-- A control instruction in slot C has its effect. -/
theorem inC_ok {s : State} (slot : s.slot = 0) (k : State → State) : inC s k = .next (k s) :=
  inSlot_ok (by rw [slot]; rfl) k
theorem exec_inC {i : Instr} {s : State} {k : State → State} (slot : s.slot = 0) (runs : ∀ s, exec i s = inC s k) :
    exec i s = .next (k s) := (runs s).trans (inC_ok slot k)

/-- R46: the body of a LOOP lies inside the innermost loop that is active. -/
def nestsIn (loops : List Loop) (start stop : BitVec 32) : Prop :=
  match loops with
  | [] => True
  | o :: _ => o.start.toNat ≤ start.toNat ∧ start.toNat ≤ stop.toNat ∧ stop.toNat ≤ o.stop.toNat

/-- An answer that is ILLEGAL by a condition which says that its premise fails. -/
theorem next_of_illegal {P : Prop} {c : Bool} (h : c = true ↔ ¬P) (x y : State) :
    (P → (.next (if c then x else y) : Res) = .next y) ∧ (¬P → (.next (if c then x else y) : Res) = .next x) :=
  ⟨fun p => congrArg _ (if_neg fun hc => h.1 hc p), fun n => congrArg _ (if_pos (h.2 n))⟩

/-- R46: LOOP outside its legal places is ILLEGAL, and otherwise gives its loop. -/
theorem execLoop_eq (x : BitVec 5) (b : BitVec 15) {s : State} (slot : s.slot = 0) :
    let start := s.iss.parcel + BitVec.ofNat 32 s.iss.size
    let stop := start + b.zeroExtend 32
    let legal := s.iss.reps ≤ 1 ∧ s.me.arch.loops.length < 2 ∧ nestsIn s.me.arch.loops start stop ∧ b ≠ 0
    (legal → execLoop x b s = .next (if (s.rs x).truncate 32 = (0 : BitVec 32) then
        { s with iss := { s.iss with newLoop := some ⟨start, stop, 0⟩, skip := true } }
      else { s with iss := { s.iss with newLoop := some ⟨start, stop, (s.rs x).truncate 32⟩ } }))
    ∧ (¬legal → execLoop x b s = .next s.illegal) := by
  intro start stop legal
  unfold execLoop
  rw [inC_ok slot]
  refine next_of_illegal ?_ _ _
  cases hl : s.me.arch.loops with
  | nil => grind [nestsIn]
  | cons o t => grind [nestsIn]

theorem loopResults : Claims.LoopResults := by
  unfold Claims.LoopResults
  intro x b s slot start stop count nests legal
  obtain ⟨meaning, illegal⟩ := execLoop_eq x b slot
  rw [truncate_eq_ofNat] at meaning
  exact ⟨fun h some => (meaning h).trans (by rw [if_neg some]), fun h none => (meaning h).trans (by rw [if_pos none]), illegal⟩

theorem fmtLegal_iff (v : BitVec 32) : fmtLegal v = true ↔ v.toNat < 2 ^ 21 ∧ v.toNat / 2 ^ 10 % 8 < 6 := by
  have bound := v.isLt
  simp only [fmtLegal, fld, BitVec.extractLsb'_toNat, Nat.shiftRight_eq_div_pow, Bool.and_eq_true, beq_iff_eq, decide_eq_true_eq]
  omega

theorem setfmtResults : Claims.SetfmtResults := by
  unfold Claims.SetfmtResults
  intro x s slot v legal
  have meaning : execSetfmt x s = _ := inC_ok slot _
  rw [truncate_eq_ofNat] at meaning
  exact ⟨fun h => meaning.trans (by rw [if_pos ((fmtLegal_iff _).2 h)]; rfl),
    fun h => meaning.trans (by rw [if_neg fun l => h ((fmtLegal_iff _).1 l)])⟩

/-- Settles O47 (R44, R46, R320, R333), LOOP by its legal places, SETFMT by its legal values. -/
theorem loopAndSetfmtResults : Obligations.LoopAndSetfmtResults := by
  unfold Obligations.LoopAndSetfmtResults
  exact ⟨loopResults, setfmtResults⟩

end Sys2Proof.Machine
end

section
/-!
PROOFS. ENGRAVE and BNSET (R35, R137, R295, R296): CoreStoreResults settled.
-/

namespace Sys2Proof.Machine

open Sys2Proof.Claims (inside nearValue)

/-- Writing n keys in order from f. -/
theorem AMap.find_foldl_put {α : Type} (image : Nat → α) (m : AMap α) (f n p : Nat) :
    AMap.find ((List.range n).foldl (fun m j => AMap.put m (f + j) (image j)) m) p
      = if f ≤ p ∧ p < f + n then some (image (p - f)) else AMap.find m p := by
  induction n with
  | zero => simp
  | succ n ih =>
    rw [List.range_succ, List.foldl_append, List.foldl_cons, List.foldl_nil, AMap.find_put, ih]
    by_cases h : p = f + n
    · subst h
      simp
    · rw [if_neg h]
      exact if_congr (by omega) rfl rfl

/-- The greatest of a number and some others. -/
theorem foldl_max {α : Type} (f : α → Nat) (l : List α) (m : Nat) :
    let r := l.foldl (fun n w => max n (f w)) m
    m ≤ r ∧ (∀ w ∈ l, f w ≤ r) ∧ (r = m ∨ ∃ w ∈ l, f w = r) := by
  induction l generalizing m with
  | nil => simp
  | cons x t ih =>
    obtain ⟨first, each, attained⟩ := ih (max m (f x))
    refine ⟨(Nat.le_max_left ..).trans first, fun w hw => ?_, ?_⟩
    · rcases List.mem_cons.1 hw with rfl | hw
      · exact (Nat.le_max_right ..).trans first
      · exact each w hw
    · rcases attained with now | ⟨w, hw, is⟩
      · rcases Nat.le_total m (f x) with le | le
        · exact .inr ⟨x, List.mem_cons_self, (Nat.max_eq_right le).symm.trans now.symm⟩
        · exact .inl (now.trans (Nat.max_eq_left le))
      · exact .inr ⟨w, List.mem_cons_of_mem _ hw, is⟩

/-- R137: an access whose bytes are all in the window raises no flag. -/
theorem State.rangeFlags_of_inside {s : State} {as : List Nat} (h : inside s as) (l : Nat) : s.rangeFlags l as = s :=
  s.rangeFlags_inside l as fun a ha => by simpa [Ctx.inWindow] using h a ha

section
variable {s : State} {x y : BitVec 5} {c : BitVec 9} {k : BitVec 3}

/-- R35: a legal ENGRAVE. -/
theorem execEngrave_writes (slot : s.slot = 0) (some : c ≠ 0) (aligned : (s.rs x).toNat % 2 ^ 32 % 32 = 0)
    (plate : (s.rs y).toNat % 2 ^ 32 ≠ 0) (fits : (s.rs y).toNat % 2 ^ 32 + c.toNat ≤ 512) :
    execEngrave x y c s = .next ((s.rangeFlags 1 ((List.range (32 * c.toNat)).map ((s.rs x).toNat % 2 ^ 32 + ·))).modCore
      (coreOf s.cur) fun q => { q with plates := (List.range c.toNat).foldl (fun m j => AMap.put m ((s.rs y).toNat % 2 ^ 32 + j)
        (BitVec.ofNat 256 (nearValue s ((s.rs x).toNat % 2 ^ 32 + 32 * j) 32))) q.plates }) := by
  have count : c.toNat ≠ 0 := fun h => some (BitVec.eq_of_toNat_eq h)
  refine (inC_ok slot _).trans (congrArg _ ?_)
  dsimp only
  rw [if_neg count, if_neg]
  · rfl
  · simp only [Bool.or_eq_true, decide_eq_true_eq]
    omega

/-- R35: ENGRAVE from an address that is not aligned, or to plates that are not there. -/
theorem execEngrave_illegal (slot : s.slot = 0) (some : c ≠ 0) (bad : (s.rs x).toNat % 2 ^ 32 % 32 ≠ 0
    ∨ (s.rs y).toNat % 2 ^ 32 = 0 ∨ 512 < (s.rs y).toNat % 2 ^ 32 + c.toNat) : execEngrave x y c s = .next s.illegal := by
  have count : c.toNat ≠ 0 := fun h => some (BitVec.eq_of_toNat_eq h)
  refine (inC_ok slot _).trans (congrArg _ ?_)
  dsimp only
  rw [if_neg count, if_pos]
  simp only [Bool.or_eq_true, decide_eq_true_eq]
  omega

/-- R295: a legal BNSET. -/
theorem execBnset_writes {a : Nat} (slot : s.slot = 0) (ha : (s.rs x).toNat % 2 ^ 32 = a) (aligned : a % 64 = 0)
    (fits : a + 3584 ≤ 0x80000) :
    let ch := (s.rangeFlags 1 (addrsFrom a 3584)).choose
    let n := ((s.core (coreOf s.cur)).bnWrites.filter fun w => w.2.1 == k.toNat).foldl (fun n w => max n w.2.2.2.1)
      (s.cycle + ch.1 % 64 + 1)
    execBnset x k s = .next (ch.2.modCore (coreOf s.cur) fun q => { q with bnWrites := q.bnWrites
      ++ [(s.cur, k.toNat, s.me.arch.tick + 16, n, BitVec.ofNat 28672 (nearValue s a 3584))] }) := by
  subst ha
  refine (inC_ok slot _).trans (congrArg _ ?_)
  dsimp only
  rw [if_neg]
  · rfl
  · simp only [Bool.or_eq_true, decide_eq_true_eq]
    omega

theorem execBnset_illegal (slot : s.slot = 0)
    (bad : (s.rs x).toNat % 2 ^ 32 % 64 ≠ 0 ∨ 0x80000 < (s.rs x).toNat % 2 ^ 32 + 3584) : execBnset x k s = .next s.illegal := by
  refine (inC_ok slot _).trans (congrArg _ ?_)
  dsimp only
  rw [if_pos]
  simp only [Bool.or_eq_true, decide_eq_true_eq]
  omega

end

/-- Settles O8 (R35, R137, R295, R296): what a core's plates and stencil writes are after the instruction. -/
theorem coreStoreResults : Obligations.CoreStoreResults := by
  unfold Obligations.CoreStoreResults
  refine ⟨fun x y c s slot => ?_, fun x k s slot => ?_⟩
  · intro a f
    refine ⟨fun none => ?_, fun some aligned plate fits => ?_, fun some bad => execEngrave_illegal slot some bad⟩
    · subst none
      exact (show execEngrave x y 0 s = .next s from inC_ok slot _)
    · have only := s.rangeFlags_only 1 ((List.range (32 * c.toNat)).map (a + ·))
      have core (h : Nat) : (s.rangeFlags 1 ((List.range (32 * c.toNat)).map (a + ·))).core h = s.core h :=
        congrArg (AMap.get Core.reset · h) only.cores
      refine ⟨_, execEngrave_writes slot some aligned plate fits, fun j hj => ?_, fun p out => ?_, fun h other => ?_, rfl, only.mem,
        only.cmds, fun ins => by rw [State.modCore_ctxs]; exact congrArg State.ctxs (State.rangeFlags_of_inside ins 1)⟩
      · rw [State.core_modCore_self, core, AMap.get, AMap.find_foldl_put, if_pos ⟨Nat.le_add_right .., Nat.add_lt_add_left hj _⟩,
          Nat.add_sub_cancel_left]
        rfl
      · rw [State.core_modCore_self, core, AMap.find_foldl_put, if_neg out]
      · rw [State.core_modCore_other _ _ other, core]
  · intro a
    refine ⟨fun aligned fits => ?_, fun bad => execBnset_illegal slot bad⟩
    have ha : (s.rs x).toNat % 2 ^ 32 = a := rfl
    clear_value a
    have only := s.rangeFlags_only 1 (addrsFrom a 3584)
    have meaning := execBnset_writes (k := k) slot ha aligned fits
    have inWindow : inside s (addrsFrom a 3584) → (s.rangeFlags 1 (addrsFrom a 3584)).ctxs = s.ctxs :=
      fun ins => congrArg State.ctxs (State.rangeFlags_of_inside ins 1)
    generalize s.rangeFlags 1 (addrsFrom a 3584) = u at only meaning inWindow ⊢
    obtain ⟨late, each, attained⟩ := foldl_max (fun w : Nat × Nat × Nat × Nat × BitVec 28672 => w.2.2.2.1)
      ((s.core (coreOf s.cur)).bnWrites.filter fun w => w.2.1 == k.toNat) (s.cycle + u.choose.1 % 64 + 1)
    have core : u.choose.2.core (coreOf s.cur) = s.core (coreOf s.cur) :=
      congrArg (AMap.get Core.reset · (coreOf s.cur)) only.cores
    refine ⟨_, _, meaning, by omega, fun w hw hk => each w (List.mem_filter.2 ⟨hw, beq_iff_eq.2 hk⟩), ?_,
      ?_, ?_, rfl, only.mem, only.cmds, inWindow⟩
    · refine attained.imp (fun is => ?_) fun ⟨w, hw, is⟩ => ?_
      · rw [is]; omega
      · obtain ⟨hw, hk⟩ := List.mem_filter.1 hw
        exact ⟨w, hw, beq_iff_eq.1 hk, is⟩
    · rw [State.core_modCore_self, core]
    · rw [State.core_modCore_self, core]

end Sys2Proof.Machine
end

section
/-!
PROOFS. Transfers and the instructions that trap (R45, R250, R251, R291, R294, R316, R339).
-/

namespace Sys2Proof.Machine

open Sys2Proof.Claims (Branches goesTo writesS takesAfter)

/-- R45: the target of a relative transfer. -/
theorem add_signExtend {n : Nat} (h : BitVec 32) (off : BitVec n) :
    h + off.signExtend 32 = BitVec.ofInt 32 (h.toNat + off.toInt) := by
  rw [BitVec.ofInt_add, BitVec.ofInt_natCast, BitVec.ofNat_toNat, BitVec.setWidth_eq]
  rfl

/-- R288: a scalar result as a pending write. -/
theorem State.landS_eq_writesS (s : State) (l : Nat) (d : BitVec 5) (v : Word) : s.landS l d.toNat v = writesS s l d v := by
  unfold State.landS writesS
  by_cases h : d = 0
  · subst h; rfl
  · rw [if_neg (show d.toNat ≠ 0 from fun z => h (BitVec.eq_of_toNat_eq z)), if_neg h]
    rfl

/-- R316: the link is the parcel after the bundle. -/
theorem State.link_eq_writesS (s : State) (d : BitVec 5) :
    s.link d = writesS s 1 d (BitVec.ofNat 64 ((s.iss.parcel.toNat + s.iss.size) % 2 ^ 32)) := by
  have after : (s.iss.parcel + BitVec.ofNat 32 s.iss.size).zeroExtend 64
      = BitVec.ofNat 64 ((s.iss.parcel.toNat + s.iss.size) % 2 ^ 32) := by
    apply BitVec.eq_of_toNat_eq
    simp
  rw [State.link, State.landS_eq_writesS, after]

/-- R291: a branch whose condition is computed from its two sources. -/
theorem branches {mk : BitVec 5 → BitVec 5 → BitVec 15 → Instr} {c : Word → Word → Prop} (test : Word → Word → Bool)
    (runs : ∀ a b off s, exec (mk a b off) s = inC s fun s => s.branch off (test (s.rs a) (s.rs b)))
    (meaning : ∀ x y, test x y = true ↔ c x y) : Branches mk c := by
  intro a b off s slot
  rw [runs, inC_ok slot, State.branch, add_signExtend]
  exact ⟨fun h => by rw [if_pos ((meaning _ _).2 h)]; rfl, fun h => by rw [if_neg fun t => h ((meaning _ _).1 t)]⟩

theorem transferResults : Claims.TransferResults := by
  unfold Claims.TransferResults
  refine ⟨branches (· == ·) (fun _ _ _ _ => rfl) fun x y => beq_iff_eq, branches (· != ·) (fun _ _ _ _ => rfl) fun x y => bne_iff_ne,
    branches BitVec.slt (fun _ _ _ _ => rfl) fun x y => BitVec.slt_iff_toInt_lt,
    branches (fun x y => y.sle x) (fun _ _ _ _ => rfl) fun x y => BitVec.sle_iff_toInt_le,
    branches BitVec.ult (fun _ _ _ _ => rfl) fun x y => BitVec.ult_iff_lt,
    branches (fun x y => y.ule x) (fun _ _ _ _ => rfl) fun x y => BitVec.ule_iff_le, fun d imm s slot => ?_, fun d a s slot => ?_⟩
  · refine (exec_inC slot fun _ => rfl).trans ?_
    rw [State.link_eq_writesS, add_signExtend]
    rfl
  · refine (exec_inC slot fun _ => rfl).trans ?_
    rw [State.link_eq_writesS, truncate_eq_ofNat]
    rfl

/-- R251: the detail of TRAP and BKPT is their code. -/
theorem State.afterBundle_eq (s : State) (code : Nat) (detail : BitVec 15) : s.afterBundle code detail = takesAfter s code detail.toNat := by
  have wide : detail.zeroExtend 32 = BitVec.ofNat 32 detail.toNat := by simp
  rw [State.afterBundle, wide]
  rfl

theorem trapInstructionResults : Claims.TrapInstructionResults := by
  unfold Claims.TrapInstructionResults
  refine ⟨fun code s slot => ?_, fun code s slot => ?_, fun s slot => ⟨fun handler => ?_, fun user => ?_⟩⟩
  · exact (exec_inC slot fun _ => rfl).trans (by rw [State.afterBundle_eq])
  · exact (exec_inC slot fun _ => rfl).trans (by rw [State.afterBundle_eq])
  · exact (exec_inC slot fun _ => rfl).trans (by rw [if_pos handler]; rfl)
  · exact (exec_inC slot fun _ => rfl).trans (by rw [if_neg (Bool.eq_false_iff.1 user)])

theorem nopAndIllegalWord : Claims.NopAndIllegalWord := by
  unfold Claims.NopAndIllegalWord
  exact ⟨fun _ => rfl, fun _ _ => rfl⟩

end Sys2Proof.Machine
end

section
/-!
PROOFS. A bundle that has issued (R12, R34 to R49, R147, R206): what State.complete leaves of its context and of memory.
-/

namespace Sys2Proof.Machine

/-! The writes of a handler or of a near atomic that wait for both turns (R206, R248). -/

section
variable (s : State) (g : Nat) (b : List (Nat × Byte))

theorem State.storeLate_nil : s.storeLate g [] = s := rfl
theorem State.storeLate_late (some : b ≠ []) : (s.storeLate g b).late = s.late ++ [(g, .store b)] := by
  unfold State.storeLate
  rw [if_neg (by simpa using some)]
  rfl
theorem State.storeLate_self : ∃ gs, (s.storeLate g b).ctx g = { s.ctx g with gated := gs } := by
  unfold State.storeLate
  split
  · exact ⟨_, rfl⟩
  · exact ⟨_, State.ctx_modCtx_self _ _ _⟩
theorem State.storeLate_other {h : Nat} (n : h ≠ g) : (s.storeLate g b).ctx h = s.ctx h := by
  unfold State.storeLate
  split
  · rfl
  · exact State.ctx_modCtx_other _ _ n

end

/-- R147: the pops of a bundle change the streams and their units alone. -/
theorem Ctx.popUnits_only (c : Ctx) (pops : NSet) :
    ∃ st un, c.popUnits pops = { c with arch := { c.arch with streams := st }, units := un } := by
  refine foldl_keeps (P := fun x : Ctx => ∃ st un, x = { c with arch := { c.arch with streams := st }, units := un }) _ ?_ _ _
    ⟨c.arch.streams, c.units, rfl⟩
  rintro x q ⟨st, un, rfl⟩
  split
  · exact ⟨_, _, rfl⟩
  · exact ⟨_, _, rfl⟩

/-- R47: the running CRC after the bundle in issue. -/
def State.nextCrc (s : State) : Option (BitVec 16 × BitVec 32) := if s.blockDone then none else some s.running
/-- R34, R37, R147, R206: the bundle has issued, before the seal of a near atomic, the end of its segment, ERET and traps. -/
def State.issued (s : State) (engrave : Nat) : State :=
  let s1 := s.storeLate s.cur s.iss.direct
  let s2 := if engrave = 0 then s1 else
    s1.modCore (coreOf s.cur) fun k => { k with
      plates := AMap.put k.plates engrave (BitVec.ofNat 256 (s.iss.words.foldr (fun w n => n * 2 ^ 32 + w.toNat) 0)) }
  s2.modCtx s.cur fun c =>
    { c.popUnits s.iss.pops with
      arch := (c.popUnits s.iss.pops).arch.advance s.iss s.nextCrc
      bracket := none
      bpDone := false }

section
variable {s : State} {e : Nat}

theorem State.complete_issued (noEnd : s.iss.ends = none) (noEret : s.iss.eret = false) (noAtomic : s.iss.atomic = false)
    (noTrap : s.iss.after = none) : s.complete e = s.issued e := by
  unfold State.complete
  simp only [noEnd, noEret, noAtomic, noTrap]
  rfl
theorem State.complete_traps (noEnd : s.iss.ends = none) (noEret : s.iss.eret = false) (noAtomic : s.iss.atomic = false)
    {c : Cause} (trap : s.iss.after = some c) : s.complete e = (s.issued e).finishTrap s.cur c := by
  unfold State.complete
  simp only [noEnd, noEret, noAtomic, trap]
  rfl

variable (s e)

@[simp] theorem State.issued_mem : (s.issued e).mem = s.mem := by
  unfold State.issued
  dsimp only
  split <;> exact s.storeLate_mem ..
theorem State.issued_late : (s.issued e).late = (s.storeLate s.cur s.iss.direct).late := by
  unfold State.issued
  dsimp only
  split <;> rfl
@[simp] theorem State.issued_cur : (s.issued e).cur = s.cur := by
  unfold State.issued State.storeLate
  dsimp only
  split <;> split <;> rfl
theorem State.issued_other {h : Nat} (n : h ≠ s.cur) : (s.issued e).ctx h = s.ctx h := by
  unfold State.issued
  dsimp only
  rw [State.ctx_modCtx_other _ _ n]
  split
  · exact s.storeLate_other _ _ n
  · exact s.storeLate_other _ _ n
/-- The context of a bundle that has issued. -/
theorem State.issued_me : ∃ gs st un, (s.issued e).ctx s.cur = { s.me with
    gated := gs
    units := un
    bracket := none
    bpDone := false
    arch := ({ s.me.arch with streams := st } : Arch).advance s.iss s.nextCrc } := by
  obtain ⟨gs, stored⟩ := s.storeLate_self s.cur s.iss.direct
  obtain ⟨st, un, popped⟩ := Ctx.popUnits_only { s.me with gated := gs } s.iss.pops
  refine ⟨gs, st, un, ?_⟩
  unfold State.issued
  dsimp only
  rw [State.ctx_modCtx_self]
  have same : (if e = 0 then s.storeLate s.cur s.iss.direct else (s.storeLate s.cur s.iss.direct).modCore (coreOf s.cur) fun k =>
      { k with plates := AMap.put k.plates e (BitVec.ofNat 256 (s.iss.words.foldr (fun w n => n * 2 ^ 32 + w.toNat) 0)) }).ctx
      s.cur = { s.me with gated := gs } := by
    split
    · exact stored
    · exact stored
  rw [same, popped]

end

/-! Where the bundle after a plain one is (R37). -/

theorem Arch.advance_sequel (a : Arch) {i : Issue} (crc : Option (BitVec 16 × BitVec 32)) (noTarget : i.target = none)
    (noLoop : i.newLoop = none) (last : i.reps ≤ i.rep + 1) (flat : a.loops = []) :
    (a.advance i crc).pc = i.parcel + BitVec.ofNat 32 i.size ∧ (a.advance i crc).printRep = 0 := by
  have is : i.last = true := decide_eq_true last
  simp [Arch.advance, nextFlow, noTarget, noLoop, is, flat, endTest, Issue.stop]

end Sys2Proof.Machine
end

section
/-!
PROOFS. TRAP and BKPT at the boundary after their bundle (R245 to R247, R251, R257): O51's last part, and O51.
-/

namespace Sys2Proof.Machine

/-! A context that is written twice. -/

theorem AMap.put_put {α : Type} (m : AMap α) (k : Nat) (v w : α) : AMap.put (AMap.put m k v) k w = AMap.put m k w := by
  induction m with
  | nil => simp [AMap.put]
  | cons p t ih =>
    obtain ⟨a, x⟩ := p
    by_cases same : k = a
    · simp [AMap.put, same]
    · by_cases below : k < a
      · simp [AMap.put, same, below]
      · simp [AMap.put, same, below, ih]
theorem State.setCtx_setCtx (s : State) (g : Nat) (c d : Ctx) : (s.setCtx g c).setCtx g d = s.setCtx g d := by
  unfold State.setCtx
  dsimp only
  rw [AMap.put_put]
theorem State.modCtx_setCtx (s : State) (g : Nat) (c : Ctx) (f : Ctx → Ctx) : (s.setCtx g c).modCtx g f = s.setCtx g (f c) := by
  rw [State.modCtx, State.ctx_setCtx_self, State.setCtx_setCtx]

/-! Which cause is due. -/

theorem Ctx.engineCause_of_nil {c : Ctx} (none : c.causes = []) : c.engineCause = Option.none := by simp [Ctx.engineCause, none]
theorem Ctx.engineCause_of_holds {c : Ctx} (holds : c.holdsCauses = true) : c.engineCause = none := if_pos holds
theorem Ctx.badLanding_of_clean {c : Ctx} (clean : ∀ p ∈ c.arch.pend, p.poison = none ∨ c.arch.tick < p.tick) : c.badLanding = none := by
  have empty : (c.arch.pend.filter fun p => decide (p.tick ≤ c.arch.tick) && p.poison.isSome) = [] := by
    refine List.filter_eq_nil_iff.2 fun p hp => ?_
    rcases clean p hp with none | later
    · simp [none]
    · simp [Nat.not_le.2 later]
  rw [Ctx.badLanding, empty]
  rfl

section
variable {s : State} {g : Nat} {c : Cause}

theorem State.finishTrap_of_nothingDue (free : (s.ctx g).engineCause = none) (clean : (s.ctx g).badLanding = none) :
    s.finishTrap g c = s.takeTrap g c := by
  have notDue : (s.ctx g).syncDue = false := by simp [Ctx.syncDue, free, clean]
  rw [State.finishTrap, if_neg (Bool.eq_false_iff.1 notDue)]
theorem State.takeTrap_of_debugger (bkpt : c.code = 0x10) (present : (s.ctx g).present = true) : s.takeTrap g c =
    s.modCtx g fun x => { x with state := .frozen, freeze := some .debug, trapCause := causeWord 0x10 false c.detail } :=
  if_pos ⟨bkpt, present⟩
theorem State.takeTrap_of_noDebugger (absent : (s.ctx g).present = false) :
    s.takeTrap g c = s.take g { c with rep := (s.ctx g).arch.printRep } :=
  if_neg fun h => Bool.eq_false_iff.1 absent h.2
/-- R247: no cause stays pending where the proof gone back to is not newer than the trap. -/
theorem Ctx.keepTrap_of_recent {x : Ctx} (recent : ∀ q, x.newest = some q → q.arch.tick ≤ c.issued) : x.keepTrap c = x := by
  refine if_neg fun h => ?_
  obtain ⟨q, hq, newer⟩ := (Option.any_eq_true _ _).1 h
  exact absurd (of_decide_eq_true newer) (Nat.not_lt.2 (recent q hq))
theorem State.finishTrap_of_landing {p : Pending} (landing : (s.ctx g).badLanding = some p) (free : (s.ctx g).engineCause = none)
    (recent : ∀ q, (s.ctx g).newest = some q → q.arch.tick ≤ c.issued) :
    s.finishTrap g c = (s.setCtx g ((s.ctx g).dropLanding p)).take g ((s.ctx g).landingCause p) := by
  have due : (s.ctx g).syncDue = true := by simp [Ctx.syncDue, landing]
  have kept : (s.modCtx g fun x => x.keepTrap c) = s.setCtx g (s.ctx g) := by rw [State.modCtx, Ctx.keepTrap_of_recent recent]
  rw [State.finishTrap, if_pos due, kept]
  simp only [State.takeSync, State.ctx_setCtx_self, free, landing, Option.getD_some, State.takeLanding, State.modCtx_setCtx]

end

theorem causeWord_bkpt (detail : BitVec 32) : (causeWord 0x10 false detail).toNat = 0x10 + detail.toNat * 2 ^ 32 := by
  rw [causeWord, BitVec.toNat_append, Nat.shiftLeft_eq, ← Nat.shiftLeft_eq, ← Nat.shiftLeft_add_eq_or_of_lt (by decide), Nat.shiftLeft_eq]
  exact Nat.add_comm _ _

/-- R247, R257: a BKPT where a debugger is present and no cause is due leaves its bundle issued and its context frozen. -/
theorem State.complete_frozen {s : State} {c : Cause} {e : Nat} (trap : s.iss.after = some c) (bkpt : c.code = 0x10)
    (present : s.me.present = true) (noEnd : s.iss.ends = none) (noEret : s.iss.eret = false) (noAtomic : s.iss.atomic = false)
    (free : s.me.causes = [] ∨ (s.me.intrap = true ∧ s.me.trapCause.getLsbD 15 = true))
    (clean : ∀ p ∈ s.me.arch.pend, p.poison = none ∨ s.me.arch.tick + 1 < p.tick) : s.complete e =
      (s.issued e).modCtx s.cur fun x =>
        { x with state := .frozen, freeze := some .debug, trapCause := causeWord 0x10 false c.detail } := by
  obtain ⟨gs, st, un, me⟩ := s.issued_me e
  have noEngine : ((s.issued e).ctx s.cur).engineCause = none := by
    rw [me]
    rcases free with none | ⟨handler, async⟩
    · exact Ctx.engineCause_of_nil none
    · exact Ctx.engineCause_of_holds (by simp [Ctx.holdsCauses, handler, async])
  have noLanding : ((s.issued e).ctx s.cur).badLanding = none := by
    rw [me]
    exact Ctx.badLanding_of_clean clean
  rw [State.complete_traps noEnd noEret noAtomic trap, State.finishTrap_of_nothingDue noEngine noLanding]
  exact State.takeTrap_of_debugger bkpt (by rw [me]; exact present)

theorem bkptForTheDebugger : Claims.BkptForTheDebugger := by
  unfold Claims.BkptForTheDebugger
  refine ⟨fun s c trap bkpt => ⟨fun present noEnd noEret noAtomic free clean e => ?_, fun absent none noLanding => ?_⟩,
    fun s c p landing none recent => ?_⟩
  · obtain ⟨gs, st, un, issued⟩ := s.issued_me e
    rw [State.complete_frozen trap bkpt present noEnd noEret noAtomic free clean]
    have me := State.ctx_modCtx_self (s.issued e) s.cur fun x =>
      { x with state := .frozen, freeze := some .debug, trapCause := causeWord 0x10 false c.detail }
    rw [issued] at me
    have cur : ((s.issued e).modCtx s.cur fun x =>
        { x with state := .frozen, freeze := some .debug, trapCause := causeWord 0x10 false c.detail }).cur = s.cur := s.issued_cur e
    dsimp only [State.me]
    dsimp only at cur me
    rw [cur, me]
    refine ⟨rfl, rfl, causeWord_bkpt _, rfl, rfl, rfl, rfl, rfl, fun noTarget noLoop last flat => ?_, s.issued_mem e, fun none => ?_,
      fun h other => ?_⟩
    · exact Arch.advance_sequel _ _ noTarget noLoop last flat
    · refine (s.issued_late e).trans ?_
      rw [none, State.storeLate_nil]
    · rw [State.ctx_modCtx_other _ _ other, s.issued_other e other]
  · rw [State.finishTrap_of_nothingDue (Ctx.engineCause_of_nil none) noLanding, State.takeTrap_of_noDebugger absent]
    rfl
  · exact State.finishTrap_of_landing landing (Ctx.engineCause_of_nil none) recent

/-- Settles O51: every instruction by its equation of exec; at the boundary after a BKPT nothing is due, so that the frozen
context differs from the one that issued in the fields of the freeze alone. -/
theorem transferAndTrapResults : Obligations.TransferAndTrapResults := by
  unfold Obligations.TransferAndTrapResults
  exact ⟨transferResults, trapInstructionResults, bkptForTheDebugger, nopAndIllegalWord⟩

end Sys2Proof.Machine
end

section
/-!
PROOFS. Fetch of the parcel at the fetch position, and the step that runs it (R11, R30, R31, R48): O55.
-/

namespace Sys2Proof.Machine

open Sys2Proof.Claims (reaches)

/-! What a fetch gives. -/

/-- R31: the instructions of the fetch stream. -/
theorem decodeParcel_forms {p : BitVec 16} {i : Instr} (h : decodeParcel p = some i) :
    (∃ n k, i = .print n k) ∨ ∃ e, i = .fullBundleHeader e := by
  unfold decodeParcel at h
  split at h
  · cases h; exact .inl ⟨_, _, rfl⟩
  · split at h
    · cases h; exact .inr ⟨_, rfl⟩
    · cases h
theorem State.fetch_decoded {s : State} {i : Instr} (h : s.fetch = .instr i) : ∃ p, decodeParcel p = some i := by
  unfold State.fetch at h
  dsimp only at h
  split at h
  · cases h
  · split at h
    · cases h
    · cases h
    · split at h
      · cases h
      · next decoded =>
        split at h
        · cases h
        · cases h; exact ⟨_, decoded⟩
theorem exec_fetched_not_refused {s : State} {i : Instr} (h : s.fetch = .instr i) (t : State) (r : Refusal) : exec i t ≠ .refused r := by
  obtain ⟨p, decoded⟩ := State.fetch_decoded h
  rcases decodeParcel_forms decoded with ⟨n, k, rfl⟩ | ⟨e, rfl⟩
  · exact nofun
  · show execFullBundleHeader e t ≠ .refused r
    unfold execFullBundleHeader
    split <;> exact nofun

/-! The parcel at the fetch position (R30, R31, R48). -/

theorem readNat_two (m : Memory) (key : Nat) : BitVec.ofNat 16 (readNat m key 2) = m.read (key + 1) ++ m.read key := by
  refine BitVec.eq_of_toNat_eq ?_
  have low := (m.read key).isLt
  have high := (m.read (key + 1)).isLt
  have bytes : readNat m key 2 = (m.read key).toNat + 256 * (m.read (key + 1)).toNat := rfl
  rw [bytes, BitVec.toNat_append, ← Nat.shiftLeft_add_eq_or_of_lt low, Nat.shiftLeft_eq, BitVec.toNat_ofNat]
  omega

theorem State.readParcels_one {s : State} {p : Nat} (lower : 0x10000000 ≤ s.codeAddr s.cur p) (upper : s.codeAddr s.cur p + 2 ≤ 0x14000000)
    (clean : s.poisoned (ltsKey (clusterOf s.cur) (s.codeAddr s.cur p - 0x10000000)) = false)
    (valid : (s.row (clusterOf s.cur) ((s.codeAddr s.cur p - 0x10000000) / 1024)).valid = true) :
    s.readParcels p 1 = .ok [s.mem.read (ltsKey (clusterOf s.cur) (s.codeAddr s.cur p - 0x10000000) + 1)
      ++ s.mem.read (ltsKey (clusterOf s.cur) (s.codeAddr s.cur p - 0x10000000))] := by
  have inside : ¬(s.codeAddr s.cur p < 0x10000000 ∨ 0x14000000 < s.codeAddr s.cur p + 2 * 1) := by omega
  unfold State.readParcels
  dsimp only
  rw [if_neg inside]
  simp [List.range_succ, clean, valid, readNat_two]

theorem fetchReadsTheParcel : Claims.FetchReadsTheParcel := by
  unfold Claims.FetchReadsTheParcel
  intro s i p a key kernel signed lower upper clean valid parcel decoded inBody
  have known : ¬((s.myKernel s.cur).isNone = true ∨ s.me.arch.crc.isNone = true ∧ (s.signatureOf s.cur s.me.arch.pc).isNone = true) := by
    simp only [Option.isNone_iff_eq_none]
    rintro (none | ⟨noCrc, noEntry⟩)
    · exact kernel none
    · exact signed.elim (· noCrc) (· noEntry)
  have read : s.readParcels s.me.arch.pc.toNat 1 = .ok [p] := by
    rw [parcel]
    exact State.readParcels_one lower upper clean valid
  unfold State.fetch
  dsimp only
  rw [if_neg known, read]
  dsimp only [List.headD]
  rw [decoded]
  exact if_neg (Bool.eq_false_iff.1 inBody)

/-! The step that runs it (R11). -/

theorem step_eq_issueTurn {s : State} {i : Instr} (h : reaches s i) : step s = s.issueTurn s.turnContext := by
  obtain ⟨due, inbox, turn, options, issues, -, -⟩ := h
  have proceeds : s.proceed = s.issueTurn s.turnContext := by
    rw [State.proceed, if_neg (Nat.not_le.2 turn), State.takeTurn, if_pos issues]
  unfold step
  split
  · exact proceeds
  · rw [due, inbox]
    dsimp only
    rw [State.goOn, options]
    exact proceeds
theorem issueTurn_next {s u : State} {i : Instr} (h : reaches s i) (next : exec i s.atTurn = .next u) :
    s.issueTurn s.turnContext = .next (s.atTurn.endTurn u s.turnContext) := by
  obtain ⟨-, -, -, -, -, boundary, fetched⟩ := h
  simp only [State.issueTurn, boundary, fetched, next]
theorem issueTurn_fault {s : State} {i : Instr} {f : Fault} (h : reaches s i) (fault : exec i s.atTurn = .fault f) :
    s.issueTurn s.turnContext = .fault f := by
  obtain ⟨-, -, -, -, -, boundary, fetched⟩ := h
  simp only [State.issueTurn, boundary, fetched, fault]

theorem stepRunsTheFetched : Claims.StepRunsTheFetched := by
  unfold Claims.StepRunsTheFetched
  intro s i h
  refine ⟨fun u next => (step_eq_issueTurn h).trans (issueTurn_next h next),
    fun f fault => (step_eq_issueTurn h).trans (issueTurn_fault h fault), fun r => ?_⟩
  obtain ⟨-, -, -, -, -, -, fetched⟩ := h
  exact exec_fetched_not_refused fetched _ r

/-- Settles O55: a fetch is the read of one parcel, and a step at a turn with nothing due is that turn. -/
theorem stepRunsTheInstruction : Obligations.StepRunsTheInstruction := by
  unfold Obligations.StepRunsTheInstruction
  exact ⟨fetchReadsTheParcel, stepRunsTheFetched⟩

end Sys2Proof.Machine
end

section
/-!
PROOFS. A bundle that issues (R33, R37, R39, R331): where execution stands before and after it, and what its words leave of
memory when they compute in registers alone.
-/

namespace Sys2Proof.Machine

open Sys2Proof.Claims (mayStand)

/-! Where execution stands: what no landing and no computing instruction changes. -/

/-- Two contexts stand at one repetition of one parcel, in one tick, in the same loops and with the same streams. -/
structure SamePlace (a b : Arch) : Prop where
  pc : b.pc = a.pc
  tick : b.tick = a.tick
  loops : b.loops = a.loops
  printRep : b.printRep = a.printRep
  streams : b.streams = a.streams

theorem SamePlace.refl (a : Arch) : SamePlace a a := ⟨rfl, rfl, rfl, rfl, rfl⟩
theorem SamePlace.trans {a b c : Arch} (h : SamePlace a b) (k : SamePlace b c) : SamePlace a c :=
  ⟨k.pc.trans h.pc, k.tick.trans h.tick, k.loops.trans h.loops, k.printRep.trans h.printRep, k.streams.trans h.streams⟩

theorem Ctx.writeControl_samePlace (c : Ctx) (r : Nat) (v : Word) : SamePlace c.arch (c.writeControl r v).arch := by
  unfold Ctx.writeControl
  split <;> exact ⟨rfl, rfl, rfl, rfl, rfl⟩
theorem Arch.setS_samePlace (a : Arch) (r : Nat) (v : Word) : SamePlace a (a.setS r v) := by
  unfold Arch.setS
  split <;> exact ⟨rfl, rfl, rfl, rfl, rfl⟩
theorem Arch.setP_samePlace (a : Arch) (r : Nat) (v : PWord) : SamePlace a (a.setP r v) := by
  unfold Arch.setP
  split <;> exact ⟨rfl, rfl, rfl, rfl, rfl⟩
theorem Ctx.landOne_samePlace (c : Ctx) (p : Pending) : SamePlace c.arch (c.landOne p).arch := by
  unfold Ctx.landOne
  split
  · exact Arch.setS_samePlace ..
  · exact ⟨rfl, rfl, rfl, rfl, rfl⟩
  · exact Arch.setP_samePlace ..
  · exact Ctx.writeControl_samePlace ..
  · exact ⟨rfl, rfl, rfl, rfl, rfl⟩
theorem Ctx.landAll_samePlace (c : Ctx) (l : List Pending) : SamePlace c.arch (c.landAll l).arch := by
  induction l generalizing c with
  | nil => exact .refl _
  | cons p t ih =>
    unfold Ctx.landAll
    dsimp only
    split
    · have tail := ih { c.landOne p with arch := { (c.landOne p).arch with spvio := firstSpv (t ++ (c.landOne p).arch.pend) } }
      exact (Ctx.landOne_samePlace c p).trans ⟨tail.pc, tail.tick, tail.loops, tail.printRep, tail.streams⟩
    · exact (Ctx.landOne_samePlace c p).trans (ih _)
/-- R41: landing moves nothing. -/
theorem Ctx.land_samePlace (c : Ctx) : SamePlace c.arch c.land.arch := by
  generalize hd : landingOrder (c.arch.pend.filter fun p => decide (p.tick ≤ c.arch.tick)) = due
  generalize hl : (c.arch.pend.filter fun p => decide (c.arch.tick < p.tick)) = later
  obtain ⟨f, l, eq⟩ := Ctx.land_eq hd hl
  rw [eq]
  have all := Ctx.landAll_samePlace { c with arch := { c.arch with pend := later } } due
  exact ⟨all.pc, all.tick, all.loops, all.printRep, all.streams⟩

/-! A bundle whose words compute in registers alone. -/

/-- From s on to t, the context that executes has computed in registers: memory, the record of the bundle and the place of
execution are as they were. -/
structure Computes (s t : State) : Prop where
  mem : t.mem = s.mem
  iss : t.iss = s.iss
  cur : t.cur = s.cur
  place : SamePlace s.me.arch t.me.arch

section
variable {s t u : State} {i : Instr}

theorem Computes.refl (s : State) : Computes s s := ⟨rfl, rfl, rfl, .refl _⟩
theorem Computes.trans (h : Computes s t) (k : Computes t u) : Computes s u :=
  ⟨k.mem.trans h.mem, k.iss.trans h.iss, k.cur.trans h.cur, h.place.trans k.place⟩
theorem Issues.computes {names : RegFile → Nat → Prop} {n : Word} (h : Issues names n s t) : Computes s t := by
  obtain ⟨p, me, -⟩ := h.me
  exact ⟨h.only.mem, h.iss, h.only.cur, by rw [me]; exact ⟨rfl, rfl, rfl, rfl, rfl⟩⟩

/-- R41: the due writes of the context land. -/
theorem State.land_computes (s : State) : Computes s (s.modCtx s.cur Ctx.land) := by
  refine ⟨rfl, rfl, rfl, ?_⟩
  have me : (s.modCtx s.cur Ctx.land).me = s.me.land := State.ctx_modCtx_self ..
  rw [me]
  exact Ctx.land_samePlace _

/-- R64: a slot word of slots S, T, V, W or X, in a slot that may hold it and with no stream bound, computes or raises. -/
theorem WordForm.computes (form : WordForm i) (mine : s.slot ∈ mayStand i) (away : s.slot ≠ 0 ∧ s.slot ≠ 3 ∧ s.slot ≠ 7)
    (none : s.me.arch.streams = []) : ∃ t, exec i s = .next t ∧ ((∃ c, t.iss.verdict = .raised c) ∨ Computes s t) := by
  cases form with
  | anywhere is =>
    rcases is with rfl | ⟨w, rfl⟩
    · exact ⟨s, rfl, .inr (.refl _)⟩
    · exact ⟨_, nopAndIllegalWord.2 w s, .inl ⟨_, rfl⟩⟩
  | scalar k runs issues => exact ⟨k s, runs.right mine, .inr (issues s).computes⟩
  | vector l ok k runs slots settles =>
    refine ⟨k s, runs.right mine, (settles s none).imp_right ?_⟩
    rintro ⟨ch, ⟨n, -, issues⟩, -⟩
    exact ⟨issues.computes.mem, issues.computes.iss, issues.computes.cur, issues.computes.place⟩
  | other l ok k runs slots =>
    have one := slots _ (runs.slots ▸ mine)
    omega

end

/-- R64: the words of slots S, T, V, W and X, from slot k on. -/
def ComputingWords (k : Nat) (words : List SlotWord) : Prop :=
  ∀ j w, words[j]? = some w → w = 0 ∨ ∃ i, decodeWord w = some i ∧ k + j ∈ mayStand i ∧ k + j ≠ 0 ∧ k + j ≠ 3 ∧ k + j ≠ 7

theorem State.runSlot_zero (s : State) (k : Nat) : s.runSlot k 0 = { s with slot := k } := rfl

theorem State.runSlot_computes {s : State} {k : Nat} {w : SlotWord} (none : s.me.arch.streams = [])
    (word : w = 0 ∨ ∃ i, decodeWord w = some i ∧ k ∈ mayStand i ∧ k ≠ 0 ∧ k ≠ 3 ∧ k ≠ 7) :
    (∃ c, (s.runSlot k w).iss.verdict = .raised c) ∨ Computes s (s.runSlot k w) := by
  rcases word with rfl | ⟨i, decodes, mine, away⟩
  · exact .inr ⟨rfl, rfl, rfl, .refl _⟩
  · have form : WordForm i := by
      rcases decodeWord_row decodes with rfl | row
      · exact .anywhere (.inl rfl)
      · exact wordForm i (.inr row)
    obtain ⟨t, runs, settles⟩ := form.computes (s := { s with slot := k }) mine away none
    rw [(slotRunsItsWord s k w).1 i t decodes runs]
    exact settles.imp_right fun h => ⟨h.mem, h.iss, h.cur, h.place⟩

/-- Computing words, none of which raises, compute. -/
theorem State.runSlots_computes {s : State} {k : Nat} {words : List SlotWord} (none : s.me.arch.streams = [])
    (computing : ComputingWords k words) (ok : (s.runSlots k words).iss.verdict = .ok) : Computes s (s.runSlots k words) := by
  induction words generalizing s k with
  | nil => exact .refl _
  | cons w t ih =>
    have tail : ComputingWords (k + 1) t := fun j x hx => by
      have word := computing (j + 1) x hx
      rwa [Nat.add_comm j, ← Nat.add_assoc] at word
    unfold State.runSlots at ok ⊢
    dsimp only at ok ⊢
    split at ok
    · next raised => exact nomatch raised.symm.trans ok
    · next notRaised =>
      rcases State.runSlot_computes none (computing 0 w rfl) with ⟨c, raised⟩ | head
      · exact absurd raised (notRaised c)
      · exact head.trans (ih (head.place.streams.trans none) tail ok)

end Sys2Proof.Machine
end

section
/-!
PROOFS. PRINT and full bundles that issue (R32 to R39, R331).
-/

namespace Sys2Proof.Machine

open Sys2Proof.Claims (mayStand sameOutside)

/-! The issue of a bundle (R39). -/

/-- The bundle of some words begins at the parcel address. -/
def State.begin (s : State) (words : List SlotWord) (size reps : Nat) : State :=
  { s with iss := { Issue.reset with
    parcel := s.me.arch.pc, size := size, rep := s.me.arch.printRep, reps := reps, words := words } }
/-- The words have run, on the context with its due writes landed. -/
def State.ran (s : State) (words : List SlotWord) (size reps : Nat) : State :=
  ((s.begin words size reps).modCtx s.cur Ctx.land).runSlots 0 words

/-- R200: a context that no FENCE holds. -/
theorem Ctx.unfenced {c : Ctx} (free : c.arch.fenced = false) : ({ c with arch := { c.arch with fenced := false } } : Ctx) = c := by
  rw [← free]

section
variable {s : State} {words : List SlotWord} {size reps engrave : Nat}

/-- R34, R37, R39: a bundle that neither waits, stalls nor raises, and whose signature fits, has issued. -/
theorem State.issueBundle_issues (free : s.me.arch.fenced = false) (ready : (s.begin words size reps).waits = false)
    (ok : (s.ran words size reps).iss.verdict = .ok) (signed : (s.ran words size reps).badSignature = none) :
    s.issueBundle words size reps engrave = ((s.ran words size reps).complete engrave).orderPushes s.cur s.me.arch.streams := by
  have landed : ((s.begin words size reps).modArch s.cur fun a => { a with fenced := false }).modCtx s.cur Ctx.land =
      (s.begin words size reps).modCtx s.cur Ctx.land := by
    refine (State.modCtx_setCtx ..).trans ?_
    exact congrArg (fun c : Ctx => (s.begin words size reps).setCtx s.cur c.land) (Ctx.unfenced (c := s.me) free)
  unfold State.ran at ok signed ⊢
  unfold State.issueBundle
  dsimp only
  rw [← State.begin, ready, free]
  simp only [Bool.false_and, Bool.false_eq_true, if_false, landed, ok, signed]

end

/-- R33: plate 0 is the empty bundle. -/
theorem State.plateWords_eq (s : State) (n : BitVec 9) : s.plateWords (coreOf s.cur) n.toNat =
    (List.range 8).map fun i => (if n = 0 then 0 else AMap.get 0 (s.core (coreOf s.cur)).plates n.toNat : BitVec 256).extractLsb' (32 * i) 32 := by
  have zero : n.toNat = 0 ↔ n = 0 := ⟨fun h => BitVec.eq_of_toNat_eq h, fun h => by rw [h]; rfl⟩
  simp only [State.plateWords, zero]

/-! The pushes of a bundle (R144, R196). -/

theorem State.orderPushes_unbound (s : State) (g : Nat) : s.orderPushes g [] = s := rfl
/-- R196: to read units again changes the prefetched units alone. -/
theorem Ctx.rereadUnits_only (c : Ctx) (bytes : List (Nat × Byte)) (which : Nat → Bool) :
    ∃ un f o, c.rereadUnits bytes which = { c with units := un, fetched := f, fetchOff := o } := by
  refine foldl_keeps (P := fun x : Ctx => ∃ un f o, x = { c with units := un, fetched := f, fetchOff := o }) _ ?_ _ _
    ⟨c.units, c.fetched, c.fetchOff, rfl⟩
  rintro x q ⟨un, f, o, rfl⟩
  dsimp only
  split
  · exact ⟨_, _, _, rfl⟩
  · exact ⟨_, _, _, rfl⟩
theorem State.orderPushes_cases (s : State) (g : Nat) (before : AMap Stream) : s.orderPushes g before = s
    ∨ ∃ un f o, s.orderPushes g before = s.setCtx g { s.ctx g with units := un, fetched := f, fetchOff := o } := by
  unfold State.orderPushes
  split
  · exact .inl rfl
  · obtain ⟨un, f, o, only⟩ := Ctx.rereadUnits_only (s.ctx g) (s.streamCells g (pushedSince before (s.ctx g).arch.streams)) fun _ => true
    exact .inr ⟨un, f, o, by rw [State.modCtx, only]⟩

/-! Where a repetition goes next (R33, R37). -/

section
variable (a : Arch) {i : Issue} (crc : Option (BitVec 16 × BitVec 32)) (noTarget : i.target = none) (noLoop : i.newLoop = none)
include noTarget noLoop

theorem Arch.advance_repeats (more : i.rep + 1 < i.reps) : (a.advance i crc).pc = i.parcel ∧ (a.advance i crc).printRep = i.rep + 1
    ∧ (a.advance i crc).loops = a.loops := by
  have is : i.last = false := decide_eq_false (Nat.not_le.2 more)
  simp [Arch.advance, nextFlow, noTarget, noLoop, is]
theorem Arch.advance_last_printRep (last : i.reps ≤ i.rep + 1) : (a.advance i crc).printRep = 0 := by
  have is : i.last = true := decide_eq_true last
  simp [Arch.advance, nextFlow, noTarget, noLoop, is]

end

/-! PRINT and full bundles. -/

theorem printRunsItsPlate : Claims.PrintRunsItsPlate := by
  unfold Claims.PrintRunsItsPlate
  intro n k s plate words s0 s2 free ready ok signed
  have plateIs : s.plateWords (coreOf s.cur) n.toNat = words := State.plateWords_eq s n
  have issues : exec (.print n k) s = .next ((s2.complete 0).orderPushes s.cur s.me.arch.streams) := by
    show Host.Outcome.next (s.issueBundle (s.plateWords (coreOf s.cur) n.toNat) 1 (k.toNat + 1) 0) = _
    rw [plateIs]
    exact congrArg _ (State.issueBundle_issues (size := 1) (reps := k.toNat + 1) free ready ok signed)
  refine ⟨issues, fun none computing => ?_⟩
  have landed : Computes s0 (s0.modCtx s.cur Ctx.land) := State.land_computes s0
  have ran : Computes s0 s2 := landed.trans
    (State.runSlots_computes (landed.place.streams.trans none) (by simpa [ComputingWords] using computing) ok)
  have complete : s2.complete 0 = s2.issued 0 := State.complete_issued (congrArg Issue.ends ran.iss) (congrArg Issue.eret ran.iss)
    (congrArg Issue.atomic ran.iss) (congrArg Issue.after ran.iss)
  obtain ⟨gs, st, un, me⟩ := s2.issued_me 0
  have cur : s2.cur = s.cur := ran.cur
  have mine : (s2.issued 0).me = (s2.issued 0).ctx s2.cur := congrArg _ (s2.issued_cur 0)
  rw [none, State.orderPushes_unbound, complete] at issues
  refine ⟨_, issues, (s2.issued_mem 0).trans ran.mem, ?_, fun more => ?_, fun last => ⟨?_, fun flat => ?_⟩⟩
  · rw [mine, me]
    exact congrArg (· + 1) ran.place.tick
  · rw [mine, me, ran.iss]
    obtain ⟨pc, rep, loops⟩ := Arch.advance_repeats { s2.me.arch with streams := st } s2.nextCrc (i := s0.iss) rfl rfl
      (Nat.succ_lt_succ more)
    exact ⟨pc, rep, loops.trans ran.place.loops⟩
  · rw [mine, me, ran.iss]
    exact Arch.advance_last_printRep _ _ rfl rfl (Nat.succ_le_succ last)
  · rw [mine, me, ran.iss]
    obtain ⟨pc, -⟩ := Arch.advance_sequel { s2.me.arch with streams := st } s2.nextCrc (i := s0.iss) rfl rfl
      (Nat.succ_le_succ last) (ran.place.loops.trans flat)
    exact pc

theorem fullBundleRunsItsWords : Claims.FullBundleRunsItsWords := by
  unfold Claims.FullBundleRunsItsWords
  intro e s ps read s0 s2 free ready ok signed
  show execFullBundleHeader e s = _
  unfold execFullBundleHeader
  rw [read]
  exact congrArg _ (State.issueBundle_issues (size := 17) (reps := 1) free ready ok signed)

end Sys2Proof.Machine
end

section
/-!
PROOFS. The empty bundle (R33, R331), and what a bundle writes to near store at its issue (R12, R206, R248): O54.
-/

namespace Sys2Proof.Machine

open Sys2Proof.Claims (sameOutside)

/-! What stays outside the context that executes. -/

theorem sameOutside_setCtx (s : State) (c : Ctx) : sameOutside s (s.setCtx s.cur c) :=
  ⟨rfl, rfl, rfl, rfl, rfl, rfl, rfl, fun _ other => State.ctx_setCtx_other _ _ other, rfl, rfl, rfl, rfl, rfl, rfl, rfl, rfl, rfl, rfl⟩
theorem sameOutside_trans {s t u : State} (h : sameOutside s t) (k : sameOutside t u) : sameOutside s u := by
  obtain ⟨mem, poison, flawed, deferred, turn, busy, late, other, cores, clusters, units, cmds, nextCmd, ce, edge, inbox, cycle, cur⟩ := h
  obtain ⟨mem', poison', flawed', deferred', turn', busy', late', other', cores', clusters', units', cmds', nextCmd', ce', edge',
    inbox', cycle', cur'⟩ := k
  exact ⟨mem'.trans mem, poison'.trans poison, flawed'.trans flawed, deferred'.trans deferred, turn'.trans turn, busy'.trans busy,
    late'.trans late, fun g n => (other' g (cur ▸ n)).trans (other g n), cores'.trans cores, clusters'.trans clusters,
    units'.trans units, cmds'.trans cmds, nextCmd'.trans nextCmd, ce'.trans ce, edge'.trans edge, inbox'.trans inbox,
    cycle'.trans cycle, cur'.trans cur⟩

/-- R196: to read units again changes the context's prefetched units alone. -/
theorem State.orderPushes_only (s : State) (before : AMap Stream) : sameOutside s (s.orderPushes s.cur before)
    ∧ (s.orderPushes s.cur before).iss = s.iss
    ∧ ∃ un f o, (s.orderPushes s.cur before).me = { s.me with units := un, fetched := f, fetchOff := o } := by
  rcases s.orderPushes_cases s.cur before with same | ⟨un, f, o, changed⟩
  · rw [same]
    exact ⟨⟨rfl, rfl, rfl, rfl, rfl, rfl, rfl, fun _ _ => rfl, rfl, rfl, rfl, rfl, rfl, rfl, rfl, rfl, rfl, rfl⟩, rfl, _, _, _, rfl⟩
  · rw [changed]
    exact ⟨sameOutside_setCtx s _, rfl, un, f, o, State.ctx_setCtx_self ..⟩

/-! The empty bundle. -/

theorem State.waits_of_free {s : State} (cmds : (s.cmds.all fun d => d.by_.g != s.cur) = true)
    (stencils : ((s.core (coreOf s.cur)).bnWrites.all fun w => w.1 != s.cur) = true) : s.waits = false := by
  have noFence : ∀ d ∈ s.cmds, (d.by_.g == s.cur) = false := fun d hd => by simpa using List.all_eq_true.1 cmds d hd
  have noWrite : ∀ w ∈ (s.core (coreOf s.cur)).bnWrites, (w.1 == s.cur) = false := fun w hw => by
    simpa using List.all_eq_true.1 stencils w hw
  refine Bool.or_eq_false_iff.2 ⟨?_, ?_⟩
  · exact List.any_eq_false.2 fun d hd => by simp [noFence d hd]
  · exact List.any_eq_false.2 fun w hw => by simp [noWrite w hw]

/-- R33: the words of the empty bundle. -/
def emptyWords : List SlotWord := List.replicate 8 0

theorem State.plateWords_zero (s : State) (core : Nat) : s.plateWords core 0 = emptyWords := by
  simp [State.plateWords, emptyWords, List.range_succ, List.replicate]
theorem State.runSlots_zero {s : State} (ok : s.iss.verdict = .ok) (k : Nat) (t : List SlotWord) :
    s.runSlots k (0 :: t) = ({ s with slot := k } : State).runSlots (k + 1) t := by
  rw [State.runSlots, State.runSlot_zero]
  simp only [ok]
theorem State.runSlots_zeros {s : State} (ok : s.iss.verdict = .ok) (k n : Nat) :
    s.runSlots k (List.replicate (n + 1) 0) = { s with slot := k + n } := by
  induction n generalizing s k with
  | zero => exact State.runSlots_zero ok k []
  | succ n ih => rw [List.replicate_succ, State.runSlots_zero ok, ih (s := { s with slot := k }) ok, Nat.add_right_comm, Nat.add_assoc]

/-- A bundle that stores nothing at its issue and engraves nothing leaves the context that it advances. -/
theorem State.issued_plain {s : State} (plain : s.iss.direct = []) : s.issued 0 = s.setCtx s.cur { s.me.popUnits s.iss.pops with
    arch := (s.me.popUnits s.iss.pops).arch.advance s.iss s.nextCrc
    bracket := none
    bpDone := false } := by
  unfold State.issued
  rw [plain, State.storeLate_nil]
  rfl

/-- R33: with nothing to land, the empty bundle leaves its context as it is. -/
theorem State.ran_empty {s : State} {size reps : Nat} (pend : s.me.arch.pend = []) (shadow : s.me.arch.shadow = []) :
    s.ran emptyWords size reps = { (s.begin emptyWords size reps).setCtx s.cur s.me with slot := 7 } := by
  have landed : (s.begin emptyWords size reps).modCtx s.cur Ctx.land = (s.begin emptyWords size reps).setCtx s.cur s.me :=
    congrArg _ (Ctx.land_nothing _ pend shadow)
  rw [State.ran, landed]
  exact State.runSlots_zeros rfl 0 7

/-- R33, R37: outside loops, a bundle that transfers nowhere is repeated at its parcel, then followed by the next. -/
theorem Arch.advance_plain (a : Arch) {i : Issue} (crc : Option (BitVec 16 × BitVec 32)) (noTarget : i.target = none)
    (noLoop : i.newLoop = none) (flat : a.loops = []) :
    (a.advance i crc).pc = (if i.rep + 1 < i.reps then i.parcel else i.parcel + BitVec.ofNat 32 i.size)
      ∧ (a.advance i crc).printRep = (if i.rep + 1 < i.reps then i.rep + 1 else 0) := by
  by_cases more : i.rep + 1 < i.reps
  · obtain ⟨pc, rep, -⟩ := Arch.advance_repeats a crc noTarget noLoop more
    rw [if_pos more, if_pos more]
    exact ⟨pc, rep⟩
  · rw [if_neg more, if_neg more]
    exact Arch.advance_sequel a crc noTarget noLoop (Nat.not_lt.1 more) flat

theorem printOfTheEmptyBundle : Claims.PrintOfTheEmptyBundle := by
  unfold Claims.PrintOfTheEmptyBundle
  intro k s pend shadow flat free bracket cmds stencils
  have ran := State.ran_empty (size := 1) (reps := k.toNat + 1) pend shadow
  generalize hu : s.ran emptyWords 1 (k.toNat + 1) = u at ran
  have me : u.me = s.me := by rw [ran]; exact State.ctx_setCtx_self ..
  have iss : u.iss = (s.begin emptyWords 1 (k.toNat + 1)).iss := by rw [ran]; rfl
  have cur : u.cur = s.cur := by rw [ran]; rfl
  have begun : sameOutside s u := by rw [ran]; exact sameOutside_setCtx s s.me
  have goesOn : u.blockDone = false := by
    rw [State.blockDone, iss, me, flat, List.any_nil, Bool.and_false]
    rfl
  have signed : u.badSignature = none := by simp [State.badSignature, goesOn]
  have complete : u.complete 0 = u.setCtx u.cur { u.me with
      arch := u.me.arch.advance u.iss u.nextCrc
      bracket := none
      bpDone := false } := by
    rw [State.complete_issued (by rw [iss]; rfl) (by rw [iss]; rfl) (by rw [iss]; rfl) (by rw [iss]; rfl),
      State.issued_plain (by rw [iss]; rfl), iss]
    rfl
  have issues : exec (.print 0 k) s = .next ((u.complete 0).orderPushes s.cur s.me.arch.streams) := by
    show Host.Outcome.next (s.issueBundle (s.plateWords (coreOf s.cur) 0) 1 (k.toNat + 1) 0) = _
    rw [State.plateWords_zero, ← hu]
    rw [← hu] at iss signed
    exact congrArg _ (State.issueBundle_issues free (State.waits_of_free cmds stencils) (by rw [iss]; rfl) signed)
  generalize ht : u.complete 0 = t at complete issues
  have advanced : t.me = { s.me with arch := s.me.arch.advance u.iss u.nextCrc, bracket := none, bpDone := false } := by
    rw [complete, ← me]
    exact State.ctx_setCtx_self ..
  have tcur : t.cur = s.cur := by rw [complete]; exact cur
  have completed : sameOutside s t := sameOutside_trans begun (by rw [complete]; exact sameOutside_setCtx ..)
  obtain ⟨pushed, tiss, un, f, o, tme⟩ := t.orderPushes_only s.me.arch.streams
  rw [tcur] at pushed tiss tme
  rw [advanced] at tme
  have verdict : t.iss.verdict = .ok := by rw [complete]; exact congrArg Issue.verdict iss
  have sequel := Arch.advance_plain s.me.arch u.nextCrc (i := (s.begin emptyWords 1 (k.toNat + 1)).iss) rfl rfl flat
  simp only [State.begin, Nat.add_lt_add_iff_right] at sequel
  refine ⟨_, issues, sameOutside_trans completed (tcur ▸ pushed), ?_, ?_⟩
  · rw [tiss, verdict]
  · rw [tme, iss]
    exact ⟨rfl, sequel.1, sequel.2, rfl, rfl, rfl, rfl, rfl, rfl⟩

/-! What a bundle writes to near store at its issue (R12, R206, R248). -/

section
variable {s : State} {e : Nat}

/-- R206: the bundle has issued, and its own proof is sealed if it held a near atomic outside a handler. -/
def State.issuedAtomic (s : State) (e : Nat) : State :=
  if s.iss.atomic && !((s.issued e).ctx s.cur).intrap then (s.issued e).sealLate s.cur else s.issued e

theorem State.complete_untrapped (noEret : s.iss.eret = false) (noTrap : s.iss.after = none) :
    (s.complete e).mem = (s.issuedAtomic e).mem ∧ (s.complete e).late = (s.issuedAtomic e).late := by
  unfold State.complete
  simp only [noEret, noTrap]
  cases s.iss.ends with
  | none => exact ⟨rfl, rfl⟩
  | some kind => exact ⟨rfl, rfl⟩
theorem State.issuedAtomic_mem : (s.issuedAtomic e).mem = s.mem := by
  unfold State.issuedAtomic
  split
  · exact s.issued_mem e
  · exact s.issued_mem e
/-- R206, R248: what the bundle stores directly waits behind what is late already, before what its seal releases. -/
theorem State.issuedAtomic_late (stores : s.iss.direct ≠ []) :
    ∃ l, (s.issuedAtomic e).late = s.late ++ (s.cur, .store s.iss.direct) :: l ∧ (s.iss.atomic = false → l = []) := by
  have issued : (s.issued e).late = s.late ++ [(s.cur, .store s.iss.direct)] := (s.issued_late e).trans (s.storeLate_late _ _ stores)
  unfold State.issuedAtomic
  split
  · next sealed =>
    refine ⟨((s.issued e).ctx s.cur).gated.map fun g => (s.cur, g.item), ?_, fun plain => ?_⟩
    · show (s.issued e).late ++ _ = _
      rw [issued, List.append_assoc]
      rfl
    · rw [plain] at sealed
      exact nomatch sealed
  · exact ⟨[], issued, fun _ => rfl⟩

end

theorem State.afterStep_mem (s : State) (g : Nat) : (s.afterStep g).mem = s.mem := by unfold State.afterStep; split <;> rfl
theorem State.afterStep_late (s : State) (g : Nat) : (s.afterStep g).late = s.late := by unfold State.afterStep; split <;> rfl
/-- R12: the first turn of a pair ends with its writes still late. -/
theorem State.endTurn_even {before after : State} {g : Nat} (even : before.turn % 2 = 0) :
    (before.endTurn after g).mem = after.mem ∧ (before.endTurn after g).late = after.late := by
  have notOdd : ¬before.turn % 2 = 1 := by omega
  unfold State.endTurn State.closeTurn
  dsimp only
  rw [if_neg fun h => notOdd h.1, if_neg notOdd]
  exact ⟨after.afterStep_mem g, after.afterStep_late g⟩

/-! The second turn of a pair. -/

theorem State.journal_turnLate (s : State) (e : JournalEntry) : (s.journal e).turn = s.turn ∧ (s.journal e).late = s.late := by
  obtain h | ⟨l, h⟩ := s.journal_cases e
  · rw [h]; exact ⟨rfl, rfl⟩
  · rw [h]; exact ⟨rfl, rfl⟩
theorem State.mergeCells_turnLate (s : State) (l : List (Nat × Byte)) :
    (s.mergeCells l).turn = s.turn ∧ (s.mergeCells l).late = s.late := by
  refine foldl_keeps (P := fun t : State => t.turn = s.turn ∧ t.late = s.late) _ (fun t g ht => ?_) _ _ ⟨rfl, rfl⟩
  rcases t.journalGranule_cases g with same | ⟨e, entry⟩
  · rwa [same]
  · rw [entry, (t.journal_turnLate e).1, (t.journal_turnLate e).2]
    exact ht

/-- R12: between the turns of a pair with something late, the step is the second turn. -/
theorem step_midPair {s : State} (late : s.late ≠ []) (odd : s.turn % 2 = 1) (turn : s.turn < 96)
    (idle : s.issues s.turnContext = false) : step s = .next ({ s with turn := s.turn + 1, busy := [] } : State).landLate := by
  have mid : s.midPair = true := by
    have waiting : s.late.isEmpty = false := by simpa using late
    simp [State.midPair, waiting, odd, turn]
  have takes : s.takeTurn = .next s.idleTurn := if_neg (Bool.eq_false_iff.1 idle)
  rw [step, if_pos mid, State.proceed, if_neg (Nat.not_le.2 turn), takes, State.idleTurn, State.closeTurn, if_pos odd]

theorem nearWritesLandAfterBothTurns : Claims.NearWritesLandAfterBothTurns := by
  unfold Claims.NearWritesLandAfterBothTurns
  refine ⟨fun s l g a => rfl, fun s e noTrap noEret stores => ?_, fun before after g even => State.endTurn_even even,
    fun s g a b late odd turn idle near => ?_⟩
  · obtain ⟨mem, lates⟩ := State.complete_untrapped (s := s) (e := e) noEret noTrap
    dsimp only
    rw [mem, lates]
    exact ⟨State.issuedAtomic_mem, State.issuedAtomic_late stores⟩
  · have lands : ({ s with turn := s.turn + 1, busy := [] } : State).landLate =
        ({ s with turn := s.turn + 1, busy := [], late := [] } : State).mergeCells [(nearKey (coreOf g) a, b)] := by
      simp only [State.landLate, late, List.foldl_cons, List.foldl_nil, State.releaseItem_store, List.map_cons, List.map_nil]
    obtain ⟨turns, lates⟩ := State.mergeCells_turnLate ({ s with turn := s.turn + 1, busy := [], late := [] } : State)
      [(nearKey (coreOf g) a, b)]
    refine ⟨_, step_midPair (by simp [late]) odd turn idle, ?_⟩
    rw [lands]
    exact ⟨lates, turns, State.read_mergeCells_one _ b near⟩

/-- Settles O54: a bundle that neither waits, stalls nor raises is its words run on the landed context and then completed; what
it stores at issue is late until its core's second turn closes. -/
theorem parcelRunsItsBundle : Obligations.ParcelRunsItsBundle := by
  unfold Obligations.ParcelRunsItsBundle
  exact ⟨printOfTheEmptyBundle, printRunsItsPlate, fullBundleRunsItsWords, nearWritesLandAfterBothTurns⟩

end Sys2Proof.Machine
end

section
/-!
PROOFS. Encoding and decoding are inverse on the words of the slot instructions and on the parcels (R62 to R71).
-/

namespace Sys2Proof.Laws.RoundTrip

open Encoding

/-! Decoding after encoding, instruction by instruction. -/

/-- R62 to R71: every instruction makes the round trip; one with neither word nor parcel is a step of the device. -/
theorem statement (i : Instr) : Statement i := by
  cases i with
  | nop => exact nop | illegalWord => exact illegalWord .. | print => exact print ..
  | fullBundleHeader => exact fullBundleHeader .. | add => exact add .. | sub => exact sub .. | and => exact and ..
  | or => exact or .. | xor => exact xor .. | sll => exact sll .. | srl => exact srl .. | sra => exact sra ..
  | slt => exact slt .. | sltu => exact sltu .. | min => exact min .. | max => exact max .. | minu => exact minu ..
  | maxu => exact maxu .. | addi => exact addi .. | andi => exact andi .. | ori => exact ori .. | xori => exact xori ..
  | slti => exact slti .. | slli => exact slli .. | srli => exact srli .. | srai => exact srai .. | li => exact li ..
  | lih => exact lih .. | lix => exact lix .. | mul => exact mul .. | mulh => exact mulh .. | mulhu => exact mulhu ..
  | div => exact div .. | divu => exact divu .. | rem => exact rem .. | remu => exact remu .. | clz => exact clz ..
  | ctz => exact ctz .. | popc => exact popc .. | brev => exact brev .. | bext => exact bext .. | bins => exact bins ..
  | lea => exact lea .. | cmov => exact cmov .. | fadd => exact fadd .. | fsub => exact fsub .. | fmul => exact fmul ..
  | fmin => exact fmin .. | fmax => exact fmax .. | feq => exact feq .. | flt => exact flt .. | fle => exact fle ..
  | fcvti => exact fcvti .. | fcvtf => exact fcvtf .. | ffma => exact ffma .. | ldb => exact ldb .. | ldbu => exact ldbu ..
  | ldh => exact ldh .. | ldhu => exact ldhu .. | ldw => exact ldw .. | ldwu => exact ldwu .. | ldd => exact ldd ..
  | stb => exact stb .. | sth => exact sth .. | stw => exact stw .. | std => exact std .. | vld => exact vld ..
  | vst => exact vst .. | vlds => exact vlds .. | vsts => exact vsts .. | vgath => exact vgath .. | vscat => exact vscat ..
  | naadd => exact naadd .. | nacas => exact nacas .. | naxch => exact naxch .. | spill => exact spill ..
  | fill => exact fill .. | vspill => exact vspill .. | vfill => exact vfill .. | vadd => exact vadd ..
  | vsub => exact vsub .. | vmul => exact vmul .. | vmulh => exact vmulh .. | vmin => exact vmin .. | vmax => exact vmax ..
  | vabs => exact vabs .. | vadds => exact vadds .. | vand => exact vand .. | vor => exact vor .. | vxor => exact vxor ..
  | vandn => exact vandn .. | vshl => exact vshl .. | vshr => exact vshr .. | vsra => exact vsra .. | vrotl => exact vrotl ..
  | vceq => exact vceq .. | vcne => exact vcne .. | vclt => exact vclt .. | vcle => exact vcle .. | vcltu => exact vcltu ..
  | vcleu => exact vcleu .. | vaddx => exact vaddx .. | vsubx => exact vsubx .. | vmulx => exact vmulx ..
  | vshlx => exact vshlx .. | vshrx => exact vshrx .. | vsrax => exact vsrax .. | vminx => exact vminx ..
  | vmaxx => exact vmaxx .. | vmov => exact vmov .. | vbcast => exact vbcast .. | vsel => exact vsel ..
  | vextr => exact vextr .. | vins => exact vins .. | viota => exact viota .. | vpopc => exact vpopc ..
  | vclz => exact vclz .. | vperm => exact vperm .. | vrot => exact vrot .. | vrev => exact vrev .. | vfadd => exact vfadd ..
  | vfsub => exact vfsub .. | vfmul => exact vfmul .. | vfmin => exact vfmin .. | vfmax => exact vfmax ..
  | vfabs => exact vfabs .. | vfneg => exact vfneg .. | vfcps => exact vfcps .. | vfma => exact vfma ..
  | vfms => exact vfms .. | vfeq => exact vfeq .. | vfne => exact vfne .. | vflt => exact vflt .. | vfle => exact vfle ..
  | vfun => exact vfun .. | vrsum => exact vrsum .. | vrmax => exact vrmax .. | vrmin => exact vrmin ..
  | vfrsum => exact vfrsum .. | vfrmax => exact vfrmax .. | vfrmin => exact vfrmin .. | vdot => exact vdot ..
  | vdota => exact vdota .. | vrcp => exact vrcp .. | vrsq => exact vrsq .. | vsqrt => exact vsqrt ..
  | vexp2 => exact vexp2 .. | vlog2 => exact vlog2 .. | vtanh => exact vtanh .. | vsinpi => exact vsinpi ..
  | verf => exact verf .. | vbnet => exact vbnet .. | pand => exact pand .. | por => exact por .. | pxor => exact pxor ..
  | pandn => exact pandn .. | pnot => exact pnot .. | pcnt => exact pcnt .. | pfirst => exact pfirst ..
  | planes => exact planes .. | xcvt => exact xcvt .. | xexp => exact xexp .. | xpack => exact xpack ..
  | xtrn => exact xtrn .. | xscl => exact xscl .. | xqnt => exact xqnt .. | beq => exact beq .. | bne => exact bne ..
  | blt => exact blt .. | bge => exact bge .. | bltu => exact bltu .. | bgeu => exact bgeu .. | jmp => exact jmp ..
  | jmpr => exact jmpr .. | loop => exact loop .. | setfmt => exact setfmt .. | proof => exact proof ..
  | vigil => exact vigil .. | waita => exact waita .. | fence => exact fence .. | spawn => exact spawn ..
  | susp => exact susp .. | done => exact done | trig => exact trig | trap => exact trap .. | eret => exact eret
  | crd => exact crd .. | cwr => exact cwr .. | bkpt => exact bkpt .. | engrave => exact engrave .. | bnset => exact bnset ..
  | ewr => exact ewr .. | ewrErhtTail => exact ewrErhtTail .. | erd => exact erd .. | mma => exact mma ..
  | mzero => exact mzero .. | mret => exact mret .. | mgang => exact mgang .. | flu => exact flu .. | fchol => exact fchol ..
  | fqr => exact fqr .. | ftrsm => exact ftrsm .. | cpy => exact cpy .. | coll => exact coll .. | gld => exact gld ..
  | gst => exact gst .. | gaadd => exact gaadd .. | gacas => exact gacas .. | gaxch => exact gaxch ..
  | gamax => exact gamax .. | gamin => exact gamin .. | wstrm => exact wstrm .. | strb => exact strb ..
  | stru => exact stru .. | lref => exact lref .. | lqry => exact lqry .. | phint => exact phint .. | pmig => exact pmig ..
  | _ => exact of_step rfl rfl

/-- Settles O11 (R62 to R71), instruction by instruction. -/
theorem decodeOfEncode : Obligations.DecodeOfEncode := by
  unfold Obligations.DecodeOfEncode
  exact statement

end Sys2Proof.Laws.RoundTrip
end

section
/-!
PROOFS. The fields of a slot word read back into the word (R62): a word is the encoding of what its fields hold.
-/

namespace Sys2Proof.Laws.RoundTrip

/-! Fields side by side. -/

/-- R62: fields that stand side by side in a word are one field of it. -/
theorem append_eq_extractLsb' {m n k : Nat} (x : BitVec m) (y : BitVec n) (w : BitVec k) (lo : Nat) :
    x ++ y = w.extractLsb' lo (m + n) ↔ x = w.extractLsb' (lo + n) m ∧ y = w.extractLsb' lo n := by
  have low : (w.extractLsb' lo (m + n)).extractLsb' 0 n = w.extractLsb' lo n := BitVec.eq_of_getLsbD_eq fun i hi => by
    simp [hi]; omega
  have high : (w.extractLsb' lo (m + n)).extractLsb' n m = w.extractLsb' (lo + n) m := BitVec.eq_of_getLsbD_eq fun i hi => by
    have : n + i < m + n := by omega
    simp [hi, this, Nat.add_assoc]
  constructor
  · intro h
    rw [← low, ← high, ← h]
    exact ⟨BitVec.extractLsb'_append_eq_left.symm, BitVec.extractLsb'_append_eq_right.symm⟩
  · rintro ⟨rfl, rfl⟩
    refine BitVec.eq_of_getLsbD_eq fun i hi => ?_
    rw [BitVec.getLsbD_append]
    split
    · next h => simp [h]; omega
    · next h =>
      have inside : i - n < m := by omega
      have at_ : lo + n + (i - n) = lo + i := by omega
      simp [inside, at_, hi]

/-- R62: the same of a slot word; neither width is looked at when it is used as a rule. -/
theorem append_eq_bits {m n : Nat} (x : BitVec m) (y : BitVec n) (w : BitVec 32) (lo : Nat) :
    @Eq (no_index (BitVec (m + n))) (no_index (x ++ y)) (bits w lo (no_index (m + n)))
      ↔ x = bits w (lo + n) m ∧ y = bits w lo n := append_eq_extractLsb' x y w lo

/-- R62: a predicate number in a field of five bits, the upper two zero. -/
theorem zeroExtend_eq_bits (x : BitVec 3) (w : BitVec 32) (lo : Nat) :
    x.zeroExtend 5 = bits w lo 5 ↔ (0 : BitVec 2) = bits w (lo + 3) 2 ∧ x = bits w lo 3 := by
  have split : x.zeroExtend 5 = (0 : BitVec 2) ++ x := by revert x; decide
  rw [split]
  exact append_eq_bits ..

theorem ofBool_eq_bits (b : Bool) (w : BitVec 32) (lo : Nat) : BitVec.ofBool b = bits w lo 1 ↔ b = flag w lo := by
  have one : bits w lo 1 = BitVec.ofBool (flag w lo) := BitVec.eq_of_getLsbD_eq fun i hi => by
    obtain rfl : i = 0 := by omega
    simp [bits, flag]
  rw [one]
  cases b <;> cases flag w lo <;> decide

theorem ofNat_eq_bits (n k lo : Nat) (w : BitVec 32) : BitVec.ofNat n k = bits w lo n ↔ k % 2 ^ n = (bits w lo n).toNat := by
  rw [← BitVec.toNat_inj, BitVec.toNat_ofNat]

theorem toNat_bits_one (w : BitVec 32) (lo : Nat) : (bits w lo 1).toNat = (flag w lo).toNat := by
  rw [← (ofBool_eq_bits (flag w lo) w lo).2 rfl, BitVec.toNat_ofBool]

/-- R62: a function value whose upper seven bits are zero is its lower three. -/
theorem toNat_fn_of_low {w : BitVec 32} (high : bits w 3 7 = (0 : BitVec 7)) : (bits w 0 10).toNat = (bits w 0 3).toNat := by
  have joined : (0 : BitVec 7) ++ bits w 0 3 = bits w 0 10 := (append_eq_bits _ _ w 0).2 ⟨high.symm, rfl⟩
  rw [← joined, BitVec.toNat_append]
  simp

/-- R143: the zeros of a STRB, of which the decoder looks at bit 24 apart. -/
theorem toNat_strb_zeros {w : BitVec 32} (low : bits w 19 5 = (0 : BitVec 5)) (top : flag w 24 = false) :
    (bits w 19 6).toNat = 0 := by
  have joined : (0 : BitVec 1) ++ (0 : BitVec 5) = bits w 19 6 :=
    (append_eq_bits _ _ w 19).2 ⟨((ofBool_eq_bits false w 24).2 top.symm), low.symm⟩
  rw [← joined]
  decide

/-- R71: a word without operands. -/
theorem bits_operands_eq_zero {w : BitVec 32} :
    bits w 0 25 = (0 : BitVec 25) ↔ bits w 20 5 = (0 : BitVec 5) ∧ bits w 15 5 = (0 : BitVec 5) ∧ bits w 0 15 = (0 : BitVec 15) := by
  have split : (0 : BitVec 25) = (0 : BitVec 5) ++ (0 : BitVec 5) ++ (0 : BitVec 15) := by decide
  rw [eq_comm, split]
  refine (append_eq_bits _ _ w 0).trans ?_
  rw [append_eq_bits, and_assoc]
  exact and_congr eq_comm (and_congr eq_comm eq_comm)

/-- R62: a word is its bits from 0 on. -/
theorem eq_word_iff (x w : BitVec 32) : x = w ↔ x = bits w 0 32 := by
  rw [bits, BitVec.extractLsb'_eq_self]

/-! The formats (R62). -/

section
variable {op : BitVec 7} {d a b : BitVec 5} {w : BitVec 32}

theorem encA_eq_iff {fn} : encA op d a b fn = w
    ↔ op = bits w 25 7 ∧ d = fD w ∧ a = fA w ∧ b = fB w ∧ fn = fFn w := by
  rw [eq_word_iff]
  show op ++ d ++ a ++ b ++ fn = bits w 0 (7 + 5 + 5 + 5 + 10) ↔ _
  simp only [append_eq_bits, and_assoc]
  rfl
theorem encB_eq_iff {imm} : encB op d a imm = w ↔ op = bits w 25 7 ∧ d = fD w ∧ a = fA w ∧ imm = fImm15 w := by
  rw [eq_word_iff]
  show op ++ d ++ a ++ imm = bits w 0 (7 + 5 + 5 + 15) ↔ _
  simp only [append_eq_bits, and_assoc]
  rfl
theorem encC_eq_iff {imm} : encC op d imm = w ↔ op = bits w 25 7 ∧ d = fD w ∧ imm = fImm20 w := by
  rw [eq_word_iff]
  show op ++ d ++ imm = bits w 0 (7 + 5 + 20) ↔ _
  simp only [append_eq_bits, and_assoc]
  rfl
theorem encV_eq_iff {pg ty zi zo fn} : encV op d a b pg ty zi zo fn = w ↔ op = bits w 25 7 ∧ d = fD w ∧ a = fA w ∧ b = fB w
    ∧ pg = fPg w ∧ ty = bits w 5 2 ∧ zi = flag w 4 ∧ zo = flag w 3 ∧ fn = bits w 0 3 := by
  rw [eq_word_iff]
  show op ++ d ++ a ++ b ++ pg ++ ty ++ BitVec.ofBool zi ++ BitVec.ofBool zo ++ fn
    = bits w 0 (7 + 5 + 5 + 5 + 3 + 2 + 1 + 1 + 3) ↔ _
  simp only [append_eq_bits, ofBool_eq_bits, and_assoc]
  rfl
theorem encM_eq_iff {pg off} : encM op d a pg off = w
    ↔ op = bits w 25 7 ∧ d = fD w ∧ a = fA w ∧ pg = bits w 12 3 ∧ off = bits w 0 12 := by
  rw [eq_word_iff]
  show op ++ d ++ a ++ pg ++ off = bits w 0 (7 + 5 + 5 + 3 + 12) ↔ _
  simp only [append_eq_bits, and_assoc]
  rfl
theorem encE_eq_iff {eop} : encE op eop a b = w
    ↔ op = bits w 25 7 ∧ eop = bits w 15 10 ∧ a = fEa w ∧ b = fEb w ∧ (0 : BitVec 5) = bits w 0 5 := by
  rw [eq_word_iff]
  show op ++ eop ++ a ++ b ++ (0 : BitVec 5) = bits w 0 (7 + 10 + 5 + 5 + 5) ↔ _
  simp only [append_eq_bits, and_assoc]
  rfl

end

/-! The codes of the coded fields (R63 to R70). -/

theorem ew_ofCode {c : BitVec 2} {e : EW} : EW.ofCode c = some e ↔ e.code = c := by revert c; cases e <;> decide
theorem ew_ofMemCode {c : BitVec 2} {e : EW} : EW.ofMemCode c = some e ↔ e.memCode = c := by revert c; cases e <;> decide
theorem scope_ofCode {c : BitVec 3} {e : Scope} : Scope.ofCode c = some e ↔ e.code = c := by revert c; cases e <;> decide
theorem waitCond_ofCode {c : BitVec 3} {e : WaitCond} : WaitCond.ofCode c = some e ↔ e.code = c := by
  revert c; cases e <;> decide
theorem affinity_ofCode {c : BitVec 2} {e : Affinity} : Affinity.ofCode c = some e ↔ e.code = c := by
  revert c; cases e <;> decide
theorem xfmt_ofCode {c : BitVec 4} {e : XFmt} : XFmt.ofCode c = some e ↔ e.code = c := by revert c; cases e <;> decide
theorem xrm_ofCode {c : BitVec 3} {e : XRm} : XRm.ofCode c = some e ↔ e.code = c := by
  revert c
  rcases e with m | _
  · cases m <;> decide
  · decide
theorem xkind_ofCode {c : BitVec 4} {e : XKind} : XKind.ofCode c = some e ↔ e.code = c := by revert c; cases e <;> decide
theorem xshape_ofCode {c : BitVec 2} {e : XShape} : XShape.ofCode c = some e ↔ e.code = c := by revert c; cases e <;> decide
theorem mlayout_ofCode {c : BitVec 2} {e : MLayout} : MLayout.ofCode c = some e ↔ e.code = c := by
  revert c; cases e <;> decide
theorem hintAccess_ofCode {c : BitVec 4} {e : HintAccess} : HintAccess.ofCode c = some e ↔ e.code = c := by
  revert c; cases e <;> decide
theorem hintTier_ofCode {c : BitVec 4} {e : HintTier} : HintTier.ofCode c = some e ↔ e.code = c := by
  revert c; cases e <;> decide
theorem fenceOrder_code (c : BitVec 2) : (FenceOrder.ofCode c).code = c := by revert c; decide
theorem dOrder_code (c : BitVec 2) : (DOrder.ofCode c).code = c := by revert c; decide

end Sys2Proof.Laws.RoundTrip
end

section
/-!
PROOFS. A word that decodes is the word of what it decodes to (R62, R71), and so is a parcel (R31).
-/

namespace Sys2Proof.Laws.RoundTrip

/-- The word w is that of whatever has been decoded. -/
def WordOf (w : BitVec 32) (o : Option Instr) : Prop := ∀ i, o = some i → encodeWord i = w

theorem wordOf_none (w : BitVec 32) : WordOf w none := fun _ h => nomatch h
theorem wordOf_some (w : BitVec 32) (i : Instr) : WordOf w (some i) ↔ encodeWord i = w := by simp [WordOf]
theorem wordOf_need (w : BitVec 32) (c : Prop) [Decidable c] (i : Instr) : WordOf w (need c i) ↔ (c → encodeWord i = w) := by
  by_cases h : c <;> simp [WordOf, need, h]
theorem wordOf_bind {α : Type} (w : BitVec 32) (o : Option α) (k : α → Option Instr) :
    WordOf w (o.bind k) ↔ ∀ x, o = some x → WordOf w (k x) := by
  cases o <;> simp [WordOf]
theorem wordOf_vFlt (w : BitVec 32) (k : EW → Option Instr) :
    WordOf w (vFlt w k) ↔ ∀ e : EW, e.code = bits w 5 2 → WordOf w (k e) := by
  rw [vFlt, wordOf_bind]; simp only [ew_ofCode]
theorem wordOf_vInt (w : BitVec 32) (k : EW → Option Instr) :
    WordOf w (vInt w k) ↔ (flag w 3 = false → flag w 4 = false → ∀ e : EW, e.code = bits w 5 2 → WordOf w (k e)) := by
  by_cases h3 : flag w 3 = true <;> by_cases h4 : flag w 4 = true <;>
    simp [vInt, h3, h4, wordOf_none, wordOf_bind, ew_ofCode]

/-- R62: every arm of the decoder takes each field of the word that the encoder of its instruction writes, and needs the others to
be zero. -/
theorem wordOf_decodeRaw (w : BitVec 32) : WordOf w (decodeRaw w) := by
  unfold decodeRaw
  split
  · exact wordOf_none w
  · next fl =>
    have low : 0x70 ≤ (bits w 25 7).toNat → bits w 0 5 = (0 : BitVec 5) := by
      intro engine
      simpa [flOk, Nat.not_lt.2 engine] using fl
    split <;> simp only [wordOf_none, decOp01, decOp02, decOp03, decOp04, decOp05, decOp06, decOp07, decOp08, decOp09,
      decOp0A, decOp0B, decOp0C, decOp0D, decOp0E, decOp0F, decOp10, decOp11, decOp12, decOp13, decOp14, decOp15,
      decOp16, decOp17, decOp18, decOp19, decOp1A, decOp1B, decOp1C, decOp1D, decOp1E, decOp1F, decOp20, decOp21,
      decOp28, decOp29, decOp2A, decOp2B, decOp2C, decOp2D, decOp30, decOp31, decOp32, decOp33, decOp34, decOp35,
      decOp36, decOp38, decOp40, decOp41, decOp42, decOp43, decOp44, decOp50, decOp51, decOp52, decOp53, decOp54,
      decOp55, decOp56, decOp57, decOp58, decOp59, decOp5A, decOp5B, decOp5C, decOp5D, decOp5E, decOp5F, decOp60,
      decOp61, decOp62, decOp63, decOp64, decOp65, decOp66, decOp67, decOp68, decOp70, decOp71, decOp72, decOp73,
      decOp74, decOp75, decOp76, decOp77, decOp78, decOp79, decOp7A, decOp7B, decOp7C, decOp7D, decOp7E, decOp7F]
    all_goals
      repeat' split
      all_goals
        simp only [wordOf_none, wordOf_some, wordOf_need, wordOf_bind, wordOf_vInt, wordOf_vFlt, ew_ofMemCode, scope_ofCode,
          waitCond_ofCode, affinity_ofCode, xfmt_ofCode, xrm_ofCode, xkind_ofCode, xshape_ofCode, mlayout_ofCode,
          hintAccess_ofCode, hintTier_ofCode, bits_operands_eq_zero, and_imp]
      all_goals
        intros
        delta encodeWord
        simp only [encA_eq_iff, encB_eq_iff, encC_eq_iff, encV_eq_iff, encM_eq_iff, encE_eq_iff, fD, fA, fB, fFn, fImm15,
          fImm20, fPg, fEa, fEb, append_eq_bits, ofBool_eq_bits, zeroExtend_eq_bits, ne_eq, not_not, Bool.not_eq_true] at *
        simp [ofNat_eq_bits, toNat_bits_one, toNat_fn_of_low, toNat_strb_zeros, fenceOrder_code, dOrder_code, *]

/-- R62, R71: the encoder gives back the word. -/
theorem encode_of_decodeWord {w : BitVec 32} {i : Instr} (h : decodeWord w = some i) : i.wf = true ∧ encodeWord i = w := by
  unfold decodeWord at h
  split at h
  next zero =>
    obtain rfl : Instr.nop = i := Option.some.inj h
    exact ⟨rfl, zero.symm⟩
  next =>
    obtain ⟨j, raw, hj⟩ := Option.bind_eq_some_iff.1 h
    split at hj
    next wf =>
      obtain rfl : j = i := Option.some.inj hj
      exact ⟨wf, wordOf_decodeRaw w j raw⟩
    next => exact nomatch hj

/-- R31: the encoder gives back the parcel. -/
theorem encode_of_decodeParcel {p : BitVec 16} {i : Instr} (h : decodeParcel p = some i) : encodeParcel i = some p := by
  have whole : p = p.extractLsb' 0 16 := BitVec.extractLsb'_eq_self.symm
  have bit (j : Nat) : BitVec.ofBool (p.getLsbD j) = p.extractLsb' j 1 := BitVec.eq_of_getLsbD_eq fun i hi => by
    obtain rfl : i = 0 := by omega
    simp
  unfold decodeParcel at h
  split at h
  next plate =>
    obtain rfl := Option.some.inj h
    refine congrArg some (.trans ?_ whole.symm)
    refine (append_eq_extractLsb' (m := 10) _ _ p 0).2 ⟨(append_eq_extractLsb' (m := 1) _ _ p 6).2 ⟨?_, rfl⟩, rfl⟩
    rw [← plate]
    exact bit 15
  next notPlate =>
    split at h
    next header =>
      obtain ⟨h14, h0⟩ := header
      have h15 : p.getLsbD 15 = true := by simpa using notPlate
      obtain rfl := Option.some.inj h
      refine congrArg some (.trans ?_ whole.symm)
      refine (append_eq_extractLsb' (m := 11) _ _ p 0).2 ⟨(append_eq_extractLsb' (m := 2) _ _ p 5).2 ⟨?_, rfl⟩, h0.symm⟩
      refine (append_eq_extractLsb' (m := 1) (BitVec.ofBool true) (BitVec.ofBool true) p 14).2 ⟨?_, ?_⟩
      · rw [← h15]
        exact bit 15
      · rw [← h14]
        exact bit 14
    next => exact nomatch h

/-- Settles O12 (R62, R71), by the majors of the decoder. -/
theorem encodeOfDecode : Obligations.EncodeOfDecode := by
  unfold Obligations.EncodeOfDecode
  exact ⟨fun _ _ h => encode_of_decodeWord h, fun _ _ h => encode_of_decodeParcel h⟩

end Sys2Proof.Laws.RoundTrip
end

section
/-!
PROOFS. Scalar loads and stores (R66, R137, R139, R239, R317): LoadResults and StoreResults settled.
-/

namespace Sys2Proof.Machine

open Sys2Proof.Claims (Loads Stores nearEa nearValue stored storeRoom storeEntries lowBytes pending later meets)

/-! Addresses (R66). -/

theorem nearAddr_toNat (base : Word) (off : BitVec 12) (z : Nat) :
    nearAddr base off z = ((base.toNat + off.toInt * z) % 2 ^ 32).toNat := by
  have whole : (base.truncate 32 + off.signExtend 32 * BitVec.ofNat 32 z : BitVec 32)
      = BitVec.ofInt 32 (base.toNat + off.toInt * z) := by
    rw [BitVec.ofInt_add, BitVec.ofInt_mul, BitVec.signExtend, BitVec.ofInt_natCast, BitVec.ofInt_natCast,
      ← truncate_eq_ofNat]
  rw [nearAddr, whole, BitVec.toNat_ofInt]
  rfl

theorem State.ea_eq (s : State) (base : BitVec 5) (off : BitVec 12) (z : Nat) : s.ea base off z = nearEa s base off z z := by
  rw [State.ea, alignDown, nearAddr_toNat, nearEa]

/-! Loads (R317). -/

theorem inM_ok {s : State} (slot : s.slot = 3) (k : State → State) : inM s k = .next (k s) :=
  inSlot_ok (by simp [slot]) k

/-- R317: the extended value of a load. -/
theorem extended_eq (sgn : Bool) (b v : Nat) (hb : 0 < b) :
    (if sgn then BitVec.ofInt 64 (signed b v) else BitVec.ofNat 64 v)
      = if sgn = true ∧ 2 ^ (b - 1) ≤ v then BitVec.ofInt 64 ((v : Int) - 2 ^ b) else BitVec.ofNat 64 v := by
  have half : 2 ^ b = 2 * 2 ^ (b - 1) := by
    rw [← Nat.pow_succ', Nat.succ_eq_add_one, Nat.sub_add_cancel hb]
  cases sgn with
  | false => simp
  | true =>
    by_cases big : 2 ^ (b - 1) ≤ v
    · rw [if_pos rfl, if_pos ⟨rfl, big⟩, signed, if_neg (by omega)]
    · rw [if_pos rfl, if_neg (fun h => big h.2), signed, if_pos (by omega), BitVec.ofInt_natCast]

theorem State.landAt_eq (s : State) (l : Nat) (file : RegFile) (num : Nat) (mask : PWord) (val : VWord) (bad : Option Word) :
    s.landAt l file num mask val bad = pending s (later s l file num mask val bad) := rfl

/-- R137: the flags of an access leave the tick, so what issues after them lands when it would. -/
theorem State.later_rangeFlags (s : State) (m : Nat) (as : List Nat) :
    later (s.rangeFlags m as) = later s := by
  unfold State.rangeFlags
  split
  · rfl
  · funext l file num mask val bad
    unfold later
    rw [State.spvAt, State.me_modArch]
    rfl

theorem State.load_eq (s : State) (t base : BitVec 5) (off : BitVec 12) {z : Nat} (hz : 0 < z) (sgn : Bool) :
    let a := nearEa s base off z z
    let v := nearValue s a z
    let x : Word := if sgn ∧ 2 ^ (8 * z - 1) ≤ v then BitVec.ofInt 64 ((v : Int) - 2 ^ (8 * z)) else BitVec.ofNat 64 v
    s.load t base off z sgn = pending (s.rangeFlags 3 (addrsFrom a z))
      (later s 3 .scalar t.toNat fullScalar (x.zeroExtend 2048) (meets s (addrsFrom a z))) := by
  intro a v x
  rw [← s.later_rangeFlags 3 (addrsFrom a z), ← State.landAt_eq, State.load, s.ea_eq]
  rw [extended_eq sgn (8 * z) _ (by omega)]
  rfl

theorem loads_of_exec {mk : BitVec 5 → BitVec 5 → BitVec 12 → Instr} {z : Nat} {sgn : Bool} (hz : 0 < z)
    (runs : ∀ t base off s, exec (mk t base off) s = inM s fun s => s.load t base off z sgn) : Loads mk z sgn := by
  intro t base off s slot
  rw [runs, inM_ok slot, s.load_eq t base off hz sgn]

theorem loadForms : Claims.LoadForms := by
  unfold Claims.LoadForms
  exact ⟨loads_of_exec (by decide) fun _ _ _ _ => rfl, loads_of_exec (by decide) fun _ _ _ _ => rfl,
    loads_of_exec (by decide) fun _ _ _ _ => rfl, loads_of_exec (by decide) fun _ _ _ _ => rfl,
    loads_of_exec (by decide) fun _ _ _ _ => rfl, loads_of_exec (by decide) fun _ _ _ _ => rfl,
    loads_of_exec (by decide) fun _ _ _ _ => rfl⟩

theorem Ctx.inWindow_iff (c : Ctx) (a : Nat) : c.inWindow a = true ↔ c.splo.toNat ≤ a ∧ a ≤ c.sphi.toNat := by
  simp [Ctx.inWindow]

theorem outOfWindowReadsZero : Claims.OutOfWindowReadsZero := by
  unfold Claims.OutOfWindowReadsZero
  exact fun s g a out => if_neg fun h => out ((Ctx.inWindow_iff _ _).1 h)

/-- Settles O39 (R66, R137, R317): each load is one read of the window, extended. -/
theorem loadResults : Obligations.LoadResults := by
  unfold Obligations.LoadResults
  exact ⟨loadForms, outOfWindowReadsZero⟩

/-! Stores (R239, R317). -/

theorem leBytes_zipIdx (a z v : Nat) (f : Nat) :
    ((leBytes z v).zipIdx f).map (fun p => (a + p.2, p.1)) = (List.range z).map fun i => (a + (f + i), BitVec.ofNat 8 (v / 256 ^ i)) := by
  induction z generalizing v f with
  | zero => rfl
  | succ z ih =>
    rw [leBytes, List.zipIdx_cons, List.map_cons, ih, List.range_succ_eq_map, List.map_cons, List.map_map]
    simp [Function.comp_def, Nat.div_div_eq_div_mul, Nat.pow_succ', Nat.add_assoc, Nat.add_comm 1]

theorem GatedItem.isStore_filter (e : Gated) : (e.item.isStore == true && e.item.isCommand == false) = e.item.isStore := by
  cases e.item <;> rfl

theorem State.gateRoom_store {s : State} (room : storeEntries s < 128) {item : GatedItem} (store : item.isStore = true)
    (plain : item.isCommand = false) : s.gateRoom item := by
  refine ⟨fun _ => ?_, fun h => nomatch plain.symm.trans h⟩
  simp only [store, plain, GatedItem.isStore_filter]
  exact room

/-- R137, R239, R248: a store where there is room for it. -/
theorem State.storeNear_room {s : State} (room : storeRoom s) (cells : List (Nat × Byte)) :
    s.storeNear cells = stored (s.rangeFlags 1 (cells.map Prod.fst)) cells := by
  have own := (s.rangeFlags_only 1 (cells.map Prod.fst)).own
  rw [State.storeNear]
  generalize s.rangeFlags 1 (cells.map Prod.fst) = u at own ⊢
  have intrap : s.me.intrap = u.me.intrap := by rw [own]
  have gated : u.me.gated = s.me.gated := by rw [own]
  have window (a : Nat) : s.me.inWindow a = decide (u.me.splo.toNat ≤ a ∧ a ≤ u.me.sphi.toNat) := by
    rw [own, Bool.decide_and]
    rfl
  simp only [window, intrap]
  by_cases trap : u.me.intrap = true
  · rw [if_pos trap, stored, if_pos trap]
    rfl
  · have few : storeEntries u < 128 := by
      rw [storeEntries, gated]
      exact room.resolve_left fun h => trap (intrap ▸ h)
    rw [if_neg trap, stored, if_neg trap, State.gate_room (State.gateRoom_store few rfl rfl) (Bool.eq_false_iff.2 trap)]
    rfl

theorem stores_of_exec {mk : BitVec 5 → BitVec 5 → BitVec 12 → Instr} {z : Nat}
    (runs : ∀ t base off s, exec (mk t base off) s = inM s fun s => s.storeZ t base off z) : Stores mk z := by
  intro t base off s slot room cells
  have bytes : ((leBytes z (s.rs t).toNat).zipIdx.map fun p => (nearEa s base off z z + p.2, p.1)) = cells := by
    rw [leBytes_zipIdx]
    simp [cells, lowBytes]
  rw [runs, inM_ok slot, State.storeZ, s.ea_eq, bytes, State.storeNear_room room]

theorem storeForms : Claims.StoreForms := by
  unfold Claims.StoreForms
  exact ⟨stores_of_exec fun _ _ _ _ => rfl, stores_of_exec fun _ _ _ _ => rfl, stores_of_exec fun _ _ _ _ => rfl,
    stores_of_exec fun _ _ _ _ => rfl⟩

/-! Forwarding (R43, R139). -/

theorem gatedByte_append (gs : List Gated) (e : Gated) (bs : List (Nat × Byte)) (now a : Nat) (store : e.item = .store bs)
    (past : e.tick < now) :
    gatedByte (gs ++ [e]) now a = ((bs.find? fun p => p.1 == a).map Prod.snd).or (gatedByte gs now a) := by
  rw [gatedByte, List.foldl_append, List.foldl_cons, List.foldl_nil, store]
  dsimp only
  rw [if_pos past, gatedByte]
  cases bs.find? fun p => p.1 == a <;> rfl

/-- Of cells at different addresses, the one at an address is what a search for it finds. -/
theorem find?_of_mem_nodup {bs : List (Nat × Byte)} (once : (bs.map Prod.fst).Nodup) {a : Nat} {b : Byte} (h : (a, b) ∈ bs) :
    bs.find? (fun p => p.1 == a) = some (a, b) := by
  induction bs with
  | nil => exact nomatch h
  | cons p t ih =>
    obtain ⟨notIn, once⟩ := List.nodup_cons.1 once
    rcases List.mem_cons.1 h with rfl | h
    · simp
    · have other : p.1 ≠ a := fun e => notIn (e ▸ List.mem_map_of_mem (f := Prod.fst) h)
      rw [List.find?_cons_of_neg (by simpa using other), ih once h]

theorem storeForwarding : Claims.StoreForwarding := by
  unfold Claims.StoreForwarding
  intro s cells a free once t u
  let bytes := cells.filter fun p => decide (s.me.splo.toNat ≤ p.1 ∧ p.1 ≤ s.me.sphi.toNat)
  let entry : Gated := ⟨s.me.serial, s.me.arch.tick, .store bytes⟩
  have kept : stored s cells = s.setCtx s.cur { s.me with gated := s.me.gated ++ [entry] } := if_neg (by simp [free])
  have gated : (t.ctx s.cur).gated = s.me.gated ++ [entry] := by
    rw [show t = (stored s cells).modArch s.cur _ from rfl, State.ctx_modArch_self, kept, State.ctx_setCtx_self]
  have tick : (t.ctx s.cur).arch.tick = s.me.arch.tick + 1 := by
    rw [show t = (stored s cells).modArch s.cur _ from rfl, State.ctx_modArch_self, kept, State.ctx_setCtx_self]
  have window : (t.ctx s.cur).inWindow a = s.me.inWindow a := by
    rw [show t = (stored s cells).modArch s.cur _ from rfl, State.ctx_modArch_self, kept, State.ctx_setCtx_self]
    rfl
  have mem : t.mem = s.mem := by
    rw [show t = (stored s cells).modArch s.cur _ from rfl, State.modArch_mem, kept, State.setCtx_mem]
  have reads : t.nearByte s.cur a = if s.me.inWindow a = true then
      (((bytes.find? fun p => p.1 == a).map Prod.snd).or (gatedByte s.me.gated (s.me.arch.tick + 1) a)).getD
        (s.mem.read (nearKey (coreOf s.cur) a)) else 0 := by
    rw [State.nearByte, window, gated, tick, mem, gatedByte_append _ entry bytes _ _ rfl (Nat.lt_succ_self _)]
  refine ⟨mem, fun b inCells lo hi => ?_, fun out => ?_⟩
  · have held : (a, b) ∈ bytes := List.mem_filter.2 ⟨inCells, by simp [lo, hi]⟩
    have once : (bytes.map Prod.fst).Nodup := once.sublist (List.filter_sublist.map _)
    rw [reads, if_pos ((Ctx.inWindow_iff _ _).2 ⟨lo, hi⟩), find?_of_mem_nodup once held]
    rfl
  · have none : bytes.find? (fun p => p.1 == a) = none := by
      refine List.find?_eq_none.2 fun p hp here => ?_
      obtain ⟨a', b⟩ := p
      obtain rfl : a' = a := eq_of_beq here
      exact out b (List.mem_filter.1 hp).1
    have reads' : u.nearByte s.cur a = if s.me.inWindow a = true then
        (gatedByte s.me.gated (s.me.arch.tick + 1) a).getD (s.mem.read (nearKey (coreOf s.cur) a)) else 0 := by
      rw [State.nearByte, show u = s.modArch s.cur _ from rfl, State.ctx_modArch_self, State.modArch_mem]
      rfl
    rw [reads, reads', none]
    rfl

/-- Settles O40 (R43, R66, R137, R139, R239, R317): each store is its low bytes, and a later load finds them. -/
theorem storeResults : Obligations.StoreResults := by
  unfold Obligations.StoreResults
  exact ⟨storeForms, storeForwarding⟩

end Sys2Proof.Machine
end

section
/-!
PROOFS. Control registers (R53, R54, R301, R302): ControlRegisterResults settled.
-/

namespace Sys2Proof.Machine

open Sys2Proof.Claims (writesS)

/-! The numbers (R53). -/

theorem controlAssigned_iff (r : BitVec 12) : controlAssigned r = true ↔ r.toNat ≤ 0x008 ∨ (0x010 ≤ r.toNat ∧ r.toNat ≤ 0x01E)
    ∨ (0x020 ≤ r.toNat ∧ r.toNat ≤ 0x022) := by
  simp [controlAssigned, or_assoc]

/-- R53, R301: a register that is assigned has a value. -/
theorem State.controlRead_assigned (s : State) (g : Nat) {r : BitVec 12} (h : controlAssigned r = true) :
    ∃ v, s.controlRead g r.toNat = some v := by
  rw [controlAssigned_iff] at h
  generalize r.toNat = n at h ⊢
  rcases h with h | ⟨lo, hi⟩ | ⟨lo, hi⟩ <;> interval_cases n <;> exact ⟨_, rfl⟩
theorem State.controlRead_unassigned (s : State) (g : Nat) {r : BitVec 12} (h : controlAssigned r = false) :
    s.controlRead g r.toNat = none := by
  have h := mt (controlAssigned_iff r).2 (by simp [h])
  generalize r.toNat = n at h ⊢
  unfold State.controlRead
  split
  case h_28 => rfl
  all_goals omega

section
variable {x : BitVec 5} {r : BitVec 12} {s : State}

theorem exec_crd_of_read {v : Word} (slot : s.slot = 0) (h : s.controlRead s.cur r.toNat = some v) :
    exec (.crd x r) s = .next (writesS s 2 x v) := by
  refine (exec_inC slot fun _ => rfl).trans ?_
  rw [h, ← State.landS_eq_writesS]
theorem exec_crd_unassigned (slot : s.slot = 0) (h : controlAssigned r = false) : exec (.crd x r) s = .next s.illegal := by
  refine (exec_inC slot fun _ => rfl).trans ?_
  rw [s.controlRead_unassigned s.cur h]
theorem exec_cwr_assigned (slot : s.slot = 0) (h : controlAssigned r = true) :
    exec (.cwr x r) s = .next (s.landAt 1 .control r.toNat fullScalar ((s.rs x).zeroExtend 2048) none) := by
  obtain ⟨v, hv⟩ := s.controlRead_assigned s.cur h
  refine (exec_inC slot fun _ => rfl).trans ?_
  rw [hv]
theorem exec_cwr_unassigned (slot : s.slot = 0) (h : controlAssigned r = false) : exec (.cwr x r) s = .next s.illegal := by
  refine (exec_inC slot fun _ => rfl).trans ?_
  rw [s.controlRead_unassigned s.cur h]

end

theorem controlRegisterForms : Claims.ControlRegisterForms := by
  unfold Claims.ControlRegisterForms
  refine fun x r s slot => ⟨fun h => ?_, exec_cwr_assigned slot,
    fun h => ⟨exec_crd_unassigned slot h, exec_cwr_unassigned slot h⟩⟩
  obtain ⟨v, hv⟩ := s.controlRead_assigned s.cur h
  have value {k : BitVec 12} {w : Word} (at_ : r = k) (reads : s.controlRead s.cur k.toNat = some w) : v = w :=
    Option.some.inj (hv.symm.trans (at_ ▸ reads))
  have wide {n : Nat} {k : BitVec 12} {w : BitVec n} (le : n ≤ 64) (at_ : r = k)
      (reads : s.controlRead s.cur k.toNat = some (w.zeroExtend 64)) : v.toNat = w.toNat := by
    rw [value at_ reads]
    exact BitVec.toNat_setWidth_of_le le
  exact ⟨v, exec_crd_of_read slot hv, (value · rfl), (wide (by decide) · rfl), (wide (by decide) · rfl), (wide (by decide) · rfl),
    (value · rfl), (wide (by decide) · rfl), (wide (by decide) · rfl), (value · rfl), (value · rfl), (wide (by decide) · rfl),
    (value · rfl), (value · rfl), (wide (by decide) · rfl), (wide (by decide) · rfl), (value · rfl)⟩

/-! Landing writes (R41, R54, R302). -/

/-- R302: of AEVT a write clears the two bits that it sets and that no event has set in this cycle. -/
theorem Ctx.aevt_writeControl (c : Ctx) (v : Word) (i : Nat) : (c.writeControl 0x022 v).aevt.getLsbD i
    = (c.aevt.getLsbD i && !(decide (i < 2) && v.getLsbD i && !c.aevtNew.getLsbD i)) := by
  have two : (3#64).getLsbD i = decide (i < 2) := by
    by_cases h : i < 2
    · interval_cases i <;> rfl
    · rw [BitVec.getLsbD_ofNat, Nat.testBit_lt_two_pow (lt_of_lt_of_le (by decide : 3 < 2 ^ 2) (Nat.pow_le_pow_right (by decide) (by omega)))]
      simp [h]
  show (c.aevt &&& ~~~(v &&& ~~~(c.aevtNew.zeroExtend 64) &&& 3#64)).getLsbD i = _
  by_cases h : i < 64
  · simp only [BitVec.getLsbD_and, BitVec.getLsbD_not, two, BitVec.truncate_eq_setWidth, BitVec.getLsbD_setWidth, h]
    cases c.aevt.getLsbD i <;> cases v.getLsbD i <;> cases c.aevtNew.getLsbD i <;> simp
  · rw [BitVec.getLsbD_of_ge _ _ (by omega), BitVec.getLsbD_of_ge c.aevt i (by omega), Bool.false_and]

theorem controlWriteLanding : Claims.ControlWriteLanding := by
  unfold Claims.ControlWriteLanding
  intro c v
  refine ⟨fun r hr => ?_, ?_, c.aevt_writeControl v, ?_, ?_, ?_, rfl, rfl, ?_, ?_⟩
  · fin_cases hr <;> rfl
  · rw [BitVec.ofNat_toNat]
    rfl
  all_goals
    rw [← truncate_eq_ofNat]
    rfl

/-- Settles O50 (R41, R53, R54, R301, R302), by the number of the register. -/
theorem controlRegisterResults : Obligations.ControlRegisterResults := by
  unfold Obligations.ControlRegisterResults
  exact ⟨controlRegisterForms, controlWriteLanding⟩

end Sys2Proof.Machine
end

section
/-!
PROOFS. Engine registers (R57 to R59, R103, R305): EngineRegisterResults settled.
-/

namespace Sys2Proof.Machine

open Sys2Proof.Claims (writesS pending later held commandRoom commandEntries)

theorem exec_inE {i : Instr} {s : State} {k : State → State} (slot : s.slot = 7) (runs : ∀ s, exec i s = inE s k) :
    exec i s = .next (k s) := (runs s).trans (inSlot_ok (by rw [slot]; rfl) k)

/-! The numbers (R57, R59). -/

theorem engineAssigned_iff (r : BitVec 10) : engineAssigned r = true ↔ r.toNat ≤ 0x014 ∨ (0x020 ≤ r.toNat ∧ r.toNat ≤ 0x024)
    ∨ (0x030 ≤ r.toNat ∧ r.toNat ≤ 0x03F) ∨ (0x040 ≤ r.toNat ∧ r.toNat ≤ 0x047) := by
  simp [engineAssigned, or_assoc]

/-- R57, R305: the numbers of a register that is assigned have a value. -/
theorem State.engineRead_assigned (s : State) (g : Nat) {r : BitVec 10} (h : engineAssigned r = true) :
    ∃ v, s.engineRead g r.toNat = some v := by
  rw [engineAssigned_iff] at h
  generalize r.toNat = n at h ⊢
  rcases h with h | ⟨lo, hi⟩ | ⟨lo, hi⟩ | ⟨lo, hi⟩ <;> interval_cases n <;> exact ⟨_, rfl⟩
theorem State.engineRead_unassigned (s : State) (g : Nat) {r : BitVec 10} (h : engineAssigned r = false) :
    s.engineRead g r.toNat = none := by
  have h := mt (engineAssigned_iff r).2 (by simp [h])
  generalize r.toNat = n at h ⊢
  unfold State.engineRead
  split
  case h_11 => rw [if_neg (by omega), if_neg (by omega), if_neg (by omega), if_neg (by omega)]
  all_goals omega

/-- R59, R131: the asynchronous status, and what the factor engine writes at a stop. -/
theorem asyncStatus_iff (r : BitVec 10) : asyncStatus r.toNat = true ↔ r = 0x012 ∨ r = 0x021 ∨ r = 0x022 ∨ r = 0x023
    ∨ (0x008 ≤ r.toNat ∧ r.toNat < 0x010) ∨ (0x030 ≤ r.toNat ∧ r.toNat < 0x048) := by
  have num (k : BitVec 10) : r = k ↔ r.toNat = k.toNat := BitVec.toNat_inj.symm
  simp only [num, asyncStatus, factorReg, asyncBits]
  generalize r.toNat = n
  by_cases a : n = 0x012 ∨ n = 0x023 ∨ (0x040 ≤ n ∧ n < 0x048)
  · simp only [a, if_true]
    simp
    omega
  · by_cases b : 8 ≤ n ∧ n < 16
    · simp [a, b]
    · simp only [a, b, if_false]
      simp
      omega

section
variable {a : BitVec 5} {r : BitVec 10} {s : State}

theorem exec_ewr_assigned (slot : s.slot = 7) (h : engineAssigned r = true) :
    exec (.ewr r a) s = .next (s.engineWrite s.cur r.toNat (s.rs a)) := by
  obtain ⟨v, hv⟩ := s.engineRead_assigned s.cur h
  refine (exec_inE slot fun _ => rfl).trans ?_
  rw [hv]
theorem exec_ewr_unassigned (slot : s.slot = 7) (h : engineAssigned r = false) : exec (.ewr r a) s = .next s.illegal := by
  refine (exec_inE slot fun _ => rfl).trans ?_
  rw [s.engineRead_unassigned s.cur h]
theorem exec_erd_unassigned (slot : s.slot = 7) (h : engineAssigned r = false) : exec (.erd a r) s = .next s.illegal := by
  refine (exec_inE slot fun _ => rfl).trans ?_
  rw [s.engineRead_unassigned s.cur h]

/-- R305: an ERD of a register that nothing takes again, or into s0. -/
theorem exec_erd_landing {v : Word} (slot : s.slot = 7) (reads : s.engineRead s.cur r.toNat = some v)
    (fixed : asyncStatus r.toNat = true → a = 0) : exec (.erd a r) s = .next (writesS s 6 a v) := by
  refine (exec_inE slot fun _ => rfl).trans ?_
  rw [reads]
  dsimp only
  rw [if_neg, ← State.landS_eq_writesS]
  intro h
  obtain ⟨status, nonzero⟩ := Bool.and_eq_true_iff.1 h
  simp [fixed status] at nonzero
/-- R59: an ERD of a register that may be taken again. -/
theorem exec_erd_sampled {v : Word} (slot : s.slot = 7) (reads : s.engineRead s.cur r.toNat = some v)
    (status : asyncStatus r.toNat = true) (nonzero : a ≠ 0) : exec (.erd a r) s = .next (pending s
      { later s 6 .scalar a.toNat fullScalar (v.zeroExtend 2048) none with sample := some r.toNat }) := by
  have num : (a.toNat != 0) = true := by simpa using fun h => nonzero (BitVec.eq_of_toNat_eq h)
  refine (exec_inE slot fun _ => rfl).trans ?_
  rw [reads]
  dsimp only
  rw [if_pos (by rw [status, num]; rfl)]
  rfl

end

/-! What an EWR writes (R58, R305, R306). -/

/-- R306: an ERNG is written at the end of the cycle. -/
theorem State.engineWrite_erng (s : State) (g : Nat) {n : Nat} (h : n < 8) (v : Word) :
    s.engineWrite g n v = s.modCore (coreOf g) fun k => { k with erngNext := k.erngNext ++ [(n, v)] } := by
  interval_cases n <;> rfl
/-- R58: MSTAT, FGROW, FSTAT, FPERM and SQST are read-only. -/
theorem State.engineWrite_readOnly (s : State) (g : Nat) {n : Nat}
    (h : n = 0x012 ∨ n = 0x022 ∨ n = 0x023 ∨ (0x030 ≤ n ∧ n ≤ 0x047)) (v : Word) : s.engineWrite g n v = s := by
  rcases h with rfl | rfl | rfl | ⟨lo, hi⟩
  · rfl
  · rfl
  · rfl
  · interval_cases n <;> rfl
/-- R58: FPROG takes eight bits. -/
theorem State.engineWrite_fprog (s : State) (g : Nat) (v : Word) :
    s.engineWrite g 0x021 v = s.modCtx g fun c => { c with fprog := BitVec.ofNat 8 v.toNat } := by
  have low : (v &&& 0xFF).truncate 8 = BitVec.ofNat 8 v.toNat := by
    have ones : (0xFF : Word).setWidth 8 = BitVec.allOnes 8 := by decide
    rw [BitVec.truncate_eq_setWidth, BitVec.setWidth_and, ones, BitVec.and_allOnes, BitVec.ofNat_toNat]
  rw [← low]
  rfl

/-! The gated write of ERHT.TAIL (R103). -/

theorem GatedItem.isCommand_filter (e : Gated) : (e.item.isStore == false && e.item.isCommand == true) = e.item.isCommand := by
  cases e.item <;> rfl

/-- R239: a command for which there is room is held. -/
theorem State.gate_command {s : State} (room : commandRoom s) (op : CmdOp) : s.gate (.cmd op s.issuer) = held s op := by
  obtain ⟨free, few⟩ := room
  have fits : s.gateRoom (.cmd op s.issuer) := by
    refine ⟨fun h => (nomatch h), fun _ => ?_⟩
    show (s.me.gated.filter fun e => e.item.isStore == false && e.item.isCommand == true).length < 32
    simp only [GatedItem.isCommand_filter]
    exact few
  rw [State.gate_room fits free]
  rfl

/-- Settles O9 (R58, R59, R103, R305), by the number of the register. -/
theorem engineRegisterResults : Obligations.EngineRegisterResults := by
  unfold Obligations.EngineRegisterResults
  refine ⟨fun r a s slot => ?_, fun i a s slot room => ?_⟩
  · have writes {k : BitVec 10} {t : State} (assigned : engineAssigned k = true)
        (is : s.engineWrite s.cur k.toNat (s.rs a) = t) (at_ : r = k) : exec (.ewr r a) s = .next t := by
      rw [at_, exec_ewr_assigned slot assigned, is]
    refine ⟨writes (by decide) rfl, writes (by decide) rfl, writes (by decide) rfl, writes (by decide) rfl,
      writes (by decide) rfl, writes (by decide) rfl, writes (by decide) (s.engineWrite_fprog _ _), fun h => ?_, fun h assigned => ?_,
      fun h => ⟨exec_ewr_unassigned slot h, exec_erd_unassigned slot h⟩, fun assigned => ?_⟩
    · have assigned : engineAssigned r = true := (engineAssigned_iff r).2 (.inl (by omega))
      refine ⟨_, exec_ewr_assigned slot assigned, ?_⟩
      rw [s.engineWrite_erng _ h]
      exact ⟨rfl, rfl, by rw [State.core_modCore_self], by rw [State.core_modCore_self]⟩
    · have num (k : BitVec 10) : r = k → r.toNat = k.toNat := congrArg _
      have readOnly := h.imp (num _) (Or.imp (num _) (Or.imp_left (num _)))
      rw [exec_ewr_assigned slot assigned, s.engineWrite_readOnly _ readOnly]
    · obtain ⟨v, hv⟩ := s.engineRead_assigned s.cur assigned
      have value {k : BitVec 10} {w : Word} (reads : s.engineRead s.cur k.toNat = some w) (at_ : r = k) : v = w :=
        Option.some.inj (hv.symm.trans (at_ ▸ reads))
      refine ⟨v, fun h => exec_erd_landing slot hv fun status => h.resolve_left fun n => n ((asyncStatus_iff r).1 status),
        fun status nonzero => exec_erd_sampled slot hv ((asyncStatus_iff r).2 status) nonzero, value rfl, value rfl, value rfl,
        value rfl, value rfl, value rfl, value rfl, value rfl, fun h => ?_⟩
      refine Option.some.inj (hv.symm.trans ?_)
      generalize r.toNat = n at h ⊢
      interval_cases n <;> rfl
  · have tail : (s.rs a).extractLsb' 32 32 = BitVec.ofNat 32 ((s.rs a).toNat / 2 ^ 32) := by
      apply BitVec.eq_of_toNat_eq
      rw [BitVec.extractLsb'_toNat, BitVec.toNat_ofNat, Nat.shiftRight_eq_div_pow]
    refine (exec_inE slot fun _ => rfl).trans ?_
    rw [State.gate_command room, tail]

end Sys2Proof.Machine
end

section
/-!
PROOFS. Two runs of one instruction, of which one names streams and the other registers (R52): what the shared operations of
the vector instructions keep between them, and what they add to the pending writes.
-/

namespace Sys2Proof.Machine

open Sys2Proof.Claims (apart plain registered)

/-! Twins. -/

/-- R52: t is u, but for the streams and the vector registers of the context that executes, and the units that the bundle pops. -/
structure Twin (streams : AMap Stream) (vreg : AMap VWord) (pops : NSet) (u t : State) : Prop where
  apart : apart u t
  iss : t.iss = { u.iss with pops := pops }
  me : t.me = { u.me with arch := { u.me.arch with streams := streams, vreg := vreg } }

/-- A function of the state that is the same of twins: it reads no stream, no vector register and no popped unit. -/
def Same {α : Type} (f : State → α) : Prop := ∀ {streams vreg pops u t}, Twin streams vreg pops u t → f t = f u

namespace Twin

variable {streams : AMap Stream} {vreg : AMap VWord} {pops : NSet} {u t : State}

theorem cur (h : Twin streams vreg pops u t) : t.cur = u.cur := by
  obtain ⟨-, -, -, -, -, -, -, -, -, hcur, -⟩ := h.apart
  exact hcur
theorem slot (h : Twin streams vreg pops u t) : t.slot = u.slot := by
  obtain ⟨-, -, -, -, -, -, -, -, -, -, hslot, -⟩ := h.apart
  exact hslot
theorem cores (h : Twin streams vreg pops u t) : t.cores = u.cores := by
  obtain ⟨-, -, -, -, -, hcores, -⟩ := h.apart
  exact hcores
theorem choice (h : Twin streams vreg pops u t) : t.choice = u.choice := by
  obtain ⟨-, -, -, -, -, -, -, -, -, -, -, -, hchoice⟩ := h.apart
  exact hchoice
theorem mem (h : Twin streams vreg pops u t) : t.mem = u.mem := h.apart.1
theorem poison (h : Twin streams vreg pops u t) : t.poison = u.poison := h.apart.2.1

theorem rs (h : Twin streams vreg pops u t) (r : BitVec 5) : t.rs r = u.rs r := by
  rw [State.rs, State.rs, h.me]
  rfl
theorem rp (h : Twin streams vreg pops u t) (r : BitVec 3) : t.rp r = u.rp r := by
  rw [State.rp, State.rp, h.me]
  rfl
theorem fmt (h : Twin streams vreg pops u t) : t.me.arch.fmt = u.me.arch.fmt := by rw [h.me]
theorem rngkey (h : Twin streams vreg pops u t) : t.me.arch.rngkey = u.me.arch.rngkey := by rw [h.me]
theorem rngctr (h : Twin streams vreg pops u t) : t.me.arch.rngctr = u.me.arch.rngctr := by rw [h.me]
theorem inWindow (h : Twin streams vreg pops u t) (a : Nat) : t.me.inWindow a = u.me.inWindow a := by rw [h.me]; rfl

/-- A change of the context that executes keeps twins where its two results are twins. -/
theorem setCtx (h : Twin streams vreg pops u t) {c d : Ctx}
    (own : d = { c with arch := { c.arch with streams := streams, vreg := vreg } }) :
    Twin streams vreg pops (u.setCtx u.cur c) (t.setCtx t.cur d) := by
  obtain ⟨⟨mem, poison, flawed, deferred, other, cores, cmds, ce, edge, cur, slot, late, choice⟩, iss, me⟩ := h
  refine ⟨⟨mem, poison, flawed, deferred, fun g hg => ?_, cores, cmds, ce, edge, cur, slot, late, choice⟩, iss, ?_⟩
  · exact ((State.ctx_setCtx_other t d fun e => hg (e.trans cur)).trans (other g hg)).trans
      (State.ctx_setCtx_other u c hg).symm
  · have his : (t.setCtx t.cur d).me = d := State.ctx_setCtx_self ..
    have mine : (u.setCtx u.cur c).me = c := State.ctx_setCtx_self ..
    rw [his, mine, own]

theorem modCtx (h : Twin streams vreg pops u t) {f g : Ctx → Ctx}
    (own : g t.me = { f u.me with arch := { (f u.me).arch with streams := streams, vreg := vreg } }) :
    Twin streams vreg pops (u.modCtx u.cur f) (t.modCtx t.cur g) := h.setCtx own

theorem modArch (h : Twin streams vreg pops u t) {f g : Arch → Arch}
    (own : g t.me.arch = { f u.me.arch with streams := streams, vreg := vreg }) :
    Twin streams vreg pops (u.modArch u.cur f) (t.modArch t.cur g) :=
  h.modCtx (by rw [own]; simp only [h.me])

theorem modIss (h : Twin streams vreg pops u t) {f g : Issue → Issue} (own : g t.iss = { f u.iss with pops := pops }) :
    Twin streams vreg pops (u.modIss f) (t.modIss g) := ⟨h.apart, own, h.me⟩

theorem landAt (h : Twin streams vreg pops u t) {l : Nat} {file : RegFile} {num : Nat} {mask mask' : PWord}
    {val val' : VWord} {bad bad' : Option Word} (hmask : mask' = mask) (hval : val' = val) (hbad : bad' = bad) :
    Twin streams vreg pops (u.landAt l file num mask val bad) (t.landAt l file num mask' val' bad') :=
  h.modArch (by simp only [h.me, h.slot, h.iss, hmask, hval, hbad])

theorem landS (h : Twin streams vreg pops u t) {l d : Nat} {v v' : Word} (hv : v' = v) :
    Twin streams vreg pops (u.landS l d v) (t.landS l d v') := by
  unfold State.landS
  split
  · exact h
  · exact h.landAt rfl (by rw [hv]) rfl

theorem landP (h : Twin streams vreg pops u t) {l d : Nat} {mask mask' v v' : PWord} (hm : mask' = mask) (hv : v' = v) :
    Twin streams vreg pops (u.landP l d mask v) (t.landP l d mask' v') := by
  unfold State.landP
  split
  · exact h
  · exact h.landAt hm (by rw [hv]) rfl

theorem raiseFlags (h : Twin streams vreg pops u t) {l : Nat} {f f' : BitVec 4} (hf : f' = f) :
    Twin streams vreg pops (u.raiseFlags l f) (t.raiseFlags l f') := by
  subst hf
  unfold State.raiseFlags
  split
  · exact h
  · exact h.landAt rfl rfl rfl

theorem spvAt (h : Twin streams vreg pops u t) (l a : Nat) : Twin streams vreg pops (u.spvAt l a) (t.spvAt l a) :=
  h.modArch (by rw [h.me, h.slot, h.iss]; rfl)

theorem rangeFlags (h : Twin streams vreg pops u t) (l : Nat) {as as' : List Nat} (has : as' = as) :
    Twin streams vreg pops (u.rangeFlags l as) (t.rangeFlags l as') := by
  subst has
  unfold State.rangeFlags
  simp only [h.inWindow]
  split
  · exact h
  · exact h.spvAt l _

theorem drawn (h : Twin streams vreg pops u t) {m m' : RMode} (hm : m' = m) :
    Twin streams vreg pops (u.drawn m) (t.drawn m') := by
  subst hm
  unfold State.drawn
  split
  · exact h.modArch (by simp only [h.me])
  · exact h

/-! Near store (R137, R139). -/

theorem nearByte (h : Twin streams vreg pops u t) (a : Nat) : t.nearByte t.cur a = u.nearByte u.cur a := by
  show (if t.me.inWindow a then (gatedByte t.me.gated t.me.arch.tick a).getD (t.mem.read (nearKey (coreOf t.cur) a)) else 0)
    = if u.me.inWindow a then (gatedByte u.me.gated u.me.arch.tick a).getD (u.mem.read (nearKey (coreOf u.cur) a)) else 0
  rw [h.inWindow, h.me, h.mem, h.cur]

theorem nearPoison (h : Twin streams vreg pops u t) (as : List Nat) : t.nearPoison t.cur as = u.nearPoison u.cur as := by
  have own : t.ctx t.cur = { u.me with arch := { u.me.arch with streams := streams, vreg := vreg } } := h.me
  unfold State.nearPoison
  rw [own]
  simp only [State.poisoned, h.poison, h.cur]
  rfl

end Twin

/-! Settings of the bundle. -/

/-- A step that keeps twins, and adds l ticks on writes of other files than the vector registers. -/
structure Adds (l : Nat) (s t : State) : Prop where
  cur : t.cur = s.cur
  iss : t.iss = s.iss
  me : ∃ more ctr io top, t.me = { s.me with arch := { s.me.arch with
      pend := s.me.arch.pend ++ more, rngctr := ctr, spvio := io, stktop := top } }
    ∧ ∀ p ∈ more, p.file ≠ .vector ∧ p.tick = s.me.arch.tick + l

namespace Adds

variable {l : Nat} {s t : State}

theorem refl (l : Nat) (s : State) : Adds l s s := ⟨rfl, rfl, [], _, _, _, by rw [List.append_nil], fun _ h => nomatch h⟩

/-- One more change of the fields that a step may change. -/
theorem modArch (h : Adds l s t) {f : Arch → Arch} (more : List Pending) (ctr : Word) (io top : BitVec 32)
    (own : f t.me.arch = { t.me.arch with
      pend := t.me.arch.pend ++ more, rngctr := ctr, spvio := io, stktop := top })
    (each : ∀ p ∈ more, p.file ≠ .vector ∧ p.tick = t.me.arch.tick + l) : Adds l s (t.modArch t.cur f) := by
  obtain ⟨cur, iss, before, _, _, _, me, all⟩ := h
  refine ⟨cur, iss, before ++ more, ctr, io, top, ?_, fun p hp => ?_⟩
  · rw [State.me_modArch, own, me, List.append_assoc]
  · rw [me] at each
    exact (List.mem_append.1 hp).elim (all p) (each p)

theorem landAt (h : Adds l s t) {file : RegFile} (other : file ≠ .vector) (num : Nat) (mask : PWord) (val : VWord)
    (bad : Option Word) : Adds l s (t.landAt l file num mask val bad) :=
  h.modArch _ _ _ _ rfl fun p hp => by rw [List.mem_singleton.1 hp]; exact ⟨other, rfl⟩

theorem landS (h : Adds l s t) (d : Nat) (v : Word) : Adds l s (t.landS l d v) := by
  unfold State.landS
  split
  · exact h
  · exact h.landAt (by decide) ..

theorem landP (h : Adds l s t) (d : Nat) (mask v : PWord) : Adds l s (t.landP l d mask v) := by
  unfold State.landP
  split
  · exact h
  · exact h.landAt (by decide) ..

theorem raiseFlags (h : Adds l s t) (f : BitVec 4) : Adds l s (t.raiseFlags l f) := by
  unfold State.raiseFlags
  split
  · exact h
  · exact h.landAt (by decide) ..

theorem spvAt (h : Adds l s t) (a : Nat) : Adds l s (t.spvAt l a) :=
  h.modArch _ _ _ _ rfl fun p hp => by rw [List.mem_singleton.1 hp]; exact ⟨(nomatch ·), rfl⟩

theorem rangeFlags (h : Adds l s t) (as : List Nat) : Adds l s (t.rangeFlags l as) := by
  unfold State.rangeFlags
  split
  · exact h
  · exact h.spvAt _

theorem drawn (h : Adds l s t) (m : RMode) : Adds l s (t.drawn m) := by
  unfold State.drawn
  split
  · exact h.modArch [] _ _ _ (by rw [List.append_nil]) fun _ hp => nomatch hp
  · exact h

theorem bound (h : Adds l s t) (r : Nat) : t.me.arch.bound r = s.me.arch.bound r := by
  obtain ⟨-, -, _, _, _, _, me, -⟩ := h
  rw [me]
  rfl

theorem ticks (h : Adds l s t) {p : Pending} (hp : p ∈ t.me.arch.pend) :
    p ∈ s.me.arch.pend ∨ p.tick = s.me.arch.tick + l := by
  obtain ⟨-, -, more, _, _, _, me, each⟩ := h
  rw [me] at hp
  exact (List.mem_append.1 hp).imp_right fun hm => (each p hm).2

theorem tick (h : Adds l s t) : t.me.arch.tick = s.me.arch.tick := by
  obtain ⟨-, -, _, _, _, _, me, -⟩ := h
  rw [me]

end Adds

/-- A function of the state that keeps twins and adds writes of other files than the vector registers. -/
structure Quiet (l : Nat) (f : State → State) : Prop where
  twin : ∀ {streams vreg pops u t}, Twin streams vreg pops u t → Twin streams vreg pops (f u) (f t)
  adds : ∀ s, Adds l s (f s)

theorem quiet_id (l : Nat) : Quiet l fun s => s := ⟨fun h => h, .refl l⟩

namespace Quiet

variable {l : Nat} {pre : State → State}

theorem drawn (h : Quiet l pre) {m : State → RMode} (hm : Same m) : Quiet l fun s => (pre s).drawn (m s) :=
  ⟨fun w => (h.twin w).drawn (hm w), fun s => (h.adds s).drawn _⟩
theorem raiseFlags (h : Quiet l pre) {f : State → BitVec 4} (hf : Same f) : Quiet l fun s => (pre s).raiseFlags l (f s) :=
  ⟨fun w => (h.twin w).raiseFlags (hf w), fun s => (h.adds s).raiseFlags _⟩
theorem landS (h : Quiet l pre) {d : Nat} {v : State → Word} (hv : Same v) : Quiet l fun s => (pre s).landS l d (v s) :=
  ⟨fun w => (h.twin w).landS (hv w), fun s => (h.adds s).landS _ _⟩
theorem landP (h : Quiet l pre) {d : Nat} {mask v : State → PWord} (hm : Same mask) (hv : Same v) :
    Quiet l fun s => (pre s).landP l d (mask s) (v s) :=
  ⟨fun w => (h.twin w).landP (hm w) (hv w), fun s => (h.adds s).landP _ _ _⟩
theorem rangeFlags (h : Quiet l pre) {as : State → List Nat} (ha : Same as) :
    Quiet l fun s => (pre s).rangeFlags l (as s) :=
  ⟨fun w => (h.twin w).rangeFlags l (ha w), fun s => (h.adds s).rangeFlags _⟩

end Quiet

/-! What an instruction comes to when its sources are read. -/

/-- Of an instruction that writes the vector register `dest`, if any: where that is no stream, what it does of twins is twins,
and what it adds lands l ticks on. -/
structure Settles (l : Nat) (dest : Option (BitVec 5)) (f : State → State) : Prop where
  twin : ∀ {streams vreg pops u t}, Twin streams vreg pops u t → (∀ d, dest = some d → plain u d ∧ plain t d) →
    (f u).iss.verdict = .ok → Twin streams vreg pops (f u) (f t)
  ticks : ∀ s, (∀ d, dest = some d → plain s d) → (f s).iss.verdict = .ok →
    ∀ p ∈ (f s).me.arch.pend, p ∈ s.me.arch.pend ∨ p.tick = s.me.arch.tick + l

theorem Quiet.settles {l : Nat} {f : State → State} (h : Quiet l f) : Settles l none f :=
  ⟨fun w _ _ => h.twin w, fun s _ _ _ hp => (h.adds s).ticks hp⟩

/-- R40, R52: an instruction that is ready loads or computes a vector register, l ticks on; one that is not does not complete. -/
inductive Lands (l : Nat) (d : BitVec 5) (f : State → State) : Prop
  | mk (ready : State → Bool) (pre : State → State) (mask : State → PWord) (val : State → VWord) (bad : State → Option Word)
      (sameReady : Same ready) (quiet : Quiet l pre) (sameMask : Same mask) (sameVal : Same val) (sameBad : Same bad)
      (lands : ∀ s, ready s = true → f s = (pre s).landLoaded l d (mask s) (val s) (bad s))
      (stops : ∀ s, ready s = false → (f s).iss.verdict ≠ .ok)

theorem State.landV_eq_landLoaded (s : State) (l : Nat) (d : BitVec 5) (mask : PWord) (v : VWord) :
    s.landV l d mask v = s.landLoaded l d mask v none := by
  unfold State.landLoaded
  split
  · next h => exact State.landV_register h l mask v
  · rfl

theorem lands_landLoaded {l : Nat} {d : BitVec 5} {pre : State → State} {mask : State → PWord} {val : State → VWord}
    {bad : State → Option Word} (quiet : Quiet l pre) (sameMask : Same mask) (sameVal : Same val) (sameBad : Same bad) :
    Lands l d fun s => (pre s).landLoaded l d (mask s) (val s) (bad s) :=
  .mk (fun _ => true) pre mask val bad (fun _ => rfl) quiet sameMask sameVal sameBad (fun _ _ => rfl) fun _ h => nomatch h

theorem lands_landV {l : Nat} {d : BitVec 5} {pre : State → State} {mask : State → PWord} {val : State → VWord}
    (quiet : Quiet l pre) (sameMask : Same mask) (sameVal : Same val) :
    Lands l d fun s => (pre s).landV l d (mask s) (val s) := by
  simp only [State.landV_eq_landLoaded]
  exact lands_landLoaded quiet sameMask sameVal fun _ => rfl

theorem Lands.settles {l : Nat} {d : BitVec 5} {f : State → State} (h : Lands l d f) : Settles l (some d) f := by
  obtain ⟨ready, pre, mask, val, bad, sameReady, quiet, sameMask, sameVal, sameBad, lands, stops⟩ := h
  have go {s : State} (ok : (f s).iss.verdict = .ok) : ready s = true :=
    Bool.of_not_eq_false fun h => stops s h ok
  have register {s : State} (hs : plain s d) (hr : ready s = true) :
      f s = (pre s).landAt l .vector d.toNat (mask s) (val s) (bad s) := by
    rw [lands s hr, State.landLoaded_register (((quiet.adds s).bound _).trans hs)]
  constructor
  · intro streams vreg pops u t w hd ok
    obtain ⟨hu, ht⟩ := hd d rfl
    rw [register hu (go ok), register ht ((sameReady w).trans (go ok))]
    exact (quiet.twin w).landAt (sameMask w) (sameVal w) (sameBad w)
  · intro s hs ok p hp
    rw [register (hs d rfl) (go ok), State.landAt, State.me_modArch] at hp
    obtain hp | hp := List.mem_append.1 hp
    · exact (quiet.adds s).ticks hp
    · rw [List.mem_singleton.1 hp]
      exact .inr (congrArg (· + l) (quiet.adds s).tick)

end Sys2Proof.Machine
end

section
/-!
PROOFS. The vector accesses and VBNET of twins (R137, R239, R296, R311, R357), and the vector sources of an instruction, read one
after the other (R52).
-/

namespace Sys2Proof.Machine

open Sys2Proof.Claims (plain)

/-! Stores. -/

theorem State.raise_not_ok (s : State) (c : Cause) : (s.raise c).iss.verdict ≠ .ok := by simp [State.raise, State.modIss]
theorem State.stall_not_ok (s : State) : s.stall.iss.verdict ≠ .ok := by simp [State.stall, State.modIss]

theorem State.stall_or_raise_not_ok (s : State) (c : Cause) (p : Prop) [Decidable p] :
    (if p then s.stall else s.raise c).iss.verdict ≠ .ok := by
  split
  · exact s.stall_not_ok
  · exact s.raise_not_ok c

/-- R239: outside a handler an item completes only where it has room. -/
theorem State.gateRoom_of_ok {s : State} {item : GatedItem} (trap : s.me.intrap = false) (ok : (s.gate item).iss.verdict = .ok) :
    s.gateRoom item := by
  unfold State.gate at ok
  dsimp only at ok
  rw [if_neg (by simp [trap])] at ok
  split at ok
  · exact absurd ok (s.stall_or_raise_not_ok _ _)
  · next room =>
    simp only [Bool.or_eq_true, Bool.and_eq_true, decide_eq_true_eq, not_or, not_and, not_le] at room
    exact room

namespace Twin

variable {streams : AMap Stream} {vreg : AMap VWord} {pops : NSet} {u t : State}

theorem gate (h : Twin streams vreg pops u t) {item : GatedItem} (trap : u.me.intrap = false)
    (ok : (u.gate item).iss.verdict = .ok) : Twin streams vreg pops (u.gate item) (t.gate item) := by
  have room := State.gateRoom_of_ok trap ok
  have room' : t.gateRoom item := by
    unfold State.gateRoom
    rw [h.me]
    exact room
  rw [State.gate_room room trap, State.gate_room room' (by rw [h.me]; exact trap)]
  exact h.modCtx (by simp only [h.me])

theorem storeNear (h : Twin streams vreg pops u t) (cells : List (Nat × Byte)) (ok : (u.storeNear cells).iss.verdict = .ok) :
    Twin streams vreg pops (u.storeNear cells) (t.storeNear cells) := by
  have flagged := h.rangeFlags 1 (rfl : cells.map Prod.fst = cells.map Prod.fst)
  have trap : t.me.intrap = u.me.intrap := by rw [h.me]
  have own := (u.rangeFlags_only 1 (cells.map Prod.fst)).own
  unfold State.storeNear at ok ⊢
  simp only [h.inWindow, trap] at ok ⊢
  split at ok
  · next handler =>
    rw [if_pos handler, if_pos handler]
    exact flagged.modIss (by rw [flagged.iss])
  · next running =>
    rw [if_neg running, if_neg running]
    exact flagged.gate (by rw [own]; exact Bool.eq_false_iff.2 running) ok

end Twin

theorem State.storeNear_ticks {s : State} {cells : List (Nat × Byte)} (ok : (s.storeNear cells).iss.verdict = .ok) :
    ∀ p ∈ (s.storeNear cells).me.arch.pend, p ∈ s.me.arch.pend ∨ p.tick = s.me.arch.tick + 1 := by
  intro p hp
  have own := (s.rangeFlags_only 1 (cells.map Prod.fst)).own
  refine ((Adds.refl 1 s).rangeFlags (cells.map Prod.fst)).ticks ?_
  by_cases handler : s.me.intrap = true
  · simp only [State.storeNear, if_pos handler] at hp
    exact hp
  · simp only [State.storeNear, if_neg handler] at hp ok
    rw [State.gate_room (State.gateRoom_of_ok (by rw [own]; exact Bool.eq_false_iff.2 handler) ok)
      (by rw [own]; exact Bool.eq_false_iff.2 handler)] at hp
    have mine (u : State) (f : Ctx → Ctx) : (u.modCtx u.cur f).me = f u.me := State.ctx_modCtx_self u u.cur f
    rw [mine] at hp
    exact hp

/-- R66: a store at addresses that name no stream. -/
theorem settles_storeNear {cells : State → List (Nat × Byte)} (same : Same cells) :
    Settles 1 none fun s => s.storeNear (cells s) :=
  ⟨fun w _ ok => by rw [same w]; exact w.storeNear _ ok, fun _ _ ok => State.storeNear_ticks ok⟩

/-- R311: a push has to wait for a slide. -/
def State.pushWaits (s : State) (z : Nat) : Bool :=
  s.me.stackLive && decide (s.me.stklim.toNat < s.me.arch.stktop.toNat + z)
/-- R311: the bytes that a push stores, at their addresses. -/
def State.pushCells (s : State) (z v : Nat) : List (Nat × Byte) :=
  (leBytes z v).zipIdx.map fun p => ((alignDown s.me.arch.stktop.toNat (stackAlign z) + p.2) % 2 ^ 32, p.1)
/-- R311: STKTOP after a push. -/
def State.pushed (s : State) (z : Nat) : State :=
  s.modArch s.cur fun x => { x with stktop := x.stktop + BitVec.ofNat 32 z }

theorem State.push_eq (s : State) (z v : Nat) : s.push z v =
    if s.pushWaits z = true then (s.modIss fun i => { i with want := some .slide }).stall
    else if (s.storeNear (s.pushCells z v)).iss.verdict = .ok then (s.storeNear (s.pushCells z v)).pushed z
    else s.storeNear (s.pushCells z v) := rfl

theorem State.push_of_ok {s : State} {z v : Nat} (ok : (s.push z v).iss.verdict = .ok) :
    s.pushWaits z = false ∧ (s.storeNear (s.pushCells z v)).iss.verdict = .ok
      ∧ s.push z v = (s.storeNear (s.pushCells z v)).pushed z := by
  rw [State.push_eq] at ok ⊢
  by_cases waits : s.pushWaits z = true
  · rw [if_pos waits] at ok
    exact absurd ok (State.stall_not_ok _)
  · rw [if_neg waits] at ok ⊢
    by_cases stored : (s.storeNear (s.pushCells z v)).iss.verdict = .ok
    · exact ⟨Bool.eq_false_iff.2 waits, stored, if_pos stored⟩
    · rw [if_neg stored] at ok
      exact absurd ok stored

section
variable {streams : AMap Stream} {vreg : AMap VWord} {pops : NSet} {u t : State}

theorem Twin.pushWaits (h : Twin streams vreg pops u t) (z : Nat) : t.pushWaits z = u.pushWaits z := by
  rw [State.pushWaits, State.pushWaits, h.me]
  rfl
theorem Twin.pushCells (h : Twin streams vreg pops u t) (z v : Nat) : t.pushCells z v = u.pushCells z v := by
  rw [State.pushCells, State.pushCells, h.me]

end

/-- R311: a push. -/
theorem settles_push (z v : Nat) : Settles 1 none fun s => s.push z v := by
  constructor
  · intro streams vreg pops u t w _ ok
    obtain ⟨waits, stored, pushed⟩ := State.push_of_ok ok
    have both : Twin streams vreg pops (u.storeNear (u.pushCells z v)) (t.storeNear (t.pushCells z v)) := by
      rw [w.pushCells z v]
      exact w.storeNear _ stored
    have stored' : (t.storeNear (t.pushCells z v)).iss.verdict = .ok := by rw [both.iss]; exact stored
    rw [pushed, State.push_eq t, w.pushWaits z, waits, if_neg Bool.false_ne_true, if_pos stored']
    exact both.modArch (by simp only [both.me])
  · intro s _ ok p hp
    obtain ⟨-, stored, pushed⟩ := State.push_of_ok ok
    rw [pushed, State.pushed, State.me_modArch] at hp
    exact State.storeNear_ticks stored p hp

/-! Loads. -/

theorem same_rp (r : BitVec 3) : Same fun s => s.rp r := fun h => h.rp r

/-- R357: a vector load at addresses that name no stream. -/
theorem lands_vload {l : Nat} {d : BitVec 5} {mask : State → PWord} {addrs : State → List (Nat × Nat)} (sameMask : Same mask)
    (sameAddrs : Same addrs) : Lands l d fun s => s.vload l d (mask s) (addrs s) :=
  lands_landLoaded ((quiet_id l).rangeFlags fun w => by rw [sameAddrs w]) sameMask
    (fun w => by simp only [sameAddrs w, w.nearByte]) fun w => by rw [sameAddrs w, w.nearPoison]

/-- R311: a pop has to wait for an inverse slide, or finds the stack empty. -/
def State.popUnder (s : State) (z : Nat) : Bool :=
  s.me.stackLive && decide (s.me.arch.stktop.toNat < s.me.arch.stkbase.toNat + z)

/-- R311: the addresses that a pop reads. -/
def State.popAddrs (s : State) (z : Nat) : List Nat :=
  addrsFrom (alignDown ((s.me.arch.stktop.toNat + 2 ^ 32 - z) % 2 ^ 32) (stackAlign z)) z
/-- R311: the flags and STKTOP of a pop. -/
def State.popped (s : State) (z : Nat) : State :=
  if s.popUnder z = true then
    s.spvAt 4 (alignDown ((s.me.arch.stktop.toNat + 2 ^ 32 - z) % 2 ^ 32) (stackAlign z))
  else (s.rangeFlags 4 (s.popAddrs z)).modArch s.cur fun x =>
    { x with stktop := BitVec.ofNat 32 ((s.me.arch.stktop.toNat + 2 ^ 32 - z) % 2 ^ 32) }
/-- R311: the number that a pop reads. -/
def State.popValue (s : State) (z : Nat) : Nat :=
  if s.popUnder z = true then 0 else leNat ((s.popAddrs z).map (s.nearByte s.cur))
/-- R245: the poison that a pop meets. -/
def State.popBad (s : State) (z : Nat) : Option Word :=
  if s.popUnder z = true then none else (s.nearPoison s.cur (s.popAddrs z)).map fun x => BitVec.ofNat 64 (x / 64 * 64)

theorem State.pop_eq (s : State) (z : Nat) (k : Nat → Option Word → State → State) : s.pop z k =
    if (s.popUnder z && s.me.arch.depth != 0) = true then (s.modIss fun i => { i with want := some .inverse }).stall
    else k (s.popValue z) (s.popBad z) (s.popped z) := by
  show (if (s.popUnder z && s.me.arch.depth != 0) = true then _ else if s.popUnder z = true then _ else _) = _
  unfold State.popValue State.popBad State.popped
  cases s.popUnder z <;> rfl

section
variable {streams : AMap Stream} {vreg : AMap VWord} {pops : NSet} {u t : State}

theorem Twin.popUnder (h : Twin streams vreg pops u t) (z : Nat) : t.popUnder z = u.popUnder z := by
  rw [State.popUnder, State.popUnder, h.me]
  rfl
theorem Twin.popAddrs (h : Twin streams vreg pops u t) (z : Nat) : t.popAddrs z = u.popAddrs z := by
  rw [State.popAddrs, State.popAddrs, h.me]
theorem Twin.popValue (h : Twin streams vreg pops u t) (z : Nat) : t.popValue z = u.popValue z := by
  have byte : t.nearByte t.cur = u.nearByte u.cur := funext h.nearByte
  rw [State.popValue, State.popValue, h.popUnder, h.popAddrs, byte]
theorem Twin.popBad (h : Twin streams vreg pops u t) (z : Nat) : t.popBad z = u.popBad z := by
  rw [State.popBad, State.popBad, h.popUnder, h.popAddrs, h.nearPoison]

end

theorem quiet_popped (z : Nat) : Quiet 4 fun s => s.popped z := by
  constructor
  · intro streams vreg pops u t w
    have top : t.me.arch.stktop = u.me.arch.stktop := by rw [w.me]
    unfold State.popped
    rw [w.popUnder, w.popAddrs, top]
    split
    · exact w.spvAt 4 _
    · have flagged := w.rangeFlags 4 (rfl : u.popAddrs z = u.popAddrs z)
      have cur : (u.rangeFlags 4 (u.popAddrs z)).cur = u.cur := (u.rangeFlags_only ..).cur
      have cur' : (t.rangeFlags 4 (u.popAddrs z)).cur = t.cur := (t.rangeFlags_only ..).cur
      rw [← cur, ← cur']
      exact flagged.modArch (by simp only [flagged.me])
  · intro s
    unfold State.popped
    split
    · exact (Adds.refl 4 s).spvAt _
    · have cur : (s.rangeFlags 4 (s.popAddrs z)).cur = s.cur := (s.rangeFlags_only ..).cur
      rw [← cur]
      exact ((Adds.refl 4 s).rangeFlags _).modArch [] _ _ _ (by rw [List.append_nil]) fun _ hp => nomatch hp

/-- R311: a vector that is popped. -/
theorem lands_pop (d : BitVec 5) (z : Nat) (mask : PWord) :
    Lands 4 d fun s => s.pop z fun v bad s => s.landLoaded 4 d mask (BitVec.ofNat 2048 v) bad := by
  refine .mk (fun s => !(s.popUnder z && s.me.arch.depth != 0)) (fun s => s.popped z) (fun _ => mask)
    (fun s => BitVec.ofNat 2048 (s.popValue z)) (fun s => s.popBad z) (fun w => ?_) (quiet_popped z) (fun _ => rfl)
    (fun w => congrArg _ (w.popValue z)) (fun w => w.popBad z) (fun s hs => ?_) fun s hs => ?_
  · dsimp only
    rw [w.popUnder, w.me]
  · rw [State.pop_eq, if_neg (ne_true_of_eq_false ((Bool.not_eq_true' _).mp hs))]
  · rw [State.pop_eq, if_pos ((Bool.not_eq_false' _).mp hs)]
    exact State.stall_not_ok _

/-! VBNET (R296). -/

theorem Twin.choose {streams : AMap Stream} {vreg : AMap VWord} {pops : NSet} {u t : State} (h : Twin streams vreg pops u t) :
    t.choose.1 = u.choose.1 ∧ Twin streams vreg pops u.choose.2 t.choose.2 := by
  obtain ⟨⟨mem, poison, flawed, deferred, other, cores, cmds, ce, edge, cur, slot, late, choice⟩, iss, me⟩ := h
  exact ⟨congrArg Config.pick choice,
    ⟨mem, poison, flawed, deferred, other, cores, cmds, ce, edge, cur, slot, late, congrArg (· + 1) choice⟩, iss, me⟩

/-- R296: the stencil of twins is one, and what its choice leaves of them is twins. -/
theorem Twin.stencil {streams : AMap Stream} {vreg : AMap VWord} {pops : NSet} {u t : State} (h : Twin streams vreg pops u t)
    (k : Nat) : (t.stencil k).1 = (u.stencil k).1 ∧ Twin streams vreg pops (u.stencil k).2 (t.stencil k).2 := by
  have core : t.core (coreOf u.cur) = u.core (coreOf u.cur) := by rw [State.core, State.core, h.cores]
  have tick : t.me.arch.tick = u.me.arch.tick := by rw [h.me]
  unfold State.stencil
  simp only [h.cur, core, tick]
  refine List.foldl_rel (r := fun q p : BitVec 28672 × State => q.1 = p.1 ∧ Twin streams vreg pops p.2 q.2) ⟨rfl, h⟩ ?_
  rintro e - ⟨x, p⟩ ⟨y, q⟩ ⟨rfl, w⟩
  dsimp only
  split
  · exact ⟨rfl, w⟩
  · obtain ⟨same, next⟩ := w.choose
    exact ⟨by rw [same], next⟩

theorem quiet_stencil (k : Nat) : Quiet 3 fun s => (s.stencil k).2 := by
  refine ⟨fun w => (w.stencil k).2, fun s => ?_⟩
  obtain ⟨ch, hch⟩ := s.stencil_choice k
  rw [hch]
  exact ⟨rfl, rfl, [], _, _, _, by rw [List.append_nil]; rfl, fun _ hp => nomatch hp⟩

/-! Sources read one after the other (R52). -/

/-- An instruction that reads these vector sources, with landing latency l, and then does what `done` says. -/
inductive Sources (done : (State → State) → Prop) (l : Nat) : List (BitVec 5) → (State → State) → Prop
  | done {f : State → State} (h : done f) : Sources done l [] f
  | read {r : BitVec 5} {rs : List (BitVec 5)} {k : VWord → State → State} (h : ∀ x, Sources done l rs (k x)) :
    Sources done l (r :: rs) fun s => s.readV l r k

theorem Sources.imp {p q : (State → State) → Prop} {l : Nat} {rs : List (BitVec 5)} {g : State → State} (h : Sources p l rs g)
    (pq : ∀ f, p f → q f) : Sources q l rs g := by
  induction h with
  | done h => exact .done (pq _ h)
  | read _ ih => exact .read ih

/-- R137, R146: the state after the bundle has taken the unit at the head of stream q. -/
def State.took (s : State) (l q : Nat) (u : StreamUnit) : State :=
  (match s.iss.pops.contains q, u.spv with
    | false, some a => s.spvAt l a
    | _, _ => s).modIss fun i => { i with pops := i.pops.add q }

theorem State.took_noSpv {s : State} {q : Nat} {u : StreamUnit} (h : u.spv = none ∨ s.iss.pops.contains q = true) (l : Nat) :
    s.took l q u = { s with iss := { s.iss with pops := s.iss.pops.add q } } := by
  unfold State.took
  obtain h | h := h
  · cases hc : s.iss.pops.contains q <;> rw [h] <;> rfl
  · rw [h]
    rfl
theorem State.took_spv {s : State} {q a : Nat} {u : StreamUnit} (h : s.iss.pops.contains q = false) (hu : u.spv = some a)
    (l : Nat) : s.took l q u = { s.spvAt l a with iss := { s.iss with pops := s.iss.pops.add q } } := by
  unfold State.took
  rw [h, hu]
  rfl

section
variable {s : State} {r : BitVec 5} {st : Stream} {u : StreamUnit} {units : List StreamUnit}

theorem State.readV_bad (h : s.me.arch.bound r.toNat = some st) (w : st.write = false)
    (hu : AMap.get [] s.me.units (r.toNat - 24) = u :: units) {c : Cause} (bad : u.bad = some c) (l : Nat)
    (k : VWord → State → State) : s.readV l r k
      = s.raise { c with bndl := s.iss.parcel, slot := s.slot, rep := s.iss.rep, issued := s.me.arch.tick } := by
  simp [State.readV, h, w, hu, bad]

theorem State.readV_unit (h : s.me.arch.bound r.toNat = some st) (w : st.write = false)
    (hu : AMap.get [] s.me.units (r.toNat - 24) = u :: units) (good : u.bad = none) (l : Nat)
    (k : VWord → State → State) : s.readV l r k = k u.data (s.took l (r.toNat - 24) u) := by
  simp only [State.readV, h, w, hu, good, Bool.false_eq_true, if_false, List.head?_cons]
  rfl

end

theorem NSet.add_add (s : NSet) (k : Nat) : NSet.add (NSet.add s k) k = NSet.add s k := by
  induction s with
  | nil => simp [NSet.add]
  | cons a t ih =>
    by_cases same : k = a
    · simp [NSet.add, same]
    · by_cases below : k < a
      · simp [NSet.add, same, below]
      · simp [NSet.add, same, below, ih]

/-- R137, R146: what a bundle that takes a unit changes of its context. -/
theorem State.took_me (s : State) (l q : Nat) (u : StreamUnit) :
    ∃ pend io, (s.took l q u).me = { s.me with arch := { s.me.arch with pend := pend, spvio := io } }
      ∧ ∀ p ∈ pend, p ∈ s.me.arch.pend ∨ p.tick = s.me.arch.tick + l := by
  unfold State.took
  split
  · next a _ _ =>
    have own : (s.spvAt l a).me = _ := State.me_modArch s _
    refine ⟨_, _, own, fun p hp => (List.mem_append.1 hp).imp_right fun h => ?_⟩
    rw [List.mem_singleton.1 h]
  · exact ⟨_, _, rfl, fun p hp => .inl hp⟩

theorem State.took_pops (s : State) (l q : Nat) (u : StreamUnit) : (s.took l q u).iss = { s.iss with pops := s.iss.pops.add q } := by
  unfold State.took
  split <;> rfl

/-- R146: a unit that the bundle has taken is taken once. -/
theorem State.took_took (s : State) (l q : Nat) (u : StreamUnit) : (s.took l q u).took l q u = s.took l q u := by
  have popped : (s.took l q u).iss.pops.contains q = true := by
    rw [State.took_pops]
    exact List.contains_iff_mem.2 ((NSet.mem_add _ _ _).2 (.inl rfl))
  rw [State.took_noSpv (.inr popped), State.took_pops]
  dsimp only
  rw [NSet.add_add, ← State.took_pops s l q u]

namespace Sources

variable {done : (State → State) → Prop} {l : Nat} {rs : List (BitVec 5)} {g : State → State} {s t : State} {q : Nat}

/-- Up to the first source that names stream q, all sources are registers. -/
theorem first (h : Sources done l rs g) (named : ∃ r ∈ rs, r.toNat = 24 + q) (others : ∀ r ∈ rs, r.toNat = 24 + q ∨ plain s r) :
    ∃ (r : BitVec 5) (k : VWord → State → State), r.toNat = 24 + q
      ∧ ∀ t : State, t.me.arch.vreg = s.me.arch.vreg → t.me.arch.streams = s.me.arch.streams → g t = t.readV l r k := by
  induction h with
  | done => exact (let ⟨_, hr, _⟩ := named; nomatch hr)
  | @read r rs k _ ih =>
    by_cases here : r.toNat = 24 + q
    · exact ⟨r, k, here, fun _ _ _ => rfl⟩
    · have register : plain s r := (others r List.mem_cons_self).resolve_left here
      have rest : ∃ r ∈ rs, r.toNat = 24 + q := by
        obtain ⟨r', hr', named⟩ := named
        exact ⟨r', (List.mem_cons.1 hr').resolve_left fun e => here (e ▸ named), named⟩
      obtain ⟨r', k', named', reads⟩ := ih (s.me.arch.v r.toNat) rest fun r' hr' => others r' (List.mem_cons_of_mem _ hr')
      refine ⟨r', k', named', fun t vreg streams => ?_⟩
      have register' : t.me.arch.bound r.toNat = none := by
        rw [← register, Arch.bound, Arch.bound, streams]
      show t.readV l r k = _
      rw [State.readV_register register', ← reads t vreg streams, Arch.v, Arch.v, vreg]

/-- Sources that hold the same in two states, in registers or as a unit that has been taken, bring both to one end. -/
theorem both (h : Sources done l rs g)
    (reads : ∀ r ∈ rs, ∃ x, ∀ k : VWord → State → State, s.readV l r k = k x s ∧ t.readV l r k = k x t) :
    ∃ f, done f ∧ g s = f s ∧ g t = f t := by
  induction h with
  | done h => exact ⟨_, h, rfl, rfl⟩
  | @read r rs k _ ih =>
    obtain ⟨x, hx⟩ := reads r List.mem_cons_self
    obtain ⟨f, hf, hs, ht⟩ := ih x fun r' hr' => reads r' (List.mem_cons_of_mem _ hr')
    exact ⟨f, hf, ((hx k).1).trans hs, ((hx k).2).trans ht⟩

end Sources

end Sys2Proof.Machine
end

section
/-!
PROOFS. Every instruction that names a vector register reads its sources one after the other and then settles or lands a vector
register (R52, R341 to R379).
-/

namespace Sys2Proof.Machine

open Sys2Proof.Claims (vecSources vecDest)

/-- R52, R64: where its slot and FMT allow it, an instruction reads the vector sources that its word names, and then lands the
vector register that its word names, or settles without one; elsewhere it is ILLEGAL. -/
inductive VecForm (i : Instr) : Prop
  | lands (l : Nat) (d : BitVec 5) (go : Nat → BitVec 32 → Bool) (g : BitVec 32 → State → State) (dest : vecDest i = some d)
      (runs : ∀ s, exec i s = .next (if go s.slot s.me.arch.fmt = true then s.checkDst d (g s.me.arch.fmt) else s.illegal))
      (sources : ∀ fmt, Sources (Lands l d) l (vecSources i) (g fmt))
  | settles (l : Nat) (go : Nat → BitVec 32 → Bool) (g : BitVec 32 → State → State) (dest : vecDest i = none)
      (runs : ∀ s, exec i s = .next (if go s.slot s.me.arch.fmt = true then g s.me.arch.fmt s else s.illegal))
      (sources : ∀ fmt, Sources (Settles l none) l (vecSources i) (g fmt))

section
variable {i : Instr} {ok : Nat → Bool} {l : Nat} {d va vb : BitVec 5} {pg : BitVec 3} {w : EW} {zi zo : Bool}

theorem vecForm_of_dest {g : State → State} (runs : ∀ s, exec i s = inSlot ok s fun s => s.checkDst d g)
    (dest : vecDest i = some d) {rs : List (BitVec 5)} (srcs : vecSources i = rs) (sources : Sources (Lands l d) l rs g) :
    VecForm i :=
  .lands l d (fun slot _ => ok slot) (fun _ => g) dest runs fun _ => srcs ▸ sources

theorem vecForm_of_noDest {g : State → State} (runs : ∀ s, exec i s = inSlot ok s g)
    (dest : vecDest i = none) {rs : List (BitVec 5)} (srcs : vecSources i = rs) (sources : Sources (Settles l none) l rs g) :
    VecForm i :=
  .settles l (fun slot _ => ok slot) (fun _ => g) dest runs fun _ => srcs ▸ sources

/-! Element by element (R51). -/

theorem same_activeMask (w : EW) (pg : BitVec 3) : Same fun s => activeMask w (s.rp pg) :=
  fun h => congrArg (activeMask w) (h.rp pg)

theorem vecForm_vmap2 {f : Nat → Nat → Nat} (runs : ∀ s, exec i s = inSlot ok s fun s => s.vmap2 l d va vb pg w f)
    (dest : vecDest i = some d) (srcs : vecSources i = [va, vb]) : VecForm i :=
  vecForm_of_dest runs dest srcs (.read fun _ => .read fun _ => .done
    (lands_landV (quiet_id l) (same_activeMask w pg) fun _ => rfl))

theorem vecForm_vmap1 {f : Nat → Nat} (runs : ∀ s, exec i s = inSlot ok s fun s => s.vmap1 l d va pg w f)
    (dest : vecDest i = some d) (srcs : vecSources i = [va]) : VecForm i :=
  vecForm_of_dest runs dest srcs (.read fun _ => .done
    (lands_landV (quiet_id l) (same_activeMask w pg) fun _ => rfl))

theorem vecForm_vmapX {f : Nat → Nat → Nat} (runs : ∀ s, exec i s = inSlot ok s fun s => s.vmapX l d va vb pg w f)
    (dest : vecDest i = some d) (srcs : vecSources i = [va]) : VecForm i :=
  vecForm_of_dest runs dest srcs (.read fun _ => .done
    (lands_landV (quiet_id l) (same_activeMask w pg) fun h => by simp only [h.rs]))

theorem vecForm_vreduce {f : List Nat → Nat} (runs : ∀ s, exec i s = inSlot ok s fun s => s.vreduce d va pg w f)
    (dest : vecDest i = some d) (srcs : vecSources i = [va]) : VecForm i :=
  vecForm_of_dest (l := 6) runs dest srcs (.read fun _ => .done
    (lands_landV (quiet_id 6) (fun _ => rfl) fun h => by simp only [h.rp]))

theorem settles_vcmp {pd : BitVec 3} {f : State → Nat → Nat → Bool} {x y : VWord} (same : Same f) :
    Settles l none fun s => s.landP l pd.toNat (activeMask w (s.rp pg)) (laneMask w fun i => f s (lane w x i) (lane w y i)) :=
  Quiet.settles ((quiet_id l).landP (same_activeMask w pg) fun h => by simp only [same h])

theorem vecForm_vcmp {pd : BitVec 3} {f : Nat → Nat → Bool} (runs : ∀ s, exec i s = inSlot ok s fun s => s.vcmp l pd va vb pg w f)
    (dest : vecDest i = none) (srcs : vecSources i = [va, vb]) : VecForm i :=
  vecForm_of_noDest runs dest srcs (.read fun _ => .read fun _ => .done (settles_vcmp (f := fun _ => f) fun _ => rfl))

/-! Floating point (R353 to R356). -/

theorem lands_landFloat {pre : State → State} (quiet : Quiet l pre) {rs : State → List Rounded} (same : Same rs) :
    Lands l d fun s => (pre s).landFloat l d pg w zo (rs s) := by
  have fmt : Same fun s => (pre s).me.arch.fmt := fun h => (quiet.twin h).fmt
  have rp : Same fun s => (pre s).rp pg := fun h => (quiet.twin h).rp pg
  refine lands_landV (quiet.raiseFlags fun h => ?_) (fun h => congrArg _ (rp h)) fun h => ?_
  · simp only [same h, rp h]
  · simp only [same h, fmt h]

theorem vecForm_vfloat2 {op : RMode → FV → FV → FV} (runs : ∀ s, exec i s = inSlot ok s fun s => s.vfloat2 d va vb pg w zi zo op)
    (dest : vecDest i = some d) (srcs : vecSources i = [va, vb]) : VecForm i :=
  vecForm_of_dest (l := 4) runs dest srcs (.read fun _ => .read fun _ => .done
    (lands_landFloat ((quiet_id 4).drawn fun h => by rw [h.fmt]) fun h => by simp only [h.fmt, h.rngkey, h.rngctr]))

theorem vecForm_vcode2 {op : FFmt → Nat → Nat → Nat} (runs : ∀ s, exec i s = inSlot ok s fun s => s.vcode2 d va vb pg w zi zo op)
    (dest : vecDest i = some d) (srcs : vecSources i = [va, vb]) : VecForm i :=
  vecForm_of_dest (l := 4) runs dest srcs (.read fun _ => .read fun _ => .done
    (lands_landFloat (quiet_id 4) fun h => by simp only [h.fmt]))

theorem vecForm_vcode1 {op : FFmt → Nat → Nat} (runs : ∀ s, exec i s = inSlot ok s fun s => s.vcode1 d va pg w zi zo op)
    (dest : vecDest i = some d) (srcs : vecSources i = [va]) : VecForm i :=
  vecForm_of_dest (l := 4) runs dest srcs (.read fun _ => .done
    (lands_landFloat (quiet_id 4) fun h => by simp only [h.fmt]))

theorem vecForm_vfused {sub : Bool} (runs : ∀ s, exec i s = inSlot ok s fun s => s.vfused d va vb pg w zi zo sub)
    (dest : vecDest i = some d) (srcs : vecSources i = [d, va, vb]) : VecForm i :=
  vecForm_of_dest (l := 4) runs dest srcs (.read fun _ => .read fun _ => .read fun _ => .done
    (lands_landFloat ((quiet_id 4).drawn fun h => by rw [h.fmt]) fun h => by simp only [h.fmt, h.rngkey, h.rngctr]))

theorem vecForm_vfcmp {pd : BitVec 3} {op : FV → FV → Bool} (runs : ∀ s, exec i s = inSlot ok s fun s => s.vfcmp pd va vb pg w zi op)
    (dest : vecDest i = none) (srcs : vecSources i = [va, vb]) : VecForm i :=
  .settles 2 (fun slot _ => ok slot) (fun fmt s => s.vcmp 2 pd va vb pg w fun x y =>
    op (decodeF (vecFmt w fmt) (zinF (vecFmt w fmt) zi x)) (decodeF (vecFmt w fmt) (zinF (vecFmt w fmt) zi y))) dest runs
    fun fmt => srcs ▸ show Sources _ 2 [va, vb] _ from .read fun _ => .read fun _ => .done (settles_vcmp (f := fun _ x y =>
      op (decodeF (vecFmt w fmt) (zinF (vecFmt w fmt) zi x)) (decodeF (vecFmt w fmt) (zinF (vecFmt w fmt) zi y))) fun _ => rfl)

theorem vecForm_vfbest {op : FFmt → Nat → Nat → Nat} (runs : ∀ s, exec i s = inSlot ok s fun s => s.vfbest d va pg w zi zo op)
    (dest : vecDest i = some d) (srcs : vecSources i = [va]) : VecForm i :=
  vecForm_of_dest (l := 6) runs dest srcs (.read fun _ => .done
    (lands_landV ((quiet_id 6).raiseFlags fun h => by simp only [h.fmt, h.rp]) (fun _ => rfl) fun h => by
      simp only [h.fmt, h.rp]))

theorem vecForm_vfrsum : VecForm (.vfrsum d va pg w zi zo) :=
  vecForm_of_dest (l := 6) (d := d) (fun _ => rfl) rfl rfl (.read fun _ => .done
    (lands_landV ((quiet_id 6).raiseFlags fun h => by simp only [h.fmt, h.rp]) (fun _ => rfl) fun h => by
      simp only [h.fmt, h.rp]))

theorem vecForm_vspecial {fn : SpecFn} (runs : ∀ s, exec i s = inSlot ok s fun s => s.vspecial d va pg w zi zo fn)
    (dest : vecDest i = some d) (srcs : vecSources i = [va]) : VecForm i :=
  vecForm_of_dest (l := 8) runs dest srcs (.read fun _ => .done
    (lands_landFloat (quiet_id 8) fun h => by simp only [h.fmt]))

/-- R348: what a VDOT or VDOTA whose SEG is legal does with its sources. -/
def State.landDot (s : State) (fmt : BitVec 32) (d : BitVec 5) (pf : BitVec 3) (w : EW) (zi acc : Bool) (z x y : VWord) : State :=
  let f := vecFmt w fmt
  let len := Nat.min (8 * 2 ^ fld fmt 20 18) w.count
  let val := fun (v : VWord) (i : Nat) => decodeF f (zinF f zi (lane w v i))
  let sums := (List.range (w.count / len)).map fun k =>
    let ps := (List.range len).map fun j => mulFV (val x (k * len + j)) (val y (k * len + j))
    windowSum (if acc then ps ++ [decodeF fp32 (zinF fp32 zi (lane .w32 z k))] else ps) (awinBits (fld fmt 16 14))
  let q := BitVec.ofNat 256 (packNat 4 (sums.map fun r => if r.lsf then 15 else 0))
  ((s.raiseFlags 6 (flagsOf false false (sums.any WSum.lsf) (sums.any WSum.ufl))).landP 6 pf.toNat allLanes q).landV
    6 d allLanes (BitVec.ofNat 2048 (packNat 32 (sums.map WSum.bits)))

theorem lands_landDot {fmt : BitVec 32} {acc : Bool} {pf : BitVec 3} {z x y : VWord} :
    Lands 6 d fun s => s.landDot fmt d pf w zi acc z x y :=
  lands_landV (((quiet_id 6).raiseFlags fun _ => rfl).landP (fun _ => rfl) fun _ => rfl) (fun _ => rfl) fun _ => rfl

/-- R64, R348: the slots and the SEG of a VDOT or VDOTA. -/
def dotGo (slot : Nat) (fmt : BitVec 32) : Bool := slotVector slot && !decide (6 ≤ fld fmt 20 18)

theorem runs_vdot {acc : Bool} {pf : BitVec 3} {g : BitVec 32 → State → State}
    (runs : ∀ s, exec i s = inVW s fun s => s.vdot d va vb pf w zi acc)
    (legal : ∀ s : State, ¬6 ≤ fld s.me.arch.fmt 20 18 → s.vdot d va vb pf w zi acc = s.checkDst d (g s.me.arch.fmt)) (s : State) :
    exec i s = .next (if dotGo s.slot s.me.arch.fmt = true then s.checkDst d (g s.me.arch.fmt) else s.illegal) := by
  rw [runs, inVW, inSlot]
  by_cases slot : slotVector s.slot = true
  · by_cases seg : 6 ≤ fld s.me.arch.fmt 20 18
    · have no : dotGo s.slot s.me.arch.fmt = false := by simp [dotGo, seg]
      have stop : s.vdot d va vb pf w zi acc = s.illegal := if_pos seg
      rw [if_pos slot, no, if_neg Bool.false_ne_true, stop]
    · have go : dotGo s.slot s.me.arch.fmt = true := by simp [dotGo, slot, seg]
      rw [if_pos slot, if_pos go, legal s seg]
  · have no : dotGo s.slot s.me.arch.fmt = false := by simp [dotGo, slot]
    rw [if_neg slot, no, if_neg Bool.false_ne_true]

/-- R348: VDOT reads two sources, and VDOTA its addend before them. -/
def dotSources (d va vb : BitVec 5) (pf : BitVec 3) (w : EW) (zi acc : Bool) (fmt : BitVec 32) : State → State :=
  let sum (z : VWord) (s : State) : State := s.readV 6 va fun x s => s.readV 6 vb fun y s => s.landDot fmt d pf w zi acc z x y
  if acc then fun s => s.readV 6 d sum else sum 0

theorem State.vdot_legal {pf : BitVec 3} {acc : Bool} (s : State) (seg : ¬6 ≤ fld s.me.arch.fmt 20 18) :
    s.vdot d va vb pf w zi acc = s.checkDst d (dotSources d va vb pf w zi acc s.me.arch.fmt) := by
  unfold State.vdot dotSources State.landDot
  dsimp only
  rw [if_neg seg]
  cases acc with
  | false => rfl
  | true => rfl

theorem sources_dot {pf : BitVec 3} {fmt : BitVec 32} :
    Sources (Lands 6 d) 6 [va, vb] (dotSources d va vb pf w zi false fmt) := by
  simp only [dotSources, Bool.false_eq_true, if_false]
  exact .read fun _ => .read fun _ => .done lands_landDot
theorem sources_dotAcc {pf : BitVec 3} {fmt : BitVec 32} :
    Sources (Lands 6 d) 6 [d, va, vb] (dotSources d va vb pf w zi true fmt) := by
  simp only [dotSources, if_true]
  exact .read fun _ => .read fun _ => .read fun _ => .done lands_landDot

theorem vecForm_vdot {pf : BitVec 3} : VecForm (.vdot d va vb pf w zi zo) :=
  have runs (s : State) : exec (.vdot d va vb pf w zi zo) s = execVdot d va vb pf w zi zo s := rfl
  .lands 6 d dotGo _ rfl (runs_vdot runs State.vdot_legal) fun _ => sources_dot

theorem vecForm_vdota {pf : BitVec 3} : VecForm (.vdota d va vb pf w zi zo) :=
  have runs (s : State) : exec (.vdota d va vb pf w zi zo) s = execVdota d va vb pf w zi zo s := rfl
  .lands 6 d dotGo _ rfl (runs_vdot runs State.vdot_legal) fun _ => sources_dotAcc

end

end Sys2Proof.Machine
end

section
/-!
PROOFS. The instructions with a meaning of their own among those that name vector registers (R343 to R345, R352, R357 to R368,
R371, R375 to R379), and the form of every one of them.
-/

namespace Sys2Proof.Machine

open Sys2Proof.Claims (vecSources vecDest)

section
variable {d a b : BitVec 5} {pg : BitVec 3} {w : EW}

/-! Slots V and W. -/

theorem vecForm_vadds : VecForm (.vadds d a b pg w) :=
  have runs (s : State) : exec (.vadds d a b pg w) s = execVadds d a b pg w s := rfl
  vecForm_of_dest (l := 2) runs rfl rfl (.read fun _ => .read fun _ => .done
    (lands_landV ((quiet_id 2).raiseFlags fun h => by simp only [h.rp]) (same_activeMask w pg) fun _ => rfl))

theorem vecForm_vbcast : VecForm (.vbcast d a pg w) :=
  have runs (s : State) : exec (.vbcast d a pg w) s = execVbcast d a pg w s := rfl
  vecForm_of_dest (l := 2) runs rfl rfl (.done
    (lands_landV (quiet_id 2) (same_activeMask w pg) fun h => by simp only [h.rs]))

theorem vecForm_viota : VecForm (.viota d pg w) :=
  have runs (s : State) : exec (.viota d pg w) s = execViota d pg w s := rfl
  vecForm_of_dest (l := 2) runs rfl rfl (.done
    (lands_landV (quiet_id 2) (same_activeMask w pg) fun _ => rfl))

theorem vecForm_vsel : VecForm (.vsel d a b pg w) :=
  have runs (s : State) : exec (.vsel d a b pg w) s = execVsel d a b pg w s := rfl
  vecForm_of_dest (l := 2) runs rfl rfl (.read fun _ => .read fun _ => .done
    (lands_landV (quiet_id 2) (fun _ => rfl) fun h => by simp only [h.rp]))

theorem vecForm_vextr : VecForm (.vextr d a b w) :=
  have runs (s : State) : exec (.vextr d a b w) s = execVextr d a b w s := rfl
  vecForm_of_noDest (l := 3) runs rfl rfl (.read fun _ => .done
    (Quiet.settles ((quiet_id 3).landS fun h => by simp only [h.rs])))

theorem vecForm_vins : VecForm (.vins d a b w) :=
  have runs (s : State) : exec (.vins d a b w) s = execVins d a b w s := rfl
  vecForm_of_dest (l := 2) runs rfl rfl (.done
    (lands_landV (quiet_id 2) (fun h => by simp only [h.rs]) fun h => by simp only [h.rs]))

theorem vecForm_vperm : VecForm (.vperm d a b pg w) :=
  have runs (s : State) : exec (.vperm d a b pg w) s = execVperm d a b pg w s := rfl
  vecForm_of_dest (l := 3) runs rfl rfl (.read fun _ => .read fun _ => .done
    (lands_landV (quiet_id 3) (same_activeMask w pg) fun _ => rfl))

theorem vecForm_vrot : VecForm (.vrot d a b pg w) :=
  have runs (s : State) : exec (.vrot d a b pg w) s = execVrot d a b pg w s := rfl
  vecForm_of_dest (l := 3) runs rfl rfl (.read fun _ => .done
    (lands_landV (quiet_id 3) (same_activeMask w pg) fun h => by simp only [h.rs]))

theorem vecForm_vrev : VecForm (.vrev d a pg w) :=
  have runs (s : State) : exec (.vrev d a pg w) s = execVrev d a pg w s := rfl
  vecForm_of_dest (l := 3) runs rfl rfl (.read fun _ => .done
    (lands_landV (quiet_id 3) (same_activeMask w pg) fun _ => rfl))

theorem vecForm_vbnet {k : BitVec 3} : VecForm (.vbnet d a b k) :=
  have runs (s : State) : exec (.vbnet d a b k) s = execVbnet d a b k s := rfl
  vecForm_of_dest (ok := (· == 5)) (l := 3) runs rfl rfl (.read fun _ => .read fun _ => .done
    (lands_landV (quiet_stencil k.toNat) (fun _ => rfl) fun h => by simp only [(h.stencil k.toNat).1]))

/-! Slot M. -/

theorem vecForm_vld {off : BitVec 12} : VecForm (.vld d a pg off) :=
  have runs (s : State) : exec (.vld d a pg off) s = execVld d a pg off s := rfl
  vecForm_of_dest (ok := (· == 3)) (l := 4) runs rfl rfl (.done
    (lands_vload (same_rp pg) fun h => by simp only [h.rp, h.rs]))

theorem vecForm_vst {off : BitVec 12} : VecForm (.vst d a pg off) :=
  have runs (s : State) : exec (.vst d a pg off) s = execVst d a pg off s := rfl
  vecForm_of_noDest (ok := (· == 3)) (l := 1) runs rfl rfl (.read fun _ => .done
    (settles_storeNear fun h => by simp only [h.rp, h.rs]))

theorem Twin.strided {streams : AMap Stream} {vreg : AMap VWord} {pops : NSet} {u t : State} (h : Twin streams vreg pops u t)
    (a b : BitVec 5) (w : EW) : t.strided a b w = u.strided a b w := by
  rw [State.strided, State.strided, h.rs, h.rs]
theorem Twin.indexed {streams : AMap Stream} {vreg : AMap VWord} {pops : NSet} {u t : State} (h : Twin streams vreg pops u t)
    (a : BitVec 5) (x : VWord) (w : EW) : t.indexed a x w = u.indexed a x w := by
  rw [State.indexed, State.indexed, h.rs]

theorem vecForm_vlds : VecForm (.vlds d a b w) :=
  have runs (s : State) : exec (.vlds d a b w) s = execVlds d a b w s := rfl
  vecForm_of_dest (ok := (· == 3)) (l := 6) runs rfl rfl (.done
    (lands_vload (fun _ => rfl) fun h => by simp only [h.strided]))

theorem vecForm_vsts : VecForm (.vsts d a b w) :=
  have runs (s : State) : exec (.vsts d a b w) s = execVsts d a b w s := rfl
  vecForm_of_noDest (ok := (· == 3)) (l := 1) runs rfl rfl (.read fun _ => .done
    (settles_storeNear fun h => by simp only [h.strided]))

theorem vecForm_vgath : VecForm (.vgath d a b w) :=
  have runs (s : State) : exec (.vgath d a b w) s = execVgath d a b w s := rfl
  vecForm_of_dest (ok := (· == 3)) (l := 8) runs rfl rfl (.read fun _ => .done
    (lands_vload (fun _ => rfl) fun h => by simp only [h.indexed]))

theorem vecForm_vscat : VecForm (.vscat d a b w) :=
  have runs (s : State) : exec (.vscat d a b w) s = execVscat d a b w s := rfl
  vecForm_of_noDest (ok := (· == 3)) (l := 1) runs rfl rfl (.read fun _ => .read fun _ => .done
    (settles_storeNear fun h => by simp only [h.indexed]))

theorem vecForm_vspill : VecForm (.vspill d) :=
  have runs (s : State) : exec (.vspill d) s = execVspill d s := rfl
  vecForm_of_noDest (ok := (· == 3)) (l := 1) runs rfl rfl (.read fun x => .done (settles_push 256 x.toNat))

theorem vecForm_vfill : VecForm (.vfill d) :=
  have runs (s : State) : exec (.vfill d) s = execVfill d s := rfl
  vecForm_of_dest (ok := (· == 3)) (l := 4) runs rfl rfl (.done (lands_pop d 256 allLanes))

/-! Slot X. -/

theorem vecForm_xcvt {df sf : XFmt} {rm : XRm} {sat : Bool} {part : BitVec 3} : VecForm (.xcvt d a df sf rm sat part) :=
  have runs (s : State) : exec (.xcvt d a df sf rm sat part) s = execXcvt d a df sf rm sat part s := rfl
  vecForm_of_dest (ok := (· == 6)) (l := 4) runs rfl rfl (.read fun _ => .done
    (lands_landV (((quiet_id 4).drawn fun h => by simp only [h.fmt]).raiseFlags fun h => by
      simp only [h.fmt, h.rngkey, h.rngctr]) (fun _ => rfl) fun h => by simp only [h.fmt, h.rngkey, h.rngctr]))

theorem vecForm_xexp {kind : XKind} {part : BitVec 3} : VecForm (.xexp d a kind part) :=
  have runs (s : State) : exec (.xexp d a kind part) s = execXexp d a kind part s := rfl
  vecForm_of_dest (ok := (· == 6)) (l := 5) runs rfl rfl (.read fun _ => .done
    (lands_landV (quiet_id 5) (fun _ => rfl) fun _ => rfl))

theorem vecForm_xpack {kind : XKind} {part : BitVec 3} : VecForm (.xpack d a kind part) :=
  have runs (s : State) : exec (.xpack d a kind part) s = execXpack d a kind part s := rfl
  vecForm_of_dest (ok := (· == 6)) (l := 5) runs rfl rfl (.read fun _ => .done
    (lands_landV (((quiet_id 5).drawn fun h => by simp only [h.fmt]).raiseFlags fun h => by
      simp only [h.fmt, h.rngkey, h.rngctr]) (fun _ => rfl) fun h => by simp only [h.fmt, h.rngkey, h.rngctr]))

theorem vecForm_xtrn {shape : XShape} : VecForm (.xtrn d a shape) :=
  have runs (s : State) : exec (.xtrn d a shape) s = execXtrn d a shape s := rfl
  vecForm_of_dest (ok := (· == 6)) (l := 5) runs rfl rfl (.read fun _ => .done
    (lands_landV (quiet_id 5) (fun _ => rfl) fun _ => rfl))

theorem vecForm_xscl : VecForm (.xscl d a b) :=
  have runs (s : State) : exec (.xscl d a b) s = execXscl d a b s := rfl
  vecForm_of_dest (ok := (· == 6)) (l := 6) runs rfl rfl (.read fun _ => .done
    (lands_landV (quiet_id 6) (fun _ => rfl) fun h => by simp only [h.fmt, h.rs]))

theorem vecForm_xqnt : VecForm (.xqnt d a b) :=
  have runs (s : State) : exec (.xqnt d a b) s = execXqnt d a b s := rfl
  vecForm_of_dest (ok := (· == 6)) (l := 6) runs rfl rfl (.read fun _ => .done
    (lands_landV ((((quiet_id 6).drawn fun h => by simp only [h.fmt]).raiseFlags fun h => by
      simp only [h.fmt, h.rngkey, h.rngctr]).landS fun h => by simp only [h.fmt]) (fun _ => rfl) fun h => by
      simp only [h.fmt, h.rngkey, h.rngctr]))

end

/-- R52: an instruction names no vector register, or is of the form. -/
theorem vecForm (i : Instr) : (vecSources i = [] ∧ vecDest i = none) ∨ VecForm i := by
  cases i with
  | vadd | vsub | vmul | vmulh | vmin | vmax | vand | vor | vxor | vandn | vshl | vshr | vsra | vrotl =>
    exact .inr (vecForm_vmap2 (fun _ => rfl) rfl rfl)
  | vabs | vmov | vpopc | vclz => exact .inr (vecForm_vmap1 (fun _ => rfl) rfl rfl)
  | vaddx | vsubx | vmulx | vshlx | vshrx | vsrax | vminx | vmaxx => exact .inr (vecForm_vmapX (fun _ => rfl) rfl rfl)
  | vceq | vcne | vclt | vcle | vcltu | vcleu => exact .inr (vecForm_vcmp (fun _ => rfl) rfl rfl)
  | vrsum | vrmax | vrmin => exact .inr (vecForm_vreduce (fun _ => rfl) rfl rfl)
  | vfadd | vfsub | vfmul => exact .inr (vecForm_vfloat2 (fun _ => rfl) rfl rfl)
  | vfmin | vfmax | vfcps => exact .inr (vecForm_vcode2 (fun _ => rfl) rfl rfl)
  | vfabs | vfneg => exact .inr (vecForm_vcode1 (fun _ => rfl) rfl rfl)
  | vfma | vfms => exact .inr (vecForm_vfused (fun _ => rfl) rfl rfl)
  | vfeq | vfne | vflt | vfle | vfun => exact .inr (vecForm_vfcmp (fun _ => rfl) rfl rfl)
  | vfrmax | vfrmin => exact .inr (vecForm_vfbest (fun _ => rfl) rfl rfl)
  | vrcp | vrsq | vsqrt | vexp2 | vlog2 | vtanh | vsinpi | verf => exact .inr (vecForm_vspecial (ok := (· == 5)) (fun _ => rfl) rfl rfl)
  | vfrsum => exact .inr vecForm_vfrsum
  | vdot => exact .inr vecForm_vdot
  | vdota => exact .inr vecForm_vdota
  | vadds => exact .inr vecForm_vadds
  | vbcast => exact .inr vecForm_vbcast
  | viota => exact .inr vecForm_viota
  | vsel => exact .inr vecForm_vsel
  | vextr => exact .inr vecForm_vextr
  | vins => exact .inr vecForm_vins
  | vperm => exact .inr vecForm_vperm
  | vrot => exact .inr vecForm_vrot
  | vrev => exact .inr vecForm_vrev
  | vbnet => exact .inr vecForm_vbnet
  | vld => exact .inr vecForm_vld
  | vst => exact .inr vecForm_vst
  | vlds => exact .inr vecForm_vlds
  | vsts => exact .inr vecForm_vsts
  | vgath => exact .inr vecForm_vgath
  | vscat => exact .inr vecForm_vscat
  | vspill => exact .inr vecForm_vspill
  | vfill => exact .inr vecForm_vfill
  | xcvt => exact .inr vecForm_xcvt
  | xexp => exact .inr vecForm_xexp
  | xpack => exact .inr vecForm_xpack
  | xtrn => exact .inr vecForm_xtrn
  | xscl => exact .inr vecForm_xscl
  | xqnt => exact .inr vecForm_xqnt
  | _ => exact .inl ⟨rfl, rfl⟩

end Sys2Proof.Machine
end

section
/-!
PROOFS. A vector source that names a read stream, and a vector destination that names a write stream, do what a register would
(R52, R137, R146 to R148).
-/

namespace Sys2Proof.Machine

open Sys2Proof.Claims (apart plain registered vecSources vecDest)

/-! A state in which the name of a stream is a register. -/

section
variable {s : State} {q : Nat} {v : VWord} {r : BitVec 5} {st : Stream}

theorem registered_me (s : State) (q : Nat) (v : VWord) : (registered s q v).me = { s.me with arch := { s.me.arch with
    streams := AMap.del s.me.arch.streams q, vreg := AMap.put s.me.arch.vreg (24 + q) v } } := State.ctx_setCtx_self ..

theorem registered_twin (s : State) (q : Nat) (v : VWord) (pops : NSet) : Twin s.me.arch.streams s.me.arch.vreg pops
    (registered s q v) { s with iss := { s.iss with pops := pops } } := by
  refine ⟨⟨rfl, rfl, rfl, rfl, fun g hg => (State.ctx_setCtx_other s _ hg).symm, rfl, rfl, rfl, rfl, rfl, rfl, rfl, rfl⟩, rfl, ?_⟩
  rw [registered_me]
  rfl

theorem plain_registered (h : r.toNat = 24 + q ∨ plain s r) : plain (registered s q v) r := by
  unfold plain at h ⊢
  rw [registered_me]
  unfold Arch.bound at h ⊢
  split
  · rfl
  · next high =>
    rw [if_neg high] at h
    by_cases named : r.toNat - 24 = q
    · rw [named, AMap.find_del_self]
    · rw [AMap.find_del, if_neg named]
      exact h.resolve_left fun e => named (by omega)

theorem registered_v_self : (registered s q v).me.arch.v (24 + q) = v := by
  rw [registered_me]
  exact AMap.get_put_self ..
theorem registered_v_other {n : Nat} (h : n ≠ 24 + q) : (registered s q v).me.arch.v n = s.me.arch.v n := by
  rw [registered_me]
  exact AMap.get_put_other _ _ _ h

end

/-! Sources. -/

/-- An instruction of the form, where its destination is no stream: it settles when it has read its sources. -/
theorem VecForm.settled {i : Instr} (h : VecForm i) : ∃ (l : Nat) (go : Nat → BitVec 32 → Bool) (g : BitVec 32 → State → State),
    (∀ s, (∀ d, vecDest i = some d → plain s d) →
      exec i s = .next (if go s.slot s.me.arch.fmt = true then g s.me.arch.fmt s else s.illegal))
    ∧ ∀ fmt, Sources (Settles l (vecDest i)) l (vecSources i) (g fmt) := by
  cases h with
  | lands l d go g dest runs sources =>
    refine ⟨l, go, g, fun s hs => ?_, fun fmt => ?_⟩
    · rw [runs, State.checkDst_register (hs d dest)]
    · rw [dest]
      exact (sources fmt).imp fun f hf => hf.settles
  | settles l go g dest runs sources =>
    refine ⟨l, go, g, fun s _ => runs s, fun fmt => ?_⟩
    rw [dest]
    exact sources fmt

section
variable {i : Instr} {q : Nat} {st : Stream} {s : State} {u : StreamUnit} {units : List StreamUnit} {l : Nat}

theorem State.took_bound (s : State) (l q : Nat) (u : StreamUnit) (r : Nat) :
    (s.took l q u).me.arch.bound r = s.me.arch.bound r := by
  obtain ⟨_, _, own, -⟩ := s.took_me l q u
  rw [own]
  rfl

/-- R146: where a bundle has taken the unit of a stream, the stream's name reads as that unit and takes nothing more. -/
theorem State.readV_took {r : BitVec 5} (h : s.me.arch.bound (24 + q) = some st) (w : st.write = false)
    (hu : AMap.get [] s.me.units q = u :: units) (good : u.bad = none) (named : r.toNat = 24 + q) (k : VWord → State → State) :
    (s.took l q u).readV l r k = k u.data (s.took l q u) := by
  have index : r.toNat - 24 = q := by omega
  have units : AMap.get [] (s.took l q u).me.units (r.toNat - 24) = u :: units := by
    obtain ⟨_, _, own, -⟩ := s.took_me l q u
    rw [own, index]
    exact hu
  have bound : (s.took l q u).me.arch.bound r.toNat = some st := by
    rw [State.took_bound, named]
    exact h
  rw [State.readV_unit bound w units good, index, State.took_took]

theorem readV_first {r : BitVec 5} (h : s.me.arch.bound (24 + q) = some st) (w : st.write = false)
    (hu : AMap.get [] s.me.units q = u :: units) (good : u.bad = none) (named : r.toNat = 24 + q) (k : VWord → State → State) :
    s.readV l r k = (s.took l q u).readV l r k := by
  have index : r.toNat - 24 = q := by omega
  rw [State.readV_took h w hu good named, State.readV_unit (named ▸ h) w (index ▸ hu) good, index]

/-- R146: sources that are registers or name a stream whose unit the bundle has taken. -/
theorem reads_took {done : (State → State) → Prop} {rs : List (BitVec 5)} {g : State → State} (src : Sources done l rs g)
    (h : s.me.arch.bound (24 + q) = some st) (w : st.write = false) (hu : AMap.get [] s.me.units q = u :: units)
    (good : u.bad = none) (others : ∀ r ∈ rs, r.toNat = 24 + q ∨ plain s r) :
    ∃ f, done f ∧ g (registered s q u.data) = f (registered s q u.data) ∧ g (s.took l q u) = f (s.took l q u) := by
  refine src.both fun r hr => ?_
  by_cases named : r.toNat = 24 + q
  · refine ⟨u.data, fun k => ⟨?_, State.readV_took h w hu good named k⟩⟩
    rw [State.readV_register (plain_registered (.inl named)), named, registered_v_self]
  · have register := (others r hr).resolve_left named
    refine ⟨s.me.arch.v r.toNat, fun k => ⟨?_, ?_⟩⟩
    · rw [State.readV_register (plain_registered (.inr register)), registered_v_other named]
    · have same : (s.took l q u).me.arch.v r.toNat = s.me.arch.v r.toNat := by
        obtain ⟨_, _, own, -⟩ := s.took_me l q u
        rw [own]
        rfl
      rw [State.readV_register ((s.took_bound l q u _).trans register), same]

end

/-- Of an instruction with a vector source: one that names a read stream does what a register with the unit would do. -/
theorem streamSource (i : Instr) (q : Nat) (st : Stream) (s : State) (h : s.me.arch.bound (24 + q) = some st)
    (named : ∃ r ∈ vecSources i, r.toNat = 24 + q) (others : ∀ r ∈ vecSources i, r.toNat = 24 + q ∨ plain s r)
    (dest : ∀ d, vecDest i = some d → plain s d)
    (runs : ∃ v t, exec i (registered s q v) = .next t ∧ t.iss.verdict = .ok) :
    (st.write = true → exec i s = .next s.illegal)
    ∧ (st.write = false → AMap.get [] s.me.units q = [] →
        exec i s = .next { s with iss := { s.iss with verdict := .stall } })
    ∧ ∀ u l, st.write = false → AMap.get [] s.me.units q = u :: l →
      (∀ c, u.bad = some c → exec i s = .next
        (s.raise { c with bndl := s.iss.parcel, slot := s.slot, rep := s.iss.rep, issued := s.me.arch.tick }))
      ∧ (∀ x, u.bad = none → u.spv = some x → s.iss.pops.contains q = false → ∃ lat,
        exec i s = exec i { s.spvAt lat x with iss := { s.iss with pops := s.iss.pops.add q } }
        ∧ ∀ t, exec i s = .next t → t.iss.verdict = .ok → ∀ p ∈ t.me.arch.pend,
          p ∈ s.me.arch.pend ∨ p.tick = s.me.arch.tick + lat)
      ∧ ∀ t, u.bad = none → u.spv = none ∨ s.iss.pops.contains q = true → exec i (registered s q u.data) = .next t →
        t.iss.verdict = .ok → ∃ t', exec i s = .next t' ∧ apart t t' ∧ t'.iss = { t.iss with pops := s.iss.pops.add q }
        ∧ t'.me = { t.me with arch := { t.me.arch with streams := s.me.arch.streams, vreg := s.me.arch.vreg } } := by
  obtain form := (vecForm i).resolve_left fun none => by
    obtain ⟨r, hr, -⟩ := named
    rw [none.1] at hr
    exact nomatch hr
  obtain ⟨l, go, g, is, src⟩ := form.settled
  have dest' (v : VWord) : ∀ d, vecDest i = some d → plain (registered s q v) d := fun d hd => plain_registered (.inr (dest d hd))
  have fmt (v : VWord) : (registered s q v).me.arch.fmt = s.me.arch.fmt := by rw [registered_me]
  have goes : go s.slot s.me.arch.fmt = true := by
    obtain ⟨v, t, ht, ok⟩ := runs
    by_contra stop
    rw [is _ (dest' v), fmt, if_neg (show ¬go (registered s q v).slot s.me.arch.fmt = true from stop)] at ht
    injection ht with ht
    exact State.raise_not_ok _ _ (ht ▸ ok)
  have whole : exec i s = .next (g s.me.arch.fmt s) := by rw [is s dest, if_pos goes]
  obtain ⟨r, k, here, first⟩ := (src s.me.arch.fmt).first named others
  have reads : g s.me.arch.fmt s = s.readV l r k := first s rfl rfl
  have index : r.toNat - 24 = q := by omega
  have taken (u : StreamUnit) (units : List StreamUnit) (w : st.write = false) (hu : AMap.get [] s.me.units q = u :: units)
      (good : u.bad = none) : ∃ f, Settles l (vecDest i) f
        ∧ exec i (registered s q u.data) = .next (f (registered s q u.data)) ∧ exec i s = .next (f (s.took l q u))
        ∧ exec i (s.took l q u) = .next (f (s.took l q u)) := by
    obtain ⟨f, settles, ends, ends'⟩ := reads_took (src s.me.arch.fmt) h w hu good others
    obtain ⟨_, _, own, -⟩ := s.took_me l q u
    have same : g s.me.arch.fmt s = f (s.took l q u) := by
      rw [← ends', reads, readV_first h w hu good here, first _ (by rw [own]) (by rw [own])]
    have slot : (s.took l q u).slot = s.slot := by
      unfold State.took
      split <;> rfl
    have fmt' : (s.took l q u).me.arch.fmt = s.me.arch.fmt := by rw [own]
    refine ⟨f, settles, ?_, by rw [whole, same], ?_⟩
    · rw [is _ (dest' _), fmt, if_pos (show go (registered s q u.data).slot s.me.arch.fmt = true from goes), ends]
    · rw [is _ fun d hd => (s.took_bound l q u _).trans (dest d hd), fmt', slot, if_pos goes, ends']
  refine ⟨fun w => ?_, fun w hu => ?_, fun u units w hu => ⟨fun c bad => ?_, fun x good spv new => ⟨l, ?_, ?_⟩, ?_⟩⟩
  · rw [whole, reads, State.readV_write (here ▸ h) w]
  · rw [whole, reads, State.readV_empty (here ▸ h) w (index ▸ hu)]
    rfl
  · rw [whole, reads, State.readV_bad (here ▸ h) w (index ▸ hu) bad]
  · obtain ⟨f, -, -, ends, again⟩ := taken u units w hu good
    rw [ends, ← again, State.took_spv new spv]
  · intro t ht ok p hp
    obtain ⟨f, settles, -, ends, -⟩ := taken u units w hu good
    obtain rfl : f (s.took l q u) = t := by
      rw [ends] at ht
      injection ht
    obtain ⟨_, _, own, each⟩ := s.took_me l q u
    have later := settles.ticks _ (fun d hd => (s.took_bound l q u _).trans (dest d hd)) ok p hp
    rw [own] at later
    exact later.elim (each p) .inr
  · intro t good taken' ht ok
    obtain ⟨f, settles, runs', ends, -⟩ := taken u units w hu good
    obtain rfl : f (registered s q u.data) = t := by
      rw [runs'] at ht
      injection ht
    have twin := registered_twin s q u.data (s.iss.pops.add q)
    rw [← State.took_noSpv taken' l] at twin
    have both := settles.twin twin (fun d hd => ⟨dest' _ d hd, (s.took_bound l q u _).trans (dest d hd)⟩) ok
    exact ⟨_, ends, both.apart, both.iss, both.me⟩

end Sys2Proof.Machine
end

section
/-!
PROOFS. A vector destination that names a write stream is pushed what a register would take (R52, R137, R147, R239).
-/

namespace Sys2Proof.Machine

open Sys2Proof.Claims (apart plain registered vecSources vecDest storeRoom storeEntries)

/-! Pushes. -/

section
variable {s : State} {d : BitVec 5} {st : Stream}

theorem State.checkDst_write (h : s.me.arch.bound d.toNat = some st) (w : st.write = true) (k : State → State) :
    s.checkDst d k = k s := by simp [State.checkDst, h, w]
theorem State.checkDst_read (h : s.me.arch.bound d.toNat = some st) (w : st.write = false) (k : State → State) :
    s.checkDst d k = s.illegal := by simp [State.checkDst, h, w]

/-- R146: a stream that has its last unit takes no more. -/
theorem State.landLoaded_full (h : s.me.arch.bound d.toNat = some st) (w : st.write = true)
    (full : streamTotal st.desc ≤ 256 * st.pos) (l : Nat) (mask : PWord) (v : VWord) (bad : Option Word) :
    s.landLoaded l d mask v bad = s.stall := by
  have stalls : s.landV l d mask v = s.stall := by simp [State.landV, h, w, full]
  have stopped : (s.stall.iss.verdict == .ok) = false := rfl
  simp only [State.landLoaded, h, stalls, stopped, Bool.and_false, Bool.false_eq_true, if_false]

/-- R147: a push that reaches the gated buffer moves its stream on. -/
def State.streamOn (s : State) (q : Nat) (st : Stream) : State :=
  s.modArch s.cur fun a => { a with streams := AMap.put a.streams q { st with pos := st.pos + 1 } }

theorem State.landV_push (h : s.me.arch.bound d.toNat = some st) (w : st.write = true)
    (more : 256 * st.pos < streamTotal st.desc) (l : Nat) (mask : PWord) (v : VWord)
    (ok : ((s.pushSpv l st).gate (.push (d.toNat - 24) st.pos st.desc (merge (s.me.arch.v d.toNat) v (byteMask mask)) [])).iss.verdict
      = .ok) :
    s.landV l d mask v = ((s.pushSpv l st).gate (.push (d.toNat - 24) st.pos st.desc
      (merge (s.me.arch.v d.toNat) v (byteMask mask)) [])).streamOn (d.toNat - 24) st := by
  unfold State.landV
  rw [h]
  dsimp only
  rw [if_neg (by simp [w]), if_neg (Nat.not_le.2 more), if_pos ok]
  rfl

end

/-- R239: where there is room outside a handler, a push is one more entry of the gated buffer. -/
theorem State.gate_push {s : State} (room : storeRoom s) (trap : s.me.intrap = false) {q unit : Nat} {desc : BitVec 512}
    {data : VWord} : s.gate (.push q unit desc data []) = s.modCtx s.cur fun x =>
      { x with gated := x.gated ++ [⟨x.serial, x.arch.tick, .push q unit desc data []⟩] } :=
  State.gate_room (State.gateRoom_store (room.resolve_left fun h => nomatch trap.symm.trans h) rfl rfl) trap

/-- R147, R239: where there is room outside a handler, what is pushed inside the ranges of a stream is gated. -/
theorem State.landV_room {s : State} {d : BitVec 5} {st : Stream} (h : s.me.arch.bound d.toNat = some st) (w : st.write = true)
    (more : 256 * st.pos < streamTotal st.desc) (room : storeRoom s) (trap : s.me.intrap = false)
    (inside : s.me.outOfRange (streamUnit st.desc st.pos) = none) (running : s.iss.verdict = .ok) (l : Nat) (mask : PWord)
    (v : VWord) : s.landV l d mask v = (s.modCtx s.cur fun x => { x with gated := x.gated
      ++ [⟨x.serial, x.arch.tick, .push (d.toNat - 24) st.pos st.desc (merge (s.me.arch.v d.toNat) v (byteMask mask)) []⟩]
      }).streamOn (d.toNat - 24) st := by
  have still : s.pushSpv l st = s := by
    unfold State.pushSpv
    rw [inside]
    rfl
  rw [State.landV_push h w more l mask v, still, State.gate_push room trap]
  rw [still, State.gate_push room trap]
  exact running

theorem storeRoom_congr {s t : State} (trap : t.me.intrap = s.me.intrap) (gated : t.me.gated = s.me.gated) (room : storeRoom s) :
    storeRoom t := by
  unfold storeRoom storeEntries at room ⊢
  rw [trap, gated]
  exact room

/-! The one write of a register file among those that an instruction adds. -/

theorem last_of_append {α : Type} {more l m : List α} {w p : α} {named : α → Prop} (h : more ++ [w] = l ++ p :: m)
    (others : ∀ x ∈ more, ¬named x) (hp : named p) : l = more ∧ p = w ∧ m = [] := by
  rcases List.eq_nil_or_concat m with rfl | ⟨m', z, rfl⟩
  · obtain ⟨rfl, hw⟩ := List.append_inj' h rfl
    exact ⟨rfl, (List.singleton_inj.1 hw).symm, rfl⟩
  · have before : more = l ++ p :: m' := by
      have both : more ++ [w] = (l ++ p :: m') ++ [z] := by rw [h]; simp
      exact (List.append_inj' both rfl).1
    exact absurd hp (others p (by rw [before]; simp))

/-! Twins apart. -/

section
variable {s t : State}

theorem apart_setCtx_left (h : apart s t) (c : Ctx) : apart (s.setCtx s.cur c) t := by
  obtain ⟨mem, poison, flawed, deferred, other, cores, cmds, ce, edge, cur, slot, late, choice⟩ := h
  exact ⟨mem, poison, flawed, deferred, fun g hg => (other g hg).trans (State.ctx_setCtx_other s c hg).symm, cores, cmds, ce, edge,
    cur, slot, late, choice⟩
theorem apart_setCtx_right (h : apart s t) (c : Ctx) : apart s (t.setCtx t.cur c) := by
  obtain ⟨mem, poison, flawed, deferred, other, cores, cmds, ce, edge, cur, slot, late, choice⟩ := h
  exact ⟨mem, poison, flawed, deferred,
    fun g hg => (State.ctx_setCtx_other t c fun e => hg (e.trans cur)).trans (other g hg), cores, cmds, ce, edge,
    cur, slot, late, choice⟩

end

/-- An instruction with a vector destination and registers as sources lands the same register in a state in which that is a
stream as in one in which it is a register. -/
theorem VecForm.destination {i : Instr} {q : Nat} {d : BitVec 5} {st : Stream} {s t : State} {v : VWord} (dest : vecDest i = some d)
    (named : d.toNat = 24 + q) (h : s.me.arch.bound d.toNat = some st) (apartSources : d ∉ vecSources i)
    (others : ∀ r ∈ vecSources i, plain s r) (ends : exec i (registered s q v) = .next t) (ok : t.iss.verdict = .ok) :
    ∃ l f, Lands l d f ∧ f (registered s q v) = t ∧ (st.write = true → exec i s = .next (f s))
      ∧ (st.write = false → exec i s = .next s.illegal) := by
  obtain form := (vecForm i).resolve_left fun none => nomatch dest.symm.trans none.2
  obtain ⟨l, d', go, g, dest', runs, src⟩ | ⟨-, -, -, none, -, -⟩ := form
  case settles => exact nomatch dest.symm.trans none
  obtain rfl : d = d' := Option.some.inj (dest.symm.trans dest')
  have fmt : (registered s q v).me.arch.fmt = s.me.arch.fmt := by rw [registered_me]
  obtain ⟨f, lands, alone, here⟩ := (src s.me.arch.fmt).both (s := registered s q v) (t := s) fun r hr => by
    have other : r.toNat ≠ 24 + q := fun e => apartSources (BitVec.eq_of_toNat_eq (named.trans e.symm) ▸ hr)
    refine ⟨s.me.arch.v r.toNat, fun k => ⟨?_, State.readV_register (others r hr) ..⟩⟩
    rw [State.readV_register (plain_registered (.inr (others r hr))), registered_v_other other]
  have goes : go s.slot s.me.arch.fmt = true := by
    by_contra stop
    rw [runs, fmt, if_neg (show ¬go (registered s q v).slot s.me.arch.fmt = true from stop)] at ends
    injection ends with ends
    exact State.raise_not_ok _ _ (ends ▸ ok)
  refine ⟨l, f, lands, ?_, fun w => ?_, fun w => ?_⟩
  · rw [runs, fmt, if_pos (show go (registered s q v).slot s.me.arch.fmt = true from goes),
      State.checkDst_register (plain_registered (.inl named)), alone] at ends
    injection ends
  · rw [runs, if_pos goes, State.checkDst_write h w, here]
  · rw [runs, if_pos goes, State.checkDst_read h w]

section
variable {q lat : Nat} {d : BitVec 5} {st : Stream} {s : State} {v : VWord} {f : State → State}

/-- R146: what lands a register stalls where that is a stream that has its last unit. -/
theorem Lands.full (lands : Lands lat d f) (h : s.me.arch.bound d.toNat = some st)
    (ok : (f (registered s q v)).iss.verdict = .ok) (w : st.write = true) (full : streamTotal st.desc ≤ 256 * st.pos) :
    (f s).iss.verdict = .stall := by
  obtain ⟨ready, pre, mask, val, bad, sameReady, quiet, -, -, -, lands, stops⟩ := lands
  have isReady : ready (registered s q v) = true := Bool.of_not_eq_false fun no => stops _ no ok
  rw [lands s ((sameReady (registered_twin s q v s.iss.pops)).trans isReady),
    State.landLoaded_full (((quiet.adds s).bound _).trans h) w full]
  rfl

/-- R52, R147: what lands a register pushes the register's bytes where that is a write stream with room for them. -/
theorem Lands.push (lands : Lands lat d f) (named : d.toNat = 24 + q) (h : s.me.arch.bound d.toNat = some st)
    (running : s.iss.verdict = .ok) (old : s.me.arch.v d.toNat = v) (ok : (f (registered s q v)).iss.verdict = .ok)
    {l : List Pending} {p : Pending} {m : List Pending} (w : st.write = true) (more : 256 * st.pos < streamTotal st.desc)
    (trap : s.me.intrap = false) (room : storeRoom s) (inside : s.me.outOfRange (streamUnit st.desc st.pos) = none)
    (pends : (f (registered s q v)).me.arch.pend = s.me.arch.pend ++ l ++ p :: m) (file : p.file = .vector)
    (clean : p.poison = none) :
    apart (f (registered s q v)) (f s) ∧ (f s).iss = (f (registered s q v)).iss
      ∧ (f s).me = { (f (registered s q v)).me with
          arch := { (f (registered s q v)).me.arch with
            pend := s.me.arch.pend ++ l ++ m
            streams := AMap.put s.me.arch.streams q { st with pos := st.pos + 1 }
            vreg := s.me.arch.vreg }
          gated := (f (registered s q v)).me.gated ++ [⟨s.me.serial, s.me.arch.tick, .push q st.pos st.desc
            (merge v p.val (byteMask p.mask)) []⟩] } := by
  obtain ⟨ready, pre, mask, val, bad, sameReady, quiet, sameMask, sameVal, sameBad, lands, stops⟩ := lands
  have twin : Twin s.me.arch.streams s.me.arch.vreg s.iss.pops (registered s q v) s := registered_twin s q v s.iss.pops
  have isReady : ready (registered s q v) = true := Bool.of_not_eq_false fun no => stops _ no ok
  have twinPre := quiet.twin twin
  have landed : f (registered s q v) = (pre (registered s q v)).landAt lat .vector d.toNat (mask (registered s q v))
      (val (registered s q v)) (bad (registered s q v)) := by
    rw [lands _ isReady, State.landLoaded_register (((quiet.adds _).bound _).trans (plain_registered (.inl named)))]
  obtain ⟨cur, iss, added, ctr, io, top, own, each⟩ := quiet.adds (registered s q v)
  rw [registered_me] at own each
  rw [landed, State.landAt, State.me_modArch, own] at pends
  dsimp only at pends
  rw [List.append_assoc, List.append_assoc] at pends
  obtain ⟨rfl, rfl, rfl⟩ := last_of_append (List.append_cancel_left pends) (fun x hx => (each x hx).1) file
  dsimp only at clean
  have bound : (pre s).me.arch.bound d.toNat = some st := ((quiet.adds s).bound _).trans h
  obtain ⟨-, still, _, _, _, _, mine, -⟩ := quiet.adds s
  have kept : (pre s).me.arch.v d.toNat = v := by rw [mine]; exact old
  have index : d.toNat - 24 = q := by omega
  have pushed : f s = (((pre s).modCtx (pre s).cur fun x => { x with gated := x.gated
      ++ [⟨x.serial, x.arch.tick, .push q st.pos st.desc (merge v (val s) (byteMask (mask s))) []⟩] }).streamOn q st) := by
    rw [lands s ((sameReady twin).trans isReady), sameBad twin, clean, ← State.landV_eq_landLoaded, State.landV_room bound w
      more (storeRoom_congr (by rw [mine]) (by rw [mine]) room) (by rw [mine]; exact trap) (by rw [mine]; exact inside)
      (by rw [still, running]), kept, index]
  refine ⟨?_, ?_, ?_⟩
  · rw [landed, pushed]
    exact apart_setCtx_left (apart_setCtx_right (apart_setCtx_right twinPre.apart _) _) _
  · rw [landed, pushed]
    exact still.trans iss.symm
  · have pushedMe : (f s).me = _ := (congrArg State.me pushed).trans (State.me_modArch _ _)
    have landedMe : (f (registered s q v)).me = _ := (congrArg State.me landed).trans (State.me_modArch _ _)
    have gatedMe (u : State) (h : Ctx → Ctx) : (u.modCtx u.cur h).me = h u.me := State.ctx_modCtx_self u u.cur h
    rw [pushedMe, landedMe, gatedMe, twinPre.me, own, sameMask twin, sameVal twin]
    simp only [List.append_nil]

end

/-- Of an instruction with a vector destination: one that names a write stream pushes the bytes that a register would take. -/
theorem streamDestination (i : Instr) (q : Nat) (d : BitVec 5) (st : Stream) (s t : State) (dest : vecDest i = some d)
    (named : d.toNat = 24 + q) (h : s.me.arch.bound d.toNat = some st) (apartSources : d ∉ vecSources i)
    (others : ∀ r ∈ vecSources i, plain s r) (running : s.iss.verdict = .ok)
    (ends : exec i (registered s q (s.me.arch.v d.toNat)) = .next t) (ok : t.iss.verdict = .ok) :
    (st.write = false → exec i s = .next s.illegal)
    ∧ (st.write = true → streamTotal st.desc ≤ 256 * st.pos → ∃ t', exec i s = .next t' ∧ t'.iss.verdict = .stall)
    ∧ ∀ l p m, st.write = true → 256 * st.pos < streamTotal st.desc → s.me.intrap = false → storeRoom s →
      s.me.outOfRange (streamUnit st.desc st.pos) = none → t.me.arch.pend = s.me.arch.pend ++ l ++ p :: m →
      p.file = .vector → p.num = d.toNat → p.poison = none → ∃ t', exec i s = .next t' ∧ apart t t' ∧ t'.iss = t.iss
      ∧ t'.me = { t.me with
          arch := { t.me.arch with
            pend := s.me.arch.pend ++ l ++ m
            streams := AMap.put s.me.arch.streams q { st with pos := st.pos + 1 }
            vreg := s.me.arch.vreg }
          gated := t.me.gated ++ [⟨s.me.serial, s.me.arch.tick, .push q st.pos st.desc
            (merge (s.me.arch.v d.toNat) p.val (byteMask p.mask)) []⟩] } := by
  obtain ⟨lat, f, lands, rfl, write, read⟩ := VecForm.destination dest named h apartSources others ends ok
  exact ⟨read, fun w full => ⟨_, write w, lands.full h ok w full⟩, fun l p m w more trap room inside pends file _ clean =>
    ⟨_, write w, lands.push named h running rfl ok w more trap room inside pends file clean⟩⟩

end Sys2Proof.Machine
end

section
/-!
PROOFS. VADD with a source or a destination that names a stream (R50 to R52, R137, R146, R147, R196), and VectorStreamOperands
settled.
-/

namespace Sys2Proof.Machine

open Sys2Proof.Claims (plain inSlotVW HasLanes el writesV pushesLate storeRoom)

/-! Lanes (R50, R51). -/

theorem testBit_lane (w : EW) (v : VWord) (i j : Nat) :
    (lane w v i).testBit j = (decide (j < w.bits) && v.getLsbD (w.bits * i + j)) := by
  rw [lane, BitVec.testBit_toNat, BitVec.getLsbD_extractLsb']

theorem bits_mul_count (w : EW) : w.bits * w.count = 2048 := by cases w <;> rfl
theorem bits_pos (w : EW) : 0 < w.bits := by cases w <;> decide

/-- R50: the bits of an element lie in the vector. -/
theorem laneBit_lt {w : EW} {i j : Nat} (hi : i < w.count) (hj : j < w.bits) : w.bits * i + j < 2048 := by
  have last : w.bits * (i + 1) ≤ w.bits * w.count := Nat.mul_le_mul_left _ hi
  rw [bits_mul_count, Nat.mul_succ] at last
  omega

theorem lane_pack (w : EW) (l : List Nat) {i : Nat} (hi : i < w.count) : lane w (pack w l) i = l.getD i 0 % 2 ^ w.bits := by
  refine Nat.eq_of_testBit_eq fun j => ?_
  rw [testBit_lane, Nat.testBit_mod_two_pow]
  by_cases hj : j < w.bits
  · rw [pack, BitVec.getLsbD_ofNat, testBit_packNat (bits_pos w), decide_eq_true (laneBit_lt hi hj), Bool.true_and,
      Nat.mul_add_div (bits_pos w), Nat.div_eq_of_lt hj, Nat.add_zero, Nat.mul_add_mod, Nat.mod_eq_of_lt hj]
  · rw [decide_eq_false hj, Bool.false_and, Bool.false_and]

/-- R51: an element of a result under a mask of active elements. -/
theorem lane_merge_active (w : EW) (old new : VWord) (p : PWord) {i : Nat} (hi : i < w.count) :
    lane w (merge old new (byteMask (activeMask w p))) i = if p.getLsbD (w.bytes * i) then lane w new i else lane w old i := by
  refine Nat.eq_of_testBit_eq fun j => ?_
  rw [testBit_lane, apply_ite (fun n : Nat => n.testBit j), testBit_lane, testBit_lane]
  by_cases hj : j < w.bits
  · have bit := laneBit_lt hi hj
    have bits : 8 * w.bytes = w.bits := by cases w <;> rfl
    have byte : (w.bits * i + j) / 8 / w.bytes * w.bytes = w.bytes * i := by
      rw [Nat.div_div_eq_div_mul, bits, Nat.mul_add_div (bits_pos w), Nat.div_eq_of_lt hj, Nat.add_zero, Nat.mul_comm]
    rw [getLsbD_merge, getLsbD_byteMask _ bit, activeLanes w p _ (by omega), byte]
    split <;> rfl
  · simp [hj]

/-- R341: the packed sums of the elements of two vectors. -/
def sums (w : EW) (x y : VWord) : VWord := pack w (List.zipWith (fun x y => x + y) (lanes w x) (lanes w y))

theorem lane_sums (w : EW) (x y : VWord) : HasLanes w (sums w x y) fun i => lane w x i + lane w y i := by
  intro i hi
  rw [sums, lane_pack w _ hi, List.getD_eq_getElem _ _ (by simpa [lanes] using hi)]
  simp [lanes]

/-! Sources. -/

section
variable {d a b : BitVec 5} {pg : BitVec 3} {w : EW} {s : State} {st : Stream}

/-- R341: VADD in slots V and W. -/
theorem exec_vadd (slot : inSlotVW s) : exec (.vadd d a b pg w) s = .next (s.checkDst d fun s => s.readV 2 a fun x s =>
    s.readV 2 b fun y s => s.landV 2 d (activeMask w (s.rp pg)) (sums w x y)) := by
  have ok : slotVector s.slot = true := by
    obtain h | h := slot
    · rw [h]
      rfl
    · rw [h]
      rfl
  exact inSlot_ok ok fun s => s.vmap2 2 d a b pg w fun x y => x + y

theorem vadd_wrongDest {x y : BitVec 5} (slot : inSlotVW s) (h : s.me.arch.bound d.toNat = some st) (r : st.write = false) :
    exec (.vadd d x y pg w) s = .next s.illegal := by
  rw [exec_vadd slot, State.checkDst_read h r]

theorem vadd_source (slot : inSlotVW s) (dest : plain s d) : exec (.vadd d a b pg w) s = .next (s.readV 2 a fun x s =>
    s.readV 2 b fun y s => s.landV 2 d (activeMask w (s.rp pg)) (sums w x y)) := by
  rw [exec_vadd slot, State.checkDst_register dest]

/-- R137, R146: VADD of the unit of a read stream. -/
theorem vadd_unit {u : StreamUnit} {units : List StreamUnit} (slot : inSlotVW s) (dest : plain s d) (other : plain s b)
    (h : s.me.arch.bound a.toNat = some st) (r : st.write = false)
    (hu : AMap.get [] s.me.units (a.toNat - 24) = u :: units) (good : u.bad = none) :
    exec (.vadd d a b pg w) s = .next (writesV (s.took 2 (a.toNat - 24) u) 2 d (activeMask w (s.rp pg))
      (sums w u.data (s.me.arch.v b.toNat))) := by
  obtain ⟨_, _, own, -⟩ := s.took_me 2 (a.toNat - 24) u
  have v : (s.took 2 (a.toNat - 24) u).me.arch.v b.toNat = s.me.arch.v b.toNat := by rw [own]; rfl
  have rp : (s.took 2 (a.toNat - 24) u).rp pg = s.rp pg := by rw [State.rp, State.rp, own]; rfl
  rw [vadd_source slot dest, State.readV_unit h r hu good, State.readV_register ((s.took_bound _ _ _ _).trans other),
    State.landV_register ((s.took_bound _ _ _ _).trans dest), v, rp]
  rfl

/-! Destinations. -/

theorem vadd_dest (slot : inSlotVW s) (ha : plain s a) (hb : plain s b) (h : s.me.arch.bound d.toNat = some st)
    (write : st.write = true) : exec (.vadd d a b pg w) s
      = .next (s.landV 2 d (activeMask w (s.rp pg)) (sums w (s.me.arch.v a.toNat) (s.me.arch.v b.toNat))) := by
  rw [exec_vadd slot, State.checkDst_write h write, State.readV_register ha, State.readV_register hb]

/-- R12, R196: a push of a handler waits for both contexts of the core. -/
theorem State.gate_push_trap {u : State} (trap : u.me.intrap = true) {q : Nat} {v : VWord} :
    u.gate (.push q st.pos st.desc v []) = pushesLate u q st v := by
  unfold State.gate
  dsimp only
  rw [if_pos trap, pushesLate]
  have same (i : GatedItem) : i.withoutPushes (streamUnit st.desc st.pos) = (match i with
      | .push p unit desc data gone => .push p unit desc data (gone ++ streamUnit st.desc st.pos)
      | i => i) := rfl
  simp only [State.modCtx, Ctx.overwritePushes, same]
  rfl

end

theorem State.adds_pushSpv (s : State) (l : Nat) (st : Stream) : Adds l s (s.pushSpv l st) := by
  unfold State.pushSpv
  cases s.me.outOfRange (streamUnit st.desc st.pos) with
  | none => exact .refl l s
  | some a => exact (Adds.refl l s).spvAt a

/-- VADD with a source that names a stream. -/
theorem vaddSource (d a b : BitVec 5) (pg : BitVec 3) (w : EW) (s : State) (st : Stream) (slot : inSlotVW s) (dest : plain s d)
    (other : plain s b) (h : s.me.arch.bound a.toNat = some st) :
    let q := a.toNat - 24
    (st.write = true → exec (.vadd d a b pg w) s = .next s.illegal)
    ∧ (st.write = false → AMap.get [] s.me.units q = [] →
        exec (.vadd d a b pg w) s = .next { s with iss := { s.iss with verdict := .stall } })
    ∧ (∀ u l, st.write = false → AMap.get [] s.me.units q = u :: l → u.bad = none →
        let s1 : State := match u.spv with
          | some x => if s.iss.pops.contains q = true then s else s.spvAt 2 x
          | none => s
        ∃ r, HasLanes w r (fun i => lane w u.data i + el s w b i)
          ∧ exec (.vadd d a b pg w) s = .next (writesV { s1 with iss := { s.iss with pops := s.iss.pops.add q } } 2 d
              (activeMask w (s.rp pg)) r))
    ∧ (∀ u l c, st.write = false → AMap.get [] s.me.units q = u :: l → u.bad = some c → exec (.vadd d a b pg w) s = .next
        (s.raise { c with bndl := s.iss.parcel, slot := s.slot, rep := s.iss.rep, issued := s.me.arch.tick }))
    ∧ (∀ x, st.write = false → plain s x → exec (.vadd a x x pg w) s = .next s.illegal) := by
  intro q
  refine ⟨fun write => ?_, fun read none => ?_, fun u l read hu good => ?_, fun u l c read hu bad => ?_, fun x read _ => ?_⟩
  · rw [vadd_source slot dest, State.readV_write h write]
  · rw [vadd_source slot dest, State.readV_empty h read none]
    rfl
  · intro s1
    have taken : ({ s1 with iss := { s.iss with pops := s.iss.pops.add q } } : State) = s.took 2 q u := by
      cases hspv : u.spv with
      | none =>
        rw [State.took_noSpv (.inl hspv)]
        simp only [s1, hspv]
      | some x =>
        cases hpops : s.iss.pops.contains q with
        | false => simp only [State.took_spv hpops hspv, s1, hspv, hpops, Bool.false_eq_true, if_false]
        | true => simp only [State.took_noSpv (.inr hpops), s1, hspv, hpops, if_true]
    exact ⟨_, lane_sums w u.data _, by rw [taken, vadd_unit slot dest other h read hu good]⟩
  · rw [vadd_source slot dest, State.readV_bad h read hu bad]
  · exact vadd_wrongDest slot h read

/-- VADD with a destination that names a write stream. -/
theorem vaddDestination (d a b : BitVec 5) (pg : BitVec 3) (w : EW) (s : State) (st : Stream) (slot : inSlotVW s)
    (ha : plain s a) (hb : plain s b) (h : s.me.arch.bound d.toNat = some st) (write : st.write = true)
    (running : s.iss.verdict = .ok) :
    let q := d.toNat - 24
    let s1 : State := match s.me.outOfRange (streamUnit st.desc st.pos) with
      | some x => s.spvAt 2 x
      | none => s
    let next (t : State) : State := t.setCtx s.cur { t.ctx s.cur with arch := { (t.ctx s.cur).arch with
      streams := AMap.put (t.ctx s.cur).arch.streams q { st with pos := st.pos + 1 } } }
    (streamTotal st.desc ≤ 256 * st.pos →
      exec (.vadd d a b pg w) s = .next { s with iss := { s.iss with verdict := .stall } })
    ∧ (256 * st.pos < streamTotal st.desc → storeRoom s → ∃ r : VWord,
        (∀ i, i < w.count → lane w r i = if (s.rp pg).getLsbD (w.bytes * i) then (el s w a i + el s w b i) % 2 ^ w.bits
          else el s w d i)
        ∧ (s.me.intrap = false → exec (.vadd d a b pg w) s = .next (next (s1.setCtx s.cur { s1.me with
            gated := s.me.gated ++ [⟨s.me.serial, s.me.arch.tick, .push q st.pos st.desc r []⟩] })))
        ∧ (s.me.intrap = true → exec (.vadd d a b pg w) s = .next (next (pushesLate s1 q st r)))) := by
  intro q s1 next
  have flagged : s1 = s.pushSpv 2 st := by
    unfold State.pushSpv
    cases hr : s.me.outOfRange (streamUnit st.desc st.pos) with
    | none => simp only [s1, hr, Option.elim]
    | some x => simp only [s1, hr, Option.elim]
  obtain ⟨cur, iss, _, _, _, _, own, -⟩ : Adds 2 s s1 := flagged ▸ s.adds_pushSpv 2 st
  have on (t : State) (ht : t.cur = s.cur) : next t = t.streamOn q st := by
    rw [State.streamOn, ht]
    rfl
  let data := merge (s.me.arch.v d.toNat) (sums w (s.me.arch.v a.toNat) (s.me.arch.v b.toNat))
    (byteMask (activeMask w (s.rp pg)))
  refine ⟨fun full => ?_, fun more room => ⟨data, fun i hi => ?_, fun trap => ?_, fun trap => ?_⟩⟩
  · rw [vadd_dest slot ha hb h write, State.landV_eq_landLoaded, State.landLoaded_full h write full]
    rfl
  · rw [lane_merge_active w _ _ _ hi, lane_sums w (s.me.arch.v a.toNat) (s.me.arch.v b.toNat) i hi]
    rfl
  · have gated : s1.gate (.push q st.pos st.desc data []) = s1.setCtx s.cur { s1.me with
        gated := s.me.gated ++ [⟨s.me.serial, s.me.arch.tick, .push q st.pos st.desc data []⟩] } := by
      rw [State.gate_push (storeRoom_congr (by rw [own]) (by rw [own]) room) (by rw [own]; exact trap), State.modCtx, cur]
      have mine : s1.ctx s.cur = s1.me := congrArg s1.ctx cur.symm
      rw [mine]
      congr 1
      rw [own]
    rw [vadd_dest slot ha hb h write, State.landV_push h write more, ← flagged, gated]
    · refine congrArg _ (on _ ?_).symm
      exact cur
    · rw [← flagged, gated]
      exact iss ▸ running
  · have late : s1.gate (.push q st.pos st.desc data []) = pushesLate s1 q st data :=
      State.gate_push_trap (by rw [own]; exact trap)
    rw [vadd_dest slot ha hb h write, State.landV_push h write more, ← flagged, late]
    · refine congrArg _ (on _ ?_).symm
      exact cur
    · rw [← flagged, late]
      exact iss ▸ running

/-- Settles O6 (R52, R56, R137, R146 to R148, R196): an instruction reads its vector sources one after the other and then settles,
or lands one vector register, and twin states, of which one has a register where the other has a stream, stay twins. -/
theorem vectorStreamOperands : Obligations.VectorStreamOperands := by
  unfold Obligations.VectorStreamOperands
  refine ⟨fun d a b pg w s st slot dest other h => vaddSource d a b pg w s st slot dest other h,
    fun i q st s h named others dest _ runs => streamSource i q st s h named others dest runs,
    fun i q d st s t dest named h other others running ends ok =>
      streamDestination i q d st s t dest named h other others running ends ok,
    fun d a b pg w s st slot ha hb h write running => vaddDestination d a b pg w s st slot ha hb h write running⟩

end Sys2Proof.Machine
end

section
/-!
PROOFS. The bit network and the transforms of slot X (R91 to R93, R345, R375 to R379): TransformResults settled.
-/

namespace Sys2Proof.Machine

open Sys2Proof.Claims (plain writesV writesS setsFlags drawsBy)

/-! Fields (R50). -/

theorem fieldN_placeAt (w : EW) (l : List Nat) {i : Nat} (hi : i < w.count) :
    fieldN w.bits (placeAt 0 w.bits l) i = l.getD i 0 % 2 ^ w.bits := by
  rw [placeAt, Nat.pow_zero, Nat.mul_one]
  exact lane_pack w l hi

theorem getD_map_range (f : Nat → Nat) {n i : Nat} (hi : i < n) : ((List.range n).map f).getD i 0 = f i := by
  simp [hi]

/-- A register packed from the values of its elements. -/
theorem fieldN_placeAt_map (w : EW) (f : Nat → Nat) {i : Nat} (hi : i < w.count) :
    fieldN w.bits (placeAt 0 w.bits ((List.range w.count).map f)) i = f i % 2 ^ w.bits := by
  rw [fieldN_placeAt w _ hi, getD_map_range f hi]

theorem u8At_eq {n : Nat} (p : BitVec n) (k : Nat) : u8At p k = p.toNat / 256 ^ k % 256 := by
  rw [u8At, BitVec.extractLsb'_toNat, Nat.shiftRight_eq_div_pow, Nat.pow_mul]

/-! Operands and results (R52, R56, R64, R88). -/

section
variable {i : Instr} {s t : State} {l : Nat} {d a b : BitVec 5}

theorem State.landV_eq_writesV (dest : plain s d) (l : Nat) (mask : PWord) (v : VWord) : s.landV l d mask v = writesV s l d mask v :=
  State.landV_register dest l mask v

theorem Adds.landV_eq_writesV (h : Adds l s t) (dest : plain s d) (mask : PWord) (v : VWord) :
    t.landV l d mask v = writesV t l d mask v :=
  State.landV_eq_writesV ((h.bound _).trans dest) l mask v

/-- R52, R64: a transform in slot X, of registers that are no streams. -/
theorem exec_transform {k : VWord → State → State} (slot : s.slot = 6) (dest : plain s d) (source : plain s a)
    (runs : ∀ s, exec i s = inX s fun s => s.checkDst d fun s => s.readV l a k) :
    exec i s = .next (k (s.me.arch.v a.toNat) s) := by
  rw [runs, inX, inSlot_ok (by rw [slot]; rfl), State.checkDst_register dest, State.readV_register source]

end

/-! The bit network (R296, R344, R345). -/

/-- R296: with no write of it under way, a stencil is that of the core, by no choice. -/
theorem State.stencil_settled {s : State} {k : Nat} (settled : ∀ e ∈ (s.core (coreOf s.cur)).bnWrites, e.2.1 ≠ k) :
    s.stencil k = (AMap.get 0 (s.core (coreOf s.cur)).stencils k, s) := by
  unfold State.stencil
  dsimp only
  rw [List.filter_eq_nil_iff.2 fun e he => by simp [settled e he]]
  rfl

/-- R345: what an entry of a stencil makes of the bit that it selects. -/
def routedBit (e : BitVec 14) (bit : Bool) : Bool :=
  match (e.extractLsb' 12 2).toNat with
  | 0 => bit
  | 1 => !bit
  | 2 => false
  | _ => true

theorem getLsbD_routeBits (st : BitVec 28672) (x y : VWord) {j : Nat} (hj : j < 2048) :
    let e := st.extractLsb' (14 * j) 14
    let n := (e.extractLsb' 0 12).toNat
    (routeBits st x y).getLsbD j = routedBit e (if n < 2048 then x.getLsbD n else y.getLsbD (n - 2048)) := by
  intro e n
  rw [routeBits, BitVec.getLsbD_ofNat, decide_eq_true hj, Bool.true_and, testBit_packNat Nat.one_pos, Nat.div_one, Nat.mod_one,
    getD_map_range _ hj]
  have code (c : Bool) : (match (e.extractLsb' 12 2).toNat with
    | 0 => c.toNat
    | 1 => (!c).toNat
    | 2 => 0
    | _ => 1) = (routedBit e c).toNat := by
    unfold routedBit
    split <;> rfl
  exact (congrArg (Nat.testBit · 0) (code _)).trans (by rw [Nat.testBit_bool_toNat]; rfl)

/-- R296, R345: a VBNET of registers in slot W. -/
theorem exec_vbnet {s : State} {d a b : BitVec 5} {k : BitVec 3} (slot : s.slot = 5) (dest : plain s d) (ha : plain s a)
    (hb : plain s b) (settled : ∀ e ∈ (s.core (coreOf s.cur)).bnWrites, e.2.1 ≠ k.toNat) :
    exec (.vbnet d a b k) s = .next (writesV s 3 d allLanes
      (routeBits (AMap.get 0 (s.core (coreOf s.cur)).stencils k.toNat) (s.me.arch.v a.toNat) (s.me.arch.v b.toNat))) := by
  have runs : exec (.vbnet d a b k) s = execVbnet d a b k s := rfl
  rw [runs, execVbnet, inW, inSlot_ok (by rw [slot]; rfl), State.checkDst_register dest, State.readV_register ha,
    State.readV_register hb, State.stencil_settled settled, State.landV_eq_writesV dest]

/-! XTRN, XEXP and XSCL (R92, R93, R376, R379). -/

section
variable {s : State} {d a b : BitVec 5}

theorem exec_xtrn {shape : XShape} (slot : s.slot = 6) (dest : plain s d) (source : plain s a) :
    exec (.xtrn d a shape) s = .next (writesV s 5 d allLanes (placeAt 0 (trnBits shape)
      ((List.range (2048 / trnBits shape)).map fun j => fieldN (trnBits shape) (s.me.arch.v a.toNat) (trnSource shape j)))) := by
  rw [exec_transform slot dest source fun _ => rfl, State.landV_eq_writesV dest]

theorem exec_xexp {kind : XKind} {part : BitVec 3} (slot : s.slot = 6) (dest : plain s d) (source : plain s a) :
    exec (.xexp d a kind part) s = .next (writesV s 5 d allLanes (placeAt 0 8 ((List.range 256).map fun i =>
      (roundF e4m3 rneRnd (kindValue kind (fieldN (kindBits kind) (s.me.arch.v a.toNat) (256 * part.toNat + i)))).bits))) := by
  rw [exec_transform slot dest source fun _ => rfl, State.landV_eq_writesV dest]

/-- R93: an element of XSCL of the fields x under the scale exponents y. -/
def scaledElem (fmt : BitVec 32) (y : Word) (x : VWord) (i : Nat) : Nat :=
  if y.toNat / 256 ^ (i / 32) % 256 = 255 then fp32.nan else
    (roundF fp32 rneRnd (scaleFV (decodeF (fp8Of fmt) (fieldN 8 x i)) ((y.toNat / 256 ^ (i / 32) % 256 : Nat) - 127))).bits

theorem exec_xscl (slot : s.slot = 6) (dest : plain s d) (source : plain s a) :
    exec (.xscl d a b) s = .next (writesV s 6 d allLanes (placeAt 0 32
      ((List.range 64).map (scaledElem s.me.arch.fmt (s.rs b) (s.me.arch.v a.toNat))))) := by
  rw [exec_transform slot dest source fun _ => rfl, State.landV_eq_writesV dest]
  simp only [u8At_eq]
  rfl

/-- R379: the elements of a shape are those of an element width. -/
theorem trnBits_eq_bits (shape : XShape) : ∃ w : EW, trnBits shape = w.bits ∧ 2048 / trnBits shape = w.count := by
  cases shape with
  | s32 => exact ⟨.w32, rfl, rfl⟩
  | s16 => exact ⟨.w16, rfl, rfl⟩
  | s8 => exact ⟨.w8, rfl, rfl⟩

theorem fieldN_mod (n : Nat) (v : VWord) (i : Nat) : fieldN n v i % 2 ^ n = fieldN n v i :=
  Nat.mod_eq_of_lt (BitVec.isLt _)

end

/-! XCVT, XPACK and XQNT (R88, R91 to R93, R375, R377, R378). -/

section
variable {s : State} {d a b : BitVec 5}

/-- R88: the mode of a conversion that is exact, as `xcvtMode` says it. -/
theorem exactMode_eq (m : RMode) (df sf : XFmt) : (if m = .sr ∧ xcvtExact df sf then .rne else m) =
    if m = .sr ∧ df = .f32 ∧ (sf = .e4m3 ∨ sf = .e5m2 ∨ sf = .fp16 ∨ sf = .bf16) then .rne else m := by
  have same : xcvtExact df sf = true ↔ df = .f32 ∧ (sf = .e4m3 ∨ sf = .e5m2 ∨ sf = .fp16 ∨ sf = .bf16) := by
    simp [xcvtExact, or_assoc]
  exact if_congr (and_congr_right fun _ => same) rfl rfl

/-- R56, R88: what a conversion draws, flags and writes. -/
theorem landV_drawn (dest : plain s d) (m : RMode) (l : Nat) (f : BitVec 4) (mask : PWord) (v : VWord) :
    ((s.drawn m).raiseFlags l f).landV l d mask v = writesV (setsFlags (drawsBy s m) l f) l d mask v :=
  (((Adds.refl l s).drawn m).raiseFlags f).landV_eq_writesV dest mask v

/-- R378: what XQNT draws, flags and writes, its scale word in a scalar register. -/
theorem landV_scaled (dest : plain s d) (m : RMode) (l : Nat) (f : BitVec 4) (v : Word) (mask : PWord) (x : VWord) :
    (((s.drawn m).raiseFlags l f).landS l b.toNat v).landV l d mask x
      = writesV (writesS (setsFlags (drawsBy s m) l f) l b v) l d mask x := by
  rw [((((Adds.refl l s).drawn m).raiseFlags f).landS b.toNat v).landV_eq_writesV dest, State.landS_eq_writesS]
  rfl

end

/-- Settles O5 (R91 to R93, R345, R375 to R379): VBNET bit by bit of its stencil, and each transform by the elements that it packs. -/
theorem transformResults : Obligations.TransformResults := by
  unfold Obligations.TransformResults
  refine ⟨fun d a b k s slot dest ha hb settled => ?_, fun d a shape s slot dest source => ?_,
    fun d a kind part s slot dest source => ?_, fun d a b s slot dest source => ?_,
    fun d a df sf rm sat part s slot dest source => ?_, fun d a kind part s slot dest source => ?_,
    fun d a b s slot dest source => ?_⟩
  · exact ⟨_, fun j hj => getLsbD_routeBits _ _ _ hj, exec_vbnet slot dest ha hb settled⟩
  · refine ⟨_, fun j hj => ?_, exec_xtrn slot dest source⟩
    obtain ⟨w, bits, count⟩ := trnBits_eq_bits shape
    rw [count] at hj ⊢
    rw [bits, fieldN_placeAt_map w _ hj, fieldN_mod]
  · exact ⟨_, fun i hi => fieldN_placeAt_map .w8 _ hi, exec_xexp slot dest source⟩
  · exact ⟨_, fun i hi => fieldN_placeAt_map .w32 (scaledElem s.me.arch.fmt (s.rs b) (s.me.arch.v a.toNat)) hi,
      exec_xscl slot dest source⟩
  · intro m nd ns first rs
    rw [exec_transform slot dest source fun _ => rfl]
    dsimp only
    rw [exactMode_eq, landV_drawn dest]
    rfl
  · intro rs n
    rw [exec_transform slot dest source fun _ => rfl]
    exact congrArg _ (landV_drawn dest ..)
  · intro val scale rs
    rw [exec_transform slot dest source fun _ => rfl]
    exact congrArg _ (landV_scaled dest ..)

end Sys2Proof.Machine
end

section
/-!
PROOFS. Array and factor commands at issue (R105 to R107, R110, R112, R114, R119, R120, R323, R324, R326): O53.
-/

namespace Sys2Proof.Machine

open Sys2Proof.Claims (held commandRoom commandEntries chained kinded kindAt kindOf productLegal chainTakes kindClashes chainAfter
  intProduct low32)

/-! The book of a chain (R106, R324). -/

/-- R324: the kind of a bank is that of its latest mark. -/
theorem State.bankKind_eq (s : State) (core bank : Nat) : s.bankKind core bank = kindAt s core bank := by
  unfold State.bankKind kindAt
  cases AMap.get [] (s.core core).kinds bank <;> rfl

/-- R106: a command for which there is room is held beside the chain that it leaves. -/
theorem State.gate_chained {s : State} (room : commandRoom s) (bank : Nat) (ch : Chain) (op : CmdOp) :
    (s.setChain s.cur bank ch).gate (.cmd op s.issuer) = held (chained s bank ch) op := by
  have me : (chained s bank ch).me
      = { s.me with arch := { s.me.arch with chains := AMap.put s.me.arch.chains bank ch } } := State.ctx_setCtx_self _ _ _
  have issuer : (chained s bank ch).issuer = s.issuer := by
    unfold State.issuer
    rw [me]
    rfl
  have room' : commandRoom (chained s bank ch) := by
    unfold commandRoom commandEntries
    rw [me]
    exact room
  have gated := State.gate_command room' op
  rwa [issuer] at gated

/-- R324, R326: the same, where its bank takes a kind. -/
theorem State.gate_kinded {s : State} (room : commandRoom s) (bank : Nat) (ch : Chain) (op : CmdOp) (isInt : Bool) :
    ((s.setKind (coreOf s.cur) bank (s.kindMark isInt)).setChain s.cur bank ch).gate (.cmd op s.issuer)
      = held (kinded s bank isInt ch) op :=
  State.gate_chained (s := s.setKind (coreOf s.cur) bank (s.kindMark isInt)) room bank ch op

/-- R105, R106, R112, R117: a product that its context's chain takes is held, and the chain goes on. -/
theorem State.chainCmd_takes {s : State} (room : commandRoom s) {j : MatJob} (takes : chainTakes s j) (op : CmdOp) :
    s.chainCmd j op = held (kinded s j.bank (intProduct j) (chainAfter s j)) op := by
  obtain ⟨kind, depth, unasked⟩ := takes
  have opens : (j.clr || !(s.me.chain j.bank).isOpen) = true ↔ j.clr = true ∨ (s.me.chain j.bank).isOpen = false := by simp
  unfold State.chainCmd
  dsimp only
  simp only [opens]
  rw [if_neg, if_neg (Nat.not_lt.2 depth), if_neg]
  · exact State.gate_kinded room j.bank _ op _
  · rcases unasked with no | chain
    · simp [no]
    · simp [chain]
  · rw [State.bankKind_eq]
    by_cases o : j.clr = true ∨ (s.me.chain j.bank).isOpen = false
    · simp [opens.2 o]
    · have agrees := kind o
      rw [kindOf] at agrees
      simp [agrees, beq_eq_decide]

/-! The array commands (R105, R107, R110, R114). -/

theorem exec_mma_legal {ar br : BitVec 3} {bank clr : Bool} {a : BitVec 5} {s : State} (slot : s.slot = 7) (room : commandRoom s)
    {j : MatJob} (hj : j = s.matJob bank.toNat clr (s.rs a).toNat ar.toNat br.toNat) (legal : productLegal s j) (real : ar ≠ 7)
    (apart : ar ≠ br) (even : oddMx j.mgeo j.fmt = false)
    (ringA : ringOk j.lo.toNat j.hi.toNat j.aDesc (tileA j.mgeo j.fmt) = true)
    (buffer : br = 7 → wbOk j.wbcfg (tileB j.mgeo j.fmt) = true)
    (ringB : br ≠ 7 → ringOk j.lo.toNat j.hi.toNat j.bDesc (tileB j.mgeo j.fmt) = true) (takes : chainTakes s j) :
    exec (.mma ar br bank clr a) s = .next (held (kinded s bank.toNat (intProduct j) (chainAfter s j)) (.mma j)) := by
  obtain ⟨some, few, pair, allowed⟩ := legal
  have tileFits : (if br = 7 then wbOk j.wbcfg (tileB j.mgeo j.fmt)
      else ringOk j.lo.toNat j.hi.toNat j.bDesc (tileB j.mgeo j.fmt)) = true := by
    split
    · exact buffer ‹_›
    · exact ringB ‹_›
  have counts : (s.rs a).toNat = j.count := by rw [hj]; rfl
  have bankIs : bank.toNat = j.bank := by rw [hj]; rfl
  rw [exec_inE slot fun _ => rfl]
  dsimp only
  rw [← hj, if_neg, State.chainCmd_takes room takes, bankIs]
  rw [bankIs, counts, tileFits]
  simp [pair, even, allowed, ringA, apart]
  exact ⟨⟨by omega, few⟩, real⟩

theorem exec_mzero_iff {bank : Bool} {s : State} (slot : s.slot = 7) (room : commandRoom s) : exec (.mzero bank) s = .next
    (if s.bankOk s.cur bank.toNat then held (kinded s bank.toNat false ⟨false, 0⟩) (.mzero bank.toNat) else s.illegal) := by
  rw [exec_inE slot fun _ => rfl]
  cases s.bankOk s.cur bank.toNat with
  | false => rfl
  | true => exact congrArg _ (State.gate_kinded room bank.toNat ⟨false, 0⟩ (.mzero bank.toNat) false)

/-- R110, R324: a drain closes its chain and takes the kind of its bank. -/
theorem exec_mret_legal {bank lsf : Bool} {layout : MLayout} {a b : BitVec 5} {s : State} (slot : s.slot = 7) (room : commandRoom s)
    (ok : s.bankOk s.cur bank.toNat = true) (aligned : (low32 s a).toNat % 64 = 0) (pair : pairOk (s.rs b) = true)
    (float : layout = .bf16 → kindOf s bank.toNat = false) : exec (.mret bank lsf layout a b) s = .next (held
      (chained s bank.toNat { s.me.chain bank.toNat with isOpen := false })
      (.mret bank.toNat lsf layout (geoM s.me.arch.mgeo) (geoN s.me.arch.mgeo) (low32 s a) (s.rs b) (kindOf s bank.toNat))) := by
  have dst : (s.rs a).truncate 32 = low32 s a := truncate_eq_ofNat _
  have kind : s.bankKind (coreOf s.cur) bank.toNat = kindOf s bank.toNat := s.bankKind_eq _ _
  rw [exec_inE slot fun _ => rfl]
  dsimp only
  rw [dst, kind, if_neg, State.gate_chained room]
  simp only [ok, aligned, pair, Bool.not_true, ne_eq, not_true_eq_false, decide_false, Bool.false_or, Bool.and_eq_true,
    decide_eq_true_eq, not_and, Bool.not_eq_true]
  exact float

/-! Gangs (R112, R114, R115). -/

/-- R112: the check of a member's open chain. -/
theorem State.kindClash_iff {s : State} {core : Nat} {j : MatJob} :
    s.kindClash core j = true ↔ j.clr = false ∧ kindClashes s core j.bank j := by
  unfold State.kindClash kindClashes
  rw [State.bankKind_eq]
  cases AMap.find (s.ctx (2 * core + j.bank)).arch.chains j.bank with
  | none => simp
  | some c => simp [and_assoc, beq_eq_decide]

section
variable {mask : BitVec 4} {bank clr : Bool} {a b : BitVec 5} {s : State} {j : MatJob}

/-- R114, R115: every context that a gang names is at work on the kernel of its leader. -/
theorem gangMembers_ready (members : ∀ i, i < 4 → mask.getLsbD i = true →
      (s.ctx (clusterOf s.cur * 8 + 2 * i + bank.toNat)).state = .running
      ∧ (s.ctx (clusterOf s.cur * 8 + 2 * i + bank.toNat)).kernel = s.me.kernel) :
    ((List.range 4).any fun i => mask.getLsbD i && !((s.ctx (clusterOf s.cur * 8 + 2 * i + bank.toNat)).state == .running
      && (s.ctx (clusterOf s.cur * 8 + 2 * i + bank.toNat)).kernel == s.me.kernel)) = false := by
  refine List.any_eq_false.2 fun i hi => ?_
  simp only [Bool.and_eq_true, not_and, Bool.not_eq_true, Bool.not_eq_false']
  intro named
  obtain ⟨running, same⟩ := members i (List.mem_range.1 hi) named
  simp [running, same]

/-- R100, R105, R112, R114, R115: a gang whose leader may lead it is ILLEGAL where it would continue a chain of the other kind, and
goes on with its leader's chain elsewhere. -/
theorem exec_mgang_led (slot : s.slot = 7) (hj : j = s.matJob bank.toNat clr (s.rs a).toNat 0 0) (legal : productLegal s j)
    (own : s.cur % 2 = bank.toNat) (leads : mask.getLsbD (coreOf s.cur % 4) = true) (near : (s.rs b).toNat % 2 ^ 32 < 0x80000)
    (fits : (s.memberJob (coreOf s.cur) j).overSlot = false)
    (members : ∀ i, i < 4 → mask.getLsbD i = true → (s.ctx (clusterOf s.cur * 8 + 2 * i + bank.toNat)).state = .running
      ∧ (s.ctx (clusterOf s.cur * 8 + 2 * i + bank.toNat)).kernel = s.me.kernel) :
    exec (.mgang mask bank clr a b) s = .next
      (if (List.range 4).any fun i => mask.getLsbD i && s.kindClash (clusterOf s.cur * 4 + i) j then s.illegal
        else s.chainCmd j (.gang mask j (s.rs b))) := by
  obtain ⟨some, few, pair, allowed⟩ := legal
  have counts : (s.rs a).toNat = j.count := by rw [hj]; rfl
  rw [exec_inE slot fun _ => rfl]
  dsimp only
  rw [← hj, if_neg, if_neg (by rw [gangMembers_ready members]; exact Bool.false_ne_true)]
  rw [counts, show ownBank s.cur = bank.toNat from own]
  simp [leads, pair, fits]
  omega

end

theorem matrixCommandResults : Claims.MatrixCommandResults := by
  unfold Claims.MatrixCommandResults
  refine ⟨fun ar br bank clr a s slot room => ?_, fun bank s slot room => ⟨fun ok => ?_, fun bad => ?_⟩,
    fun bank lsf layout a b s slot room ok aligned pair float => exec_mret_legal slot room ok aligned pair float,
    fun mask bank clr a b s slot room => ?_⟩
  · intro j legal real apart even ringA buffer ringB takes
    exact exec_mma_legal slot room rfl legal real apart even ringA buffer ringB takes
  · rw [exec_mzero_iff slot room, if_pos ok]
  · rw [exec_mzero_iff slot room, if_neg (by simp [bad])]
  · intro j legal own leads near fits members takes clash
    have any : ((List.range 4).any fun i => mask.getLsbD i && s.kindClash (clusterOf s.cur * 4 + i) j) = true
        ↔ ∃ i, i < 4 ∧ clash i := by
      simp only [List.any_eq_true, List.mem_range, Bool.and_eq_true, State.kindClash_iff]
      rfl
    rw [exec_mgang_led slot rfl legal own leads near fits members]
    refine ⟨fun none => ?_, fun some => ?_⟩
    · rw [if_neg (by rw [any]; exact fun ⟨i, hi, c⟩ => none i hi c), State.chainCmd_takes room takes]
      rfl
    · rw [if_pos (any.2 some)]

/-! The factor commands (R119, R120). -/

theorem State.factorCmd_legal {s : State} (room : commandRoom s) (op : Nat) (opts : BitVec 4) (a b : BitVec 5)
    (some : 1 ≤ fld s.me.arch.fgeo 7 0) (few : fld s.me.arch.fgeo 7 0 ≤ 128) (begun : s.me.fprog.toNat < fld s.me.arch.fgeo 7 0)
    (wide : 4 * fld s.me.arch.fgeo 7 0 ≤ fld s.me.arch.fgeo 31 8)
    (wideB :
        op = 0x79 → 4 * (if opts.getLsbD 3 then fld s.me.arch.fgeo 7 0 else fld s.me.arch.frhs 39 32 + 1) ≤ fld s.me.arch.fgeo 31 8)
    (aligned : (low32 s a).toNat % 4 = 0) (alignedB : op = 0x79 ∨ op = 0x78 → fld s.me.arch.frhs 31 0 % 4 = 0)
    (pair : (s.rs b).toNat % 4 = 0) (closed : (s.me.chain (s.cur % 2)).isOpen = false) :
    s.factorCmd op opts a b = held s (.factor ⟨op, opts, low32 s a, s.me.arch.fgeo, s.me.arch.frhs, s.me.arch.fmt, s.rs b,
        s.me.splo,
      s.me.sphi, s.me.fprog.toNat, s.me.fperm, none⟩) := by
  have tile : (s.rs a).truncate 32 = low32 s a := truncate_eq_ofNat _
  have low : (s.rs a).toNat % 2 ^ 32 = (low32 s a).toNat := (BitVec.toNat_ofNat _ _).symm
  unfold State.factorCmd
  dsimp only
  rw [tile, low, if_neg, State.gate_command room]
  rw [show ownBank s.cur = s.cur % 2 from rfl]
  generalize (if opts.getLsbD 3 = true then fld s.me.arch.fgeo 7 0 else fld s.me.arch.frhs 39 32 + 1) = row at wideB ⊢
  simp [aligned, pair, closed]
  exact ⟨⟨⟨⟨⟨by omega, few⟩, begun⟩, wide⟩, wideB⟩, alignedB⟩

/-- R119: the option R of FTRSM is the highest of its four. -/
theorem trsmOptions_right : ∀ right upper tr unit : Bool,
    (BitVec.ofBool right ++ BitVec.ofBool upper ++ BitVec.ofBool tr ++ BitVec.ofBool unit).getLsbD 3 = right := by decide

/-- R119, R120: every factor command is held with what it captures. -/
theorem factorCommandResults : Claims.FactorCommandResults := by
  unfold Claims.FactorCommandResults
  intro a b right upper tr unit variant s slot room n stride job v cols some few begun wide aligned pair closed
  refine ⟨?_, ?_, fun rhs => ?_, fun rhs wideB => ?_⟩
  · rw [exec_inE slot fun _ => rfl]
    exact congrArg _ (State.factorCmd_legal room 0x76 v a b some few begun wide (by omega) aligned (by omega) pair closed)
  · rw [exec_inE slot fun _ => rfl]
    exact congrArg _ (State.factorCmd_legal room 0x77 v a b some few begun wide (by omega) aligned (by omega) pair closed)
  · rw [exec_inE slot fun _ => rfl]
    exact congrArg _ (State.factorCmd_legal room 0x78 0 a b some few begun wide (by omega) aligned (fun _ => rhs) pair closed)
  · rw [exec_inE slot fun _ => rfl]
    refine congrArg _ (State.factorCmd_legal room 0x79 _ a b some few begun wide (fun _ => ?_) aligned (fun _ => rhs) pair closed)
    rw [trsmOptions_right]
    exact wideB

/-- Settles O53 (R105 to R107, R110, R112, R114, R119, R120, R323, R324, R326): each command passes its checks,
    and is held beside the
chain that it leaves. -/
theorem matrixAndFactorCommandResults : Obligations.MatrixAndFactorCommandResults := by
  unfold Obligations.MatrixAndFactorCommandResults
  exact ⟨matrixCommandResults, factorCommandResults⟩

end Sys2Proof.Machine
end

section
/-!
PROOFS. What the end of an engine command leaves alone (R110, R111, R122, R130, R166): near store, the numbers of the commands in
flight, and, where no context is saved, the rest of memory and the work of every context.
-/

namespace Sys2Proof.Machine

open Sys2Proof.Claims (journalOff gone nearPair wordAt)

/-! The relation. -/

/-- The work of a context: its captured part, its proofs, and what its bundle waits for. -/
structure Ctx.SameWork (c d : Ctx) : Prop where
  arch : d.arch = c.arch
  captured : d.captured = c.captured
  unsealed : d.unsealed = c.unsealed
  bracket : d.bracket = c.bracket

theorem Ctx.SameWork.refl (c : Ctx) : c.SameWork c := ⟨rfl, rfl, rfl, rfl⟩
theorem Ctx.SameWork.trans {c d e : Ctx} (h : c.SameWork d) (k : d.SameWork e) : c.SameWork e :=
  ⟨k.arch.trans h.arch, k.captured.trans h.captured, k.unsealed.trans h.unsealed, k.bracket.trans h.bracket⟩

/-- What the reports and the settling at the end of a command do: no command is new, near store stays, and where no context is
saved all memory and the work of every context stay too. -/
structure State.Follows (s t : State) : Prop where
  ids : ∀ d ∈ t.cmds, ∃ e ∈ s.cmds, e.id = d.id
  near : ∀ k, k < 0x10000000 → t.mem.read k = s.mem.read k
  unsaved : s.ce.saved = [] → t.ce.saved = [] ∧ t.mem = s.mem ∧ ∀ g, (s.ctx g).SameWork (t.ctx g)

namespace State.Follows

variable {s t u : State}

theorem trans (h : s.Follows t) (k : t.Follows u) : s.Follows u where
  ids d hd := by
    obtain ⟨e, he, eq⟩ := k.ids d hd
    obtain ⟨f, hf, eq'⟩ := h.ids e he
    exact ⟨f, hf, eq'.trans eq⟩
  near n hn := (k.near n hn).trans (h.near n hn)
  unsaved none := by
    obtain ⟨saved, mem, work⟩ := h.unsaved none
    obtain ⟨saved', mem', work'⟩ := k.unsaved saved
    exact ⟨saved', mem'.trans mem, fun g => (work g).trans (work' g)⟩

/-- Memory, the saved contexts and the work of each context are as they were, and no command is new. -/
theorem of_same (ids : ∀ d ∈ t.cmds, ∃ e ∈ s.cmds, e.id = d.id) (mem : t.mem = s.mem) (saved : t.ce.saved = s.ce.saved)
    (work : ∀ g, (s.ctx g).SameWork (t.ctx g)) : s.Follows t :=
  ⟨ids, fun _ _ => by rw [mem], fun none => ⟨saved.trans none, mem, work⟩⟩

/-- A change of neither commands, memory, saved contexts nor contexts. -/
theorem of_eq (cmds : t.cmds = s.cmds) (mem : t.mem = s.mem) (saved : t.ce.saved = s.ce.saved) (ctxs : t.ctxs = s.ctxs) :
    s.Follows t :=
  of_same (fun d hd => ⟨d, cmds ▸ hd, rfl⟩) mem saved fun g => State.ctx_congr ctxs g ▸ .refl _

theorem refl (s : State) : s.Follows s := of_eq rfl rfl rfl rfl

/-- A change where a context is saved. -/
theorem of_saved (some : s.ce.saved ≠ []) (cmds : t.cmds = s.cmds) (near : ∀ k, k < 0x10000000 → t.mem.read k = s.mem.read k) :
    s.Follows t :=
  ⟨fun d hd => ⟨d, cmds ▸ hd, rfl⟩, near, fun none => absurd none some⟩

/-- A change of one context that keeps its work. -/
theorem modCtx (s : State) (g : Nat) {f : Ctx → Ctx} (work : ∀ c, Ctx.SameWork c (f c)) : s.Follows (s.modCtx g f) := by
  refine of_same (fun d hd => ⟨d, hd, rfl⟩) rfl rfl fun h => ?_
  by_cases same : h = g
  · rw [same, State.ctx_modCtx_self]
    exact work _
  · rw [State.ctx_modCtx_other _ _ same]
    exact .refl _

/-- Commands leave. -/
theorem dropCmds (s : State) (keep : Cmd → Bool) : s.Follows { s with cmds := s.cmds.filter keep } :=
  of_same (fun d hd => ⟨d, (List.mem_filter.1 hd).1, rfl⟩) rfl rfl fun _ => .refl _

/-- A command changes and keeps its number. -/
theorem modCmd (s : State) (n : Nat) {f : Cmd → Cmd} (id : ∀ c, (f c).id = c.id) : s.Follows (s.modCmd n f) := by
  refine of_same (fun d hd => ?_) rfl rfl fun _ => .refl _
  obtain ⟨e, he, rfl⟩ := List.mem_map.1 hd
  refine ⟨e, he, ?_⟩
  split
  · exact (id e).symm
  · rfl

theorem modKernel (s : State) (k : Nat) (f : Kernel → Kernel) : s.Follows (s.modKernel k f) := by
  unfold State.modKernel
  split
  · exact refl s
  · exact of_eq rfl rfl rfl rfl

theorem progressOf (s : State) (k : Option Nat) : s.Follows (s.progressOf k) := by
  unfold State.progressOf
  split
  · exact of_eq rfl rfl rfl rfl
  · exact refl s

theorem clearBank (s : State) (core bank : Nat) : s.Follows (s.clearBank core bank) := of_eq rfl rfl rfl rfl

theorem ite {c : Prop} [Decidable c] {a b : State} (ha : s.Follows a) (hb : s.Follows b) : s.Follows (if c then a else b) := by
  split <;> assumption

theorem foldl {α : Type} {f : State → α → State} (step : ∀ (t : State) a, t.Follows (f t a)) (l : List α) (s : State) :
    s.Follows (l.foldl f s) :=
  foldl_keeps (P := s.Follows) f (fun t a ht => ht.trans (step t a)) l s (refl s)

end State.Follows

/-! Writes of the device to a save slot (R228, R253). -/

theorem State.journalPoison_cmds (s : State) (l : List Nat) : (s.journalPoison l).cmds = s.cmds := by
  refine foldl_keeps (P := fun t : State => t.cmds = s.cmds) _ (fun t g ht => ?_) l s rfl
  obtain e | ⟨e, he⟩ := t.journalGranule_cases g
  · rwa [e]
  · rw [he, State.journal_cmds, ht]
theorem State.mergeCells_cmds (s : State) (l : List (Nat × Byte)) : (s.mergeCells l).cmds = s.cmds :=
  State.journalPoison_cmds _ _
theorem State.writePhys_cmds (s : State) (pa : Nat) (l : List Byte) : (s.writePhys pa l).cmds = s.cmds := by
  unfold State.writePhys
  split
  · rfl
  · exact s.mergeCells_cmds _
/-- Near store is no physical address. -/
theorem State.read_writePhys_near (s : State) (pa : Nat) (l : List Byte) {k : Nat} (near : k < 0x10000000) :
    (s.writePhys pa l).mem.read k = s.mem.read k := by
  unfold State.writePhys
  split
  · rfl
  · refine State.read_mergeCells_other (.inr (.inr near)) fun c hc => ?_
    obtain ⟨p, -, rfl⟩ := List.mem_map.1 hc
    have := physKey_ge (pa + p.2)
    dsimp only
    omega

theorem State.saved_ne_nil {s : State} {g : Nat} {p : Saved → Bool} {v : Saved} (h : (AMap.find s.ce.saved g).filter p = some v) :
    s.ce.saved ≠ [] := fun none => by simp [none] at h

/-! Reports and flags (R110, R122, R130, R213). -/

namespace State.Follows

variable {s : State}

theorem writePhys (some : s.ce.saved ≠ []) (pa : Nat) (l : List Byte) : s.Follows (s.writePhys pa l) :=
  of_saved some (s.writePhys_cmds pa l) fun _ near => s.read_writePhys_near pa l near

theorem holdCause (some : s.ce.saved ≠ []) (g : Nat) (v : Saved) (c : Cause) : s.Follows (s.holdCause g v c) := by
  unfold State.holdCause
  split
  · exact refl s
  · refine of_saved some ?_ fun k near => ?_
    · exact ((State.writePhys_cmds _ _ _).trans (State.writePhys_cmds _ _ _))
    · exact (State.read_writePhys_near _ _ _ near).trans (State.read_writePhys_near _ _ _ near)

theorem reportTo (s : State) (g gen : Nat) (c : Cause) : s.Follows (s.reportTo g gen c) := by
  unfold State.reportTo
  split
  · rename_i v h
    exact holdCause (State.saved_ne_nil h) g v c
  · refine ite (modCtx s g fun c => ?_) (refl s)
    exact ⟨rfl, rfl, rfl, rfl⟩

theorem report (s : State) (i : Issuer) (code : Nat) (detail : BitVec 32) (faddr : Word) :
    s.Follows (s.report i code detail faddr) :=
  reportTo s i.g i.gen _

theorem reportIsolated (s : State) (i : Issuer) (a : Option Nat) : s.Follows (s.reportIsolated i a) := by
  cases a with
  | none => exact refl s
  | some a => exact report s i _ _ _

theorem reportFail (s : State) (c : Cmd) (addr : BitVec 32) : s.Follows (s.reportFail c addr) := by
  unfold State.reportFail
  split
  · exact refl s
  · exact report s c.by_ _ _ _

theorem gatherTo (s : State) (i : Issuer) (f : BitVec 4) : s.Follows (s.gatherTo i f) := by
  unfold State.gatherTo
  split
  · rename_i v h
    split
    · exact writePhys (State.saved_ne_nil h) _ _
    · exact refl s
  · refine ite (modCtx s i.g fun c => ?_) (refl s)
    exact ⟨rfl, rfl, rfl, rfl⟩

theorem giveGathered (s : State) (core bank : Nat) (i : Issuer) : s.Follows (s.giveGathered core bank i) :=
  (gatherTo s i _).trans (of_eq rfl rfl rfl rfl)

/-! Commands that take effect at release (R103, R107, R184, R200, R226, R374). -/

theorem forgetUnits (s : State) (i : Issuer) : s.Follows (s.forgetUnits i) := by
  unfold State.forgetUnits
  split
  · rename_i v h
    exact of_saved (State.saved_ne_nil h) rfl fun _ _ => rfl
  · refine ite (modCtx s i.g fun c => ?_) (refl s)
    exact ⟨rfl, rfl, rfl, rfl⟩

theorem trigger (s : State) (i : Issuer) : s.Follows (s.trigger i) := by
  unfold State.trigger
  split
  · exact refl s
  · exact modKernel s _ _

theorem spendPace (s : State) (core engine : Nat) : s.Follows (s.spendPace core engine) :=
  ite (of_eq rfl rfl rfl rfl) (refl s)

theorem settleReady (s : State) (c : Cmd) : s.Follows (s.settleReady c) := by
  unfold State.settleReady
  split
  · exact (dropCmds s _).trans (of_eq rfl rfl rfl rfl)
  · exact ite ((dropCmds s _).trans (forgetUnits _ _)) (dropCmds s _)
  · exact dropCmds s _
  · exact dropCmds s _
  · exact dropCmds s _
  · exact ite (((clearBank s _ _).trans (giveGathered _ _ _ _)).trans (dropCmds _ _)) (refl s)
  · exact (dropCmds s _).trans (trigger _ _)
  · exact (dropCmds s _).trans (of_eq rfl rfl rfl rfl)
  · exact refl s

theorem settleOne (s : State) (c : Cmd) : s.Follows (s.settleOne c) := by
  unfold State.settleOne
  refine ite (modCmd s c.id fun _ => rfl) (ite (refl s) ?_)
  split
  · exact settleReady s c
  · exact ite ((spendPace s _ _).trans (settleReady _ c)) (refl s)

theorem settle (s : State) : s.Follows s.settle := foldl settleOne s.cmds s

theorem finish (s : State) (n : Nat) : s.Follows (s.finish n) := (dropCmds s _).trans (settle _)

end State.Follows

end Sys2Proof.Machine
end

section
/-!
PROOFS. What a boundary takes, strikes and vigils (R116, R242, R245 to R247, R257, R302, R359 to R361): O59's first part.
-/

namespace Sys2Proof.Machine

open Sys2Proof.Claims (takesNext)

/-! The causes of a boundary (R245 to R247, R257). -/

theorem execTrapEntry_stopped {g : Nat} {s : State} (stopped : (s.ctx g).state ≠ .running) : exec (.trapEntry g) s = .next s :=
  congrArg _ (if_pos stopped)

section
variable {g : Nat} {s : State} (running : (s.ctx g).state = .running)
include running

/-- A running context takes an engine's cause or a poisoned landing, or else the expiry notice. -/
theorem execTrapEntry_running : exec (.trapEntry g) s = .next (match s.takeSync g with
    | some t => t
    | none => if (s.ctx g).expiryDue then (s.modCtx g fun x => { x with notice := false }).take g (s.ctx g).expiryCause else s) :=
  congrArg _ (if_neg (not_not_intro running))

end

theorem keepsBundle_iff (code : Nat) : keepsBundle code = true ↔ code = 0x10 ∨ code = 0x11 ∨ code = 0x21 := by
  simp [keepsBundle, or_assoc]
theorem causeWord_bkpt_eq (detail : BitVec 32) : causeWord 0x10 false detail = BitVec.ofNat 64 (0x10 + detail.toNat * 2 ^ 32) := by
  rw [← causeWord_bkpt, BitVec.ofNat_toNat, BitVec.setWidth_eq]

/-- R247, R251, R257: taking the engine's cause that is next. -/
theorem State.takeEngine_eq {s : State} {g : Nat} {e : Cause} {l : List Cause} (causes : (s.ctx g).causes = e :: l) :
    s.takeEngine g e = takesNext s g e l := by
  have rest : (s.modCtx g fun x => { x with causes := x.causes.drop 1 }) = s.setCtx g { s.ctx g with causes := l } := by
    rw [State.modCtx, causes]
    rfl
  unfold State.takeEngine takesNext
  dsimp only
  rw [rest]
  by_cases debugger : e.code = 0x10 ∧ (s.ctx g).present = true
  · obtain ⟨bkpt, present⟩ := debugger
    have keeps : keepsBundle e.code = true := by rw [bkpt]; rfl
    rw [if_pos keeps, if_pos ⟨bkpt, present⟩, State.takeTrap_of_debugger bkpt (by rw [State.ctx_setCtx_self]; exact present),
      causeWord_bkpt_eq]
    rfl
  · rw [if_neg debugger]
    by_cases keeps : keepsBundle e.code = true
    · rw [if_pos keeps, if_pos ((keepsBundle_iff _).1 keeps), State.takeTrap, State.ctx_setCtx_self, if_neg debugger]
    · rw [if_neg keeps, if_neg fun h => keeps ((keepsBundle_iff _).2 h)]

theorem Ctx.engineCause_of_cons {c : Ctx} {e : Cause} {l : List Cause} (causes : c.causes = e :: l) (free : c.intrap = false) :
    c.engineCause = some e := by
  simp [Ctx.engineCause, Ctx.holdsCauses, free, causes]

/-! Breakpoints (R257). -/

/-- R257: a register of a debugger that names an address, and is on, holds just these. -/
theorem breakpoint_iff (p : BitVec 33) (pc : BitVec 32) :
    (p.getLsbD 32 && p.truncate 32 == pc) = true ↔ p = (1 : BitVec 1) ++ pc := by
  rw [Bool.and_eq_true, beq_iff_eq, ← BitVec.toNat_inj, ← BitVec.toNat_inj, BitVec.toNat_append, BitVec.truncate_eq_setWidth,
    BitVec.toNat_setWidth, BitVec.getLsbD, Nat.testBit_eq_decide_div_mod_eq, decide_eq_true_eq,
        ← Nat.shiftLeft_add_eq_or_of_lt pc.isLt]
  simp only [Nat.shiftLeft_eq]
  have := p.isLt
  have := pc.isLt
  have : BitVec.toNat (1 : BitVec 1) = 1 := rfl
  omega

theorem execParcelBreakpoint_at {g i : Nat} {s : State} (running : (s.ctx g).state = .running) (fresh : (s.ctx g).bpDone = false)
    (first : (s.ctx g).arch.printRep = 0) (named : (i, (1 : BitVec 1) ++ (s.ctx g).arch.pc) ∈ (s.ctx g).bps) :
    exec (.parcelBreakpoint g) s = .next (s.setCtx g { s.ctx g with state := .frozen, freeze := some .debug, bpDone := true }) := by
  have stands : (s.ctx g).atBreakpoint = true := by
    simp only [Ctx.atBreakpoint, fresh, first, Bool.not_false, beq_self_eq_true, Bool.and_self, Bool.true_and]
    exact List.any_eq_true.2 ⟨_, named, (breakpoint_iff _ _).2 rfl⟩
  exact congrArg _ (if_pos ⟨running, stands⟩)

theorem execParcelBreakpoint_none {g : Nat} {s : State}
    (away : ∀ p ∈ (s.ctx g).bps, p.2 ≠ (1 : BitVec 1) ++ (s.ctx g).arch.pc) : exec (.parcelBreakpoint g) s = .next s := by
  have none : ¬(s.ctx g).atBreakpoint = true := by
    unfold Ctx.atBreakpoint
    intro h
    obtain ⟨p, hp, at_⟩ := List.any_eq_true.1 (Bool.and_eq_true_iff.1 h).2
    exact away p hp ((breakpoint_iff _ _).1 at_)
  exact congrArg _ (if_neg fun h => none h.2)

/-! Vigils (R359 to R361). -/

/-- R359: the contexts that a vigil names: of the cluster, by its mask. -/
def vigilNamed (g : Nat) (m : BitVec 8) (h : Nat) : Prop := h / 8 = g / 8 ∧ m.getLsbD (h % 8) = true

theorem mem_vigilNames (g : Nat) (m : BitVec 8) (h : Nat) : h ∈ vigilNames g m ↔ vigilNamed g m h := by
  unfold vigilNames vigilNamed clusterOf
  simp only [List.mem_map, List.mem_filter, List.mem_range]
  constructor
  · rintro ⟨k, ⟨lt, set⟩, rfl⟩
    have e : (g / 8 * 8 + k) % 8 = k := by omega
    exact ⟨by omega, by rw [e]; exact set⟩
  · rintro ⟨same, set⟩
    exact ⟨h % 8, ⟨by omega, set⟩, by omega⟩
theorem vigilNames_nodup (g : Nat) (m : BitVec 8) : (vigilNames g m).Nodup :=
  (List.nodup_range.filter _).map fun a b h => by simpa using h

/-- Where no context is saved, what counts of a position is the arrival of the context at work there. -/
theorem State.vigilMet_iff {s : State} {g : Nat} {a : Arrival} (arrived : (s.ctx g).arrival = some a) (waits : a.complete = false)
    (none : s.ce.saved = []) : s.vigilMet g = true ↔ ∀ h, vigilNamed g a.mask h → (s.ctx h).kernel = (s.ctx g).kernel
      ∧ ∃ b, (s.ctx h).arrival = some b ∧ b.vid = a.vid ∧ b.mask = a.mask ∧ b.complete = false := by
  have live : ∀ h, ((s.savedArrival h (s.ctx g).kernel).any a.meets || (s.liveArrival h (s.ctx g).kernel).any a.meets) = true
      ↔ (s.ctx h).kernel = (s.ctx g).kernel
        ∧ ∃ b, (s.ctx h).arrival = some b ∧ b.vid = a.vid ∧ b.mask = a.mask ∧ b.complete = false := by
    intro h
    have away : s.savedArrival h (s.ctx g).kernel = Option.none := by simp [State.savedArrival, none]
    rw [away, State.liveArrival]
    split
    · rename_i same
      simp [same, Option.any_eq_true, Arrival.meets, and_assoc]
    · rename_i other
      simp [other]
  unfold State.vigilMet
  simp only [arrived, waits, Bool.not_false, Bool.true_and, List.all_eq_true, mem_vigilNames, live]

/-- R359, R360: what a completed vigil makes of a context. -/
def Ctx.vigilDone (c : Ctx) : Ctx :=
  { c.dropUnits with arrival := c.arrival.map fun b => { b with complete := true } }

/-- Where no context is saved, a vigil completes in the contexts at work, each once. -/
theorem State.completeArrivals_spec (kernel : Option Nat) (a : Arrival) {l : List Nat} (once : l.Nodup) {s : State}
    (none : s.ce.saved = []) : (l.foldl (fun t h => t.completeArrival h kernel a) s).mem = s.mem
      ∧ ∀ h, (l.foldl (fun t h => t.completeArrival h kernel a) s).ctx h = if h ∈ l then (s.ctx h).vigilDone else s.ctx h := by
  induction l generalizing s with
  | nil => exact ⟨rfl, fun h => by simp⟩
  | cons k l ih =>
    obtain ⟨new, once⟩ := List.nodup_cons.1 once
    have step : s.completeArrival k kernel a = s.modCtx k Ctx.vigilDone := by
      simp only [State.completeArrival, none]
      rfl
    obtain ⟨mem, ctx⟩ := ih once (s := s.modCtx k Ctx.vigilDone) none
    rw [List.foldl_cons, step]
    refine ⟨mem, fun h => ?_⟩
    rw [ctx h]
    by_cases same : h = k
    · subst same
      rw [if_neg new, State.ctx_modCtx_self, if_pos List.mem_cons_self]
    · rw [State.ctx_modCtx_other _ _ same]
      simp [same]

theorem execVigilCompletion_eq {g : Nat} {s : State} {a : Arrival} (arrived : (s.ctx g).arrival = some a) :
    exec (.vigilCompletion g) s = .next (if s.vigilMet g then
      (vigilNames g a.mask).foldl (fun t h => t.completeArrival h (s.ctx g).kernel a) s else s) := by
  show execVigilCompletion g s = _
  unfold execVigilCompletion
  rw [arrived]

/-- R302, R361: a vigil that waits runs out by the VGTMO that has landed. -/
theorem execVigilto_eq {g : Nat} {s : State} {a : Arrival} (arrived : (s.ctx g).arrival = some a)
    (running : (s.ctx g).state = .running) (free : (s.ctx g).intrap = false) (waits : a.complete = false) :
        exec (.vigilto g) s = .next
      (if (s.ctx g).land.arch.vgtmo.toNat * 1024 ≠ 0 ∧ a.since + (s.ctx g).land.arch.vgtmo.toNat * 1024 ≤ s.cycle then
        s.take g ⟨0x13, a.vid.zeroExtend 32, (s.ctx g).arch.pc, 0, false, (s.ctx g).arch.printRep, 0, false, (s.ctx g).arch.tick⟩
      else s) := by
  have late : s.vigilLate g = true ↔ (s.ctx g).land.arch.vgtmo.toNat * 1024 ≠ 0
      ∧ a.since + (s.ctx g).land.arch.vgtmo.toNat * 1024 ≤ s.cycle := by
    have zero : (s.ctx g).land.arch.vgtmo = 0#32 ↔ (s.ctx g).land.arch.vgtmo.toNat = 0 := by
      rw [← BitVec.toNat_inj]
      rfl
    simp [State.vigilLate, arrived, running, free, waits, zero]
  show execVigilto g s = _
  unfold execVigilto
  simp only [arrived, late]

/-! Strikes (R242). -/

theorem AMap.mem_of_find {α : Type} {m : AMap α} {k : Nat} {v : α} (h : AMap.find m k = some v) : (k, v) ∈ m := by
  induction m with
  | nil => cases h
  | cons p t ih =>
    obtain ⟨a, x⟩ := p
    rw [AMap.find] at h
    split at h
    · rename_i same
      rw [same, Option.some.inj h]
      exact List.mem_cons_self
    · exact List.mem_cons_of_mem _ (ih h)

/-- No context waits to start. -/
def State.Unclaimed (s : State) : Prop := ∀ x ∈ s.ctxs, x.2.startSeg = none

theorem State.Unclaimed.ctx {s : State} (h : s.Unclaimed) (g : Nat) : (s.ctx g).startSeg = none := by
  unfold State.ctx AMap.get
  cases found : AMap.find s.ctxs g with
  | none => rfl
  | some c => exact h _ (AMap.mem_of_find found)

/-- What a strike may change of a core for one of its contexts: the kinds of its banks and that context. -/
structure State.StruckOnly (g : Nat) (s t : State) : Prop where
  mem : t.mem = s.mem
  cores : ∀ k, k ≠ coreOf g → t.core k = s.core k
  core : t.core (coreOf g) = { s.core (coreOf g) with kinds := (t.core (coreOf g)).kinds }
  ctxs : ∀ h, h ≠ g → t.ctx h = s.ctx h
  unclaimed : t.Unclaimed

namespace State.StruckOnly

variable {g : Nat} {s t : State}

theorem refl (h : s.Unclaimed) : s.StruckOnly g s := ⟨rfl, fun _ _ => rfl, rfl, fun _ _ => rfl, h⟩

theorem discard (h : s.StruckOnly g t) (serial : Nat) : s.StruckOnly g (t.discard g serial) := by
  have same : t.discard g serial = t.modCore (coreOf g) fun k => k.forgetKinds g (t.ctx g).gen serial := by
    rw [State.discard, State.unclaim_none _ _ _ h.unclaimed]
  rw [same]
  refine ⟨h.mem, fun k other => ?_, ?_, h.ctxs, h.unclaimed⟩
  · rw [State.core_modCore_other _ _ other, h.cores k other]
  · rw [State.core_modCore_self, h.core]
    rfl

theorem modCtx (h : s.StruckOnly g t) {f : Ctx → Ctx} (keeps : (f (t.ctx g)).startSeg = (t.ctx g).startSeg) :
    s.StruckOnly g (t.modCtx g f) := by
  refine ⟨h.mem, h.cores, h.core, fun k other => ?_, fun x hx => ?_⟩
  · rw [State.ctx_modCtx_other _ _ other, h.ctxs k other]
  · rcases AMap.mem_put hx with rfl | old
    · exact keeps.trans (h.unclaimed.ctx g)
    · exact h.unclaimed x old

end State.StruckOnly

theorem State.discard_ctx {s : State} (h : s.Unclaimed) (g serial k : Nat) : (s.discard g serial).ctx k = s.ctx k := by
  rw [State.discard, State.unclaim_none _ _ _ h]
  rfl

/-- R243: a context that has a sealed proof goes back to it. -/
theorem State.rewindCtx_sealed {s : State} {g : Nat} {p : Capture} (captured : (s.ctx g).captured = some p) :
    s.rewindCtx g true = (s.discard g p.serial).modCtx g fun x => x.rewindTo p := by
  simp [State.rewindCtx, captured]

theorem State.StruckOnly.rewindCtx {s : State} (h : s.Unclaimed) (g : Nat) : s.StruckOnly g (s.rewindCtx g true) := by
  cases captured : (s.ctx g).captured with
  | none => simpa [State.rewindCtx, captured] using refl h
  | some p =>
    rw [State.rewindCtx_sealed captured]
    exact ((refl h).discard p.serial).modCtx rfl

/-- R242: what a strike makes of a context that is at work, gone back to its newest sealed proof. -/
def Ctx.struck (x : Ctx) : Ctx := { x.rejoin with intrap := false, preqHeld := false, entry := none }

theorem State.StruckOnly.strikeCtx {s : State} (h : s.Unclaimed) (g : Nat) : s.StruckOnly g (s.strikeCtx g) := by
  have back : s.StruckOnly g ((s.rewindCtx g true).modCtx g Ctx.struck) := (rewindCtx h g).modCtx rfl
  have atWork : s.StruckOnly g (if (s.ctx g).state = .sealing
      then ((s.rewindCtx g true).modCtx g Ctx.struck).modCtx g fun x => { x with state := .running }
      else (s.rewindCtx g true).modCtx g Ctx.struck) := by
    split
    · exact back.modCtx rfl
    · exact back
  unfold State.strikeCtx
  dsimp only
  split
  · exact atWork
  · exact atWork
  · exact atWork
  · exact ((refl h).discard _).modCtx rfl
  · exact refl h

/-- R242: a running context is at its newest sealed proof after a strike. -/
theorem State.strikeCtx_running {s : State} (h : s.Unclaimed) {g : Nat} {p : Capture} (running : (s.ctx g).state = .running)
    (captured : (s.ctx g).captured = some p) : (s.strikeCtx g).ctx g = ((s.ctx g).rewindTo p).struck := by
  have atWork : s.strikeCtx g = (s.rewindCtx g true).modCtx g Ctx.struck := by
    unfold State.strikeCtx
    simp only [running]
    rfl
  rw [atWork, State.ctx_modCtx_self, State.rewindCtx_sealed captured, State.ctx_modCtx_self, State.discard_ctx h]

/-- R242: a strike changes its core's two contexts one after the other, and in the core the kinds of its banks. -/
theorem strikeReport_spec (core : Nat) {s : State} (h : s.Unclaimed) : ∃ t, exec (.strikeReport core) s = .next t
    ∧ t.mem = s.mem ∧ (∀ k, k ≠ core → t.core k = s.core k) ∧ t.core core = { s.core core with kinds := (t.core core).kinds }
    ∧ (∀ g, g / 2 ≠ core → t.ctx g = s.ctx g)
    ∧ ∀ g p, g / 2 = core → (s.ctx g).state = .running → (s.ctx g).captured = some p → t.ctx g = ((s.ctx g).rewindTo p).struck := by
  have first := State.StruckOnly.strikeCtx h (2 * core)
  have second := State.StruckOnly.strikeCtx first.unclaimed (2 * core + 1)
  have core₁ : coreOf (2 * core) = core := by unfold coreOf; omega
  have core₂ : coreOf (2 * core + 1) = core := by unfold coreOf; omega
  have kinds₁ := first.core
  have kinds₂ := second.core
  rw [core₁] at kinds₁
  rw [core₂] at kinds₂
  refine ⟨_, rfl, second.mem.trans first.mem, fun k other => ?_, ?_, fun g other => ?_, fun g p mine running captured => ?_⟩
  · rw [second.cores k (by rwa [core₂]), first.cores k (by rwa [core₁])]
  · rw [kinds₂, kinds₁]
  · rw [second.ctxs g (by omega), first.ctxs g (by omega)]
  · obtain rfl | rfl : g = 2 * core ∨ g = 2 * core + 1 := by omega
    · rw [second.ctxs _ (by omega), State.strikeCtx_running h running captured]
    · have same := first.ctxs (2 * core + 1) (by omega)
      rw [State.strikeCtx_running first.unclaimed (by rwa [same]) (by rwa [same]), same]

/-! The statement. -/

theorem boundaryEvents : Claims.BoundaryEvents := by
  unfold Claims.BoundaryEvents
  refine ⟨fun g s => ⟨execTrapEntry_stopped, fun running noLanding => ⟨fun e l causes free => ?_, fun none notice asked free => ?_,
      fun none quiet => ?_⟩⟩, fun g p s running free landing => ⟨fun none => ?_, fun e l causes => ?_⟩,
    fun g i s running fresh first named => execParcelBreakpoint_at running fresh first named,
    fun g s away => execParcelBreakpoint_none away, fun g a s arrived waits none => ⟨fun met => ?_, fun ⟨h, named, away⟩ => ?_⟩,
    fun g a s arrived running free waits => ⟨fun some late => ?_, fun early => ?_⟩, fun core s unclaimed => ?_⟩
  · rw [execTrapEntry_running running]
    simp only [State.takeSync, Ctx.engineCause_of_cons causes free, noLanding, State.takeEngine_eq causes]
  · rw [execTrapEntry_running running]
    have due : (s.ctx g).expiryDue = true := by simp [Ctx.expiryDue, notice, asked, free]
    simp only [State.takeSync, Ctx.engineCause_of_nil none, noLanding, due]
    rfl
  · rw [execTrapEntry_running running]
    have notDue : (s.ctx g).expiryDue = false := by simp [Ctx.expiryDue, quiet]
    simp only [State.takeSync, Ctx.engineCause_of_nil none, noLanding, notDue]
    rfl
  · rw [execTrapEntry_running running]
    simp only [State.takeSync, Ctx.engineCause_of_nil none, landing]
    rfl
  · rw [execTrapEntry_running running]
    simp only [State.takeSync, Ctx.engineCause_of_cons causes free, landing, State.takeEngine_eq causes]
    rfl
  · rw [execVigilCompletion_eq arrived, if_pos ((State.vigilMet_iff arrived waits none).2 met)]
    obtain ⟨mem, ctx⟩ := s.completeArrivals_spec (s.ctx g).kernel a (vigilNames_nodup g a.mask) none
    exact ⟨_, rfl, mem, fun h named => (ctx h).trans (if_pos ((mem_vigilNames g a.mask h).2 named)),
      fun h other => (ctx h).trans (if_neg fun named => other ((mem_vigilNames g a.mask h).1 named))⟩
  · rw [execVigilCompletion_eq arrived, if_neg fun met => away ((State.vigilMet_iff arrived waits none).1 met h named)]
  · rw [execVigilto_eq arrived running free waits, if_pos ⟨some, late⟩]
  · rw [execVigilto_eq arrived running free waits, if_neg fun due => ?_]
    obtain ⟨some, late⟩ := due
    exact early.elim some fun before => Nat.not_le.2 before late
  · obtain ⟨t, runs, mem, cores, core', others, back⟩ := strikeReport_spec core unclaimed
    refine ⟨t, runs, mem, cores, core', others, fun g p mine running captured => ?_⟩
    rw [back g p mine running captured]
    exact ⟨rfl, rfl, running, rfl⟩

end Sys2Proof.Machine
end

section
/-!
PROOFS. What the reads of a transfer leave alone (R165, R170 to R179): contexts, cores, commands and the command engine but for the
journal's count.
-/

namespace Sys2Proof.Machine

/-- What a read of global memory or scratch leaves alone. -/
structure State.ReadsOnly (s t : State) : Prop where
  ctxs : t.ctxs = s.ctxs
  cores : t.cores = s.cores
  cmds : t.cmds = s.cmds
  ce : ∃ n, t.ce = { s.ce with jseq := n }

namespace State.ReadsOnly

variable {s t u : State}

theorem of_eq (ctxs : t.ctxs = s.ctxs) (cores : t.cores = s.cores) (cmds : t.cmds = s.cmds) (ce : t.ce = s.ce) : s.ReadsOnly t :=
  ⟨ctxs, cores, cmds, s.ce.jseq, ce⟩
theorem refl (s : State) : s.ReadsOnly s := of_eq rfl rfl rfl rfl
theorem trans (h : s.ReadsOnly t) (k : t.ReadsOnly u) : s.ReadsOnly u := by
  obtain ⟨n, hn⟩ := h.ce
  obtain ⟨m, hm⟩ := k.ce
  exact ⟨k.ctxs.trans h.ctxs, k.cores.trans h.cores, k.cmds.trans h.cmds, m, by rw [hm, hn]⟩
theorem saved (h : s.ReadsOnly t) : t.ce.saved = s.ce.saved := by
  obtain ⟨n, hn⟩ := h.ce
  rw [hn]
theorem jcfg (h : s.ReadsOnly t) : t.ce.jcfg = s.ce.jcfg := by
  obtain ⟨n, hn⟩ := h.ce
  rw [hn]

theorem journal (s : State) (e : JournalEntry) : s.ReadsOnly (s.journal e) :=
  ⟨s.journal_ctxs e, s.journal_cores e, s.journal_cmds e, _, s.journal_ce e⟩

theorem walkTables (s : State) (unit part : Nat) (supv write : Bool) (v : Nat) :
    s.ReadsOnly (s.walkTables unit part supv write v).2 := by
  unfold State.walkTables
  split
  · split
    · exact journal s _
    · exact refl s
  · exact refl s
  · split
    · exact refl s
    · refine .trans (t := s.markUsed _ write) ?_ (of_eq rfl rfl rfl rfl)
      unfold State.markUsed
      split <;> exact of_eq rfl rfl rfl rfl

theorem translate (s : State) (unit part : Nat) (supv write : Bool) (va : Nat) :
    s.ReadsOnly (s.translate unit part supv write va).2 := by
  unfold State.translate
  split
  · exact refl s
  · dsimp only
    split
    · split
      · exact refl s
      · exact walkTables ..
    · exact walkTables ..

end State.ReadsOnly

/-! Reads of a transfer. -/

theorem Move.request_readsOnly (m : Move) (c : Cmd) (va kind : Nat) (write : Bool) :
    m.state.ReadsOnly (m.request c va kind write).2.state := by
  unfold Move.request State.postRequest
  split
  · rename_i h
    split at h
    · cases h
    · cases h
      exact .of_eq rfl rfl rfl rfl
  · exact .refl _

theorem Move.ownByte_readsOnly (m : Move) (key : Nat) : m.state.ReadsOnly (m.ownByte key).2.state := by
  unfold Move.ownByte
  dsimp only
  split
  · exact .refl _
  · exact .of_eq rfl rfl rfl rfl

theorem State.placeByte_readsOnly (s : State) (i : Issuer) (p : Place) : s.ReadsOnly (s.placeByte i p).2.2 := by
  unfold State.placeByte
  dsimp only
  split
  · exact .refl _
  · exact .refl _
  · exact .of_eq rfl rfl rfl rfl

theorem Move.readPlace_readsOnly (m : Move) (i : Issuer) (p : Place) : m.state.ReadsOnly (m.readPlace i p).2.state := by
  unfold Move.readPlace
  split
  · exact m.ownByte_readsOnly _
  · exact m.state.placeByte_readsOnly i p

theorem Move.getGlobal_readsOnly (m : Move) (c : Cmd) (va : Nat) : m.state.ReadsOnly (m.getGlobal c va).2.state := by
  unfold Move.getGlobal
  split
  · exact .refl _
  · have looked := State.ReadsOnly.translate m.state (coreOf c.by_.g) c.by_.part c.by_.supv false va
    dsimp only
    split
    · exact looked
    · exact looked.trans (Move.request_readsOnly { m with state := _ } ..)
    · exact looked.trans (Move.readPlace_readsOnly { m with state := _ } ..)

theorem Move.getScratch_readsOnly (m : Move) (c : Cmd) (space a : Nat) : m.state.ReadsOnly (m.getScratch c space a).2.state := by
  unfold Move.getScratch
  split
  · exact .refl _
  · split
    · exact .refl _
    · exact m.ownByte_readsOnly _

theorem Move.get_readsOnly (m : Move) (c : Cmd) (space a : Nat) : m.state.ReadsOnly (m.get c space a).2.state := by
  unfold Move.get
  split
  · dsimp only
    split <;> exact m.getGlobal_readsOnly c _
  · exact m.getScratch_readsOnly c space _

theorem Move.getList_readsOnly (c : Cmd) (space : Nat) (n : Nat) : ∀ (m : Move) (a : Nat),
    m.state.ReadsOnly (m.getList c space a n).2.state := by
  induction n with
  | zero => exact fun m a => .refl _
  | succ n ih =>
    intro m a
    have first := m.get_readsOnly c space a
    have rest := first.trans (ih (m.get c space a).2 (a + 1))
    unfold Move.getList
    dsimp only
    split
    · exact first
    · split
      · rename_i h
        rw [h] at rest; exact rest
      · rename_i h
        rw [h] at rest; exact rest
    · split
      · rename_i h
        rw [h] at rest; exact rest
      · exact rest

theorem Move.getFlags_readsOnly (c : Cmd) (n : Nat) : ∀ (m : Move) (a : Nat),
    m.state.ReadsOnly (Move.getFlags c m a n).1.state := by
  induction n with
  | zero => exact fun m a => .refl _
  | succ n ih =>
    intro m a
    have first := m.get_readsOnly c 0 a
    unfold Move.getFlags
    dsimp only
    split
    · exact first.trans (ih _ _)
    · exact first

theorem Move.getFlags_length (c : Cmd) (n : Nat) : ∀ (m : Move) (a : Nat), (Move.getFlags c m a n).2.length ≤ n := by
  induction n with
  | zero => exact fun m a => Nat.le_refl 0
  | succ n ih =>
    intro m a
    unfold Move.getFlags
    dsimp only
    split
    · exact Nat.succ_le_succ (ih _ _)
    · exact Nat.zero_le _

theorem Move.tileBlocks_readsOnly (c : Cmd) (src index : Nat) (n : Nat) : ∀ (m : Move) (k pos : Nat),
    m.state.ReadsOnly (Move.tileBlocks c src index m k pos n).1.state := by
  induction n with
  | zero => exact fun m k pos => .refl _
  | succ n ih =>
    intro m k pos
    unfold Move.tileBlocks
    have entry := Move.getList_readsOnly c 0 2 m (index + 2 * k)
    split
    · rename_i l bad m₁ h
      rw [h] at entry
      have payload := Move.getList_readsOnly c 0 (lbpLen (leNat l)) m₁ (src + pos)
      dsimp only
      split
      · exact entry
      · split
        · rename_i h
          rw [h] at payload
          exact (entry.trans payload).trans (ih _ _ _)
        · rename_i h
          rw [h] at payload
          exact entry.trans payload
    · rename_i h
      rw [h] at entry
      exact entry

end Sys2Proof.Machine
end

section
/-!
PROOFS. Stack slides (R141, R142): O59's second part.
-/

namespace Sys2Proof.Machine

open Sys2Proof.Claims (journalOff gone)

/-! Bytes of the stack. -/

theorem State.writeStack_ctxs (s : State) (g a : Nat) (l : List (Byte × Bool)) : (s.writeStack g a l).ctxs = s.ctxs :=
  s.mergeCells_ctxs _
theorem State.writeStack_ce (s : State) (g a : Nat) (l : List (Byte × Bool)) :
    ∃ n, (s.writeStack g a l).ce = { s.ce with jseq := n } := s.mergeCells_ce _
theorem State.writeStack_saved (s : State) (g a : Nat) (l : List (Byte × Bool)) :
    (s.writeStack g a l).ce.saved = s.ce.saved := by
  obtain ⟨n, hn⟩ := s.writeStack_ce g a l
  rw [hn]
theorem State.writeStack_journalOff {s : State} (off : journalOff s) (g a : Nat) (l : List (Byte × Bool)) :
    journalOff (s.writeStack g a l) := by
  obtain ⟨n, hn⟩ := s.writeStack_ce g a l
  rw [journalOff, hn]
  exact off

/-- The cells of a write of the stack are bytes at consecutive keys. -/
theorem State.read_writeStack {s : State} (off : journalOff s) (g a : Nat) (l : List (Byte × Bool)) (k : Nat) :
    (s.writeStack g a l).mem.read k
      = (s.writeCells ((l.map Prod.fst).zipIdx.map fun p => (nearKey (coreOf g) a + p.2, p.1))).mem.read k := by
  have cells : ((l.map Prod.fst).zipIdx.map fun p => (nearKey (coreOf g) a + p.2, p.1))
      = l.zipIdx.map fun p => (nearKey (coreOf g) a + p.2, p.1.1) := by
    rw [List.zipIdx_map, List.map_map]
    rfl
  rw [cells]
  exact State.read_journalPoison _ _ (.inl off)

theorem State.read_writeStack_at {s : State} (off : journalOff s) (g a : Nat) {l : List (Byte × Bool)} {i : Nat} {x : Byte × Bool}
    (at_i : l[i]? = some x) : (s.writeStack g a l).mem.read (nearKey (coreOf g) a + i) = x.1 := by
  obtain ⟨inside, rfl⟩ := List.getElem?_eq_some_iff.1 at_i
  rw [State.read_writeStack off, State.read_writeCells_at _ _ _ i (by simpa using inside), List.getElem_map]

theorem State.read_writeStack_other {s : State} (off : journalOff s) (g a : Nat) (l : List (Byte × Bool)) {k : Nat}
    (outside : ¬(nearKey (coreOf g) a ≤ k ∧ k < nearKey (coreOf g) a + l.length)) :
    (s.writeStack g a l).mem.read k = s.mem.read k := by
  rw [State.read_writeStack off]
  refine State.read_writeCells_other _ _ fun c hc => ?_
  obtain ⟨p, hp, rfl⟩ := List.mem_map.1 hc
  have below := List.snd_lt_of_mem_zipIdx hp
  rw [List.length_map] at below
  dsimp only
  omega

theorem State.stackBytes_length (s : State) (g a n : Nat) : (s.stackBytes g a n).length = n := by simp [State.stackBytes]
theorem State.stackBytes_at (s : State) (g a : Nat) {i n : Nat} (h : i < n) :
    (s.stackBytes g a n)[i]? = some (s.nearByte g (a + i), s.poisoned (nearKey (coreOf g) (a + i))) := by
  simp [State.stackBytes, h]

theorem nearKey_add (core a i : Nat) : nearKey core (a + i) = nearKey core a + i := (Nat.add_assoc _ a i).symm

/-! The bracketing proof. -/

theorem State.finish_gone (s : State) (n : Nat) : gone (s.finish n) n := by
  intro d hd
  obtain ⟨e, he, same⟩ := (State.Follows.settle _).ids d hd
  have left := (List.mem_filter.1 he).2
  rw [← same]
  simpa using left

/-- R141: where the context holds no gated store, its bracketing proof captures it as it stands and its slide is gone. -/
theorem State.slideOver_only {s : State} {g : Nat} (n : Nat) (gated : (s.ctx g).gated = []) (saved : s.ce.saved = []) :
    (s.slideOver g n).mem = s.mem ∧ ((s.slideOver g n).ctx g).arch = (s.ctx g).arch ∧ ((s.slideOver g n).ctx g).bracket = none
      ∧ gone (s.slideOver g n) n ∧ ((s.slideOver g n).ctx g).unsealed = []
      ∧ ((s.slideOver g n).ctx g).captured.map Capture.arch = some (s.ctx g).arch := by
  have sealedOnly : s.sealNow g = s.sealOwn g := by rw [State.sealNow, gated, List.foldl_nil]
  have now : ((s.sealOwn g).modCtx g fun c => { c with bracket := none }).ctx g
      = { (s.ctx g).captureSealed s.cycle with gated := [], bracket := none } := by
    rw [State.ctx_modCtx_self, State.sealOwn, State.ctx_congr (State.modCore_ctxs _ _ _), State.ctx_modCtx_self]
  obtain ⟨-, mem, work⟩ := (State.Follows.finish ((s.sealOwn g).modCtx g fun c => { c with bracket := none }) n).unsaved saved
  obtain ⟨arch, captured, unsealed, bracket⟩ := work g
  rw [now] at arch captured unsealed bracket
  rw [State.slideOver, sealedOnly]
  exact ⟨mem, arch, bracket, State.finish_gone _ n, unsealed, by rw [captured]; rfl⟩

/-- The same after a change of the registers, on a state with the contexts of another. -/
theorem State.slideOver_modArch {s t : State} (ctxs : t.ctxs = s.ctxs) {g : Nat} (n : Nat) (f : Arch → Arch)
    (gated : (s.ctx g).gated = []) (saved : t.ce.saved = []) :
    (((t.modArch g f).slideOver g n).ctx g).arch = f (s.ctx g).arch ∧ ((t.modArch g f).slideOver g n).mem = t.mem
      ∧ (((t.modArch g f).slideOver g n).ctx g).bracket = none ∧ gone ((t.modArch g f).slideOver g n) n
      ∧ (((t.modArch g f).slideOver g n).ctx g).unsealed = []
      ∧ (((t.modArch g f).slideOver g n).ctx g).captured.map Capture.arch
        = some (((t.modArch g f).slideOver g n).ctx g).arch := by
  have now : (t.modArch g f).ctx g = { s.ctx g with arch := f (s.ctx g).arch } := by
    rw [State.ctx_modArch_self, State.ctx_congr ctxs]
  obtain ⟨mem, arch, bracket, left, unsealed, captured⟩ :=
    State.slideOver_only (s := t.modArch g f) n (by rw [now]; exact gated) saved
  exact ⟨by rw [arch, now], mem, bracket, left, unsealed, by rw [captured, arch]⟩

/-! The slides. -/

theorem execStackSlide_bracket {g : Nat} {s : State} (idle : (s.ctx g).bracket ≠ some .slide) :
    exec (.stackSlide g) s = .next s := by
  have notDue : (!s.slideDue g false) = true := by simp [State.slideDue, idle]
  exact if_pos notDue
theorem execInverseSlide_bracket {g : Nat} {s : State} (idle : (s.ctx g).bracket ≠ some .inverse) :
    exec (.inverseSlide g) s = .next s := by
  have notDue : (!s.slideDue g true) = true := by simp [State.slideDue, idle]
  exact if_pos notDue

section
variable {g : Nat} {c : Cmd} {s : State}

theorem State.beginSlide_begun (cmd : s.slideCmd g = some c) (inverse : Bool) : s.beginSlide g inverse = s :=
  if_pos (by rw [cmd]; rfl)

theorem execStackSlide_written (due : s.slideDue g false = true) (cmd : s.slideCmd g = some c) (runs : s.mayRun c = true)
    (written : c.prog = 1) : exec (.stackSlide g) s = .next (s.slideDown c) := by
  have run : exec (.stackSlide g) s = if !s.slideDue g false then .next s else _ := rfl
  rw [run, due, s.beginSlide_begun cmd false, cmd, if_neg (by simp)]
  dsimp only
  rw [runs, if_neg (by simp), if_pos written]

theorem execInverseSlide_read (due : s.slideDue g true = true) (cmd : s.slideCmd g = some c) (runs : s.mayRun c = true)
    (whole : (Move.getFlags c (Move.start s) (s.slideAt g true).toNat 4096).1.live = true) :
    exec (.inverseSlide g) s = .next ((Move.getFlags c (Move.start s) (s.slideAt g true).toNat 4096).1.state.slideUp c
      (Move.getFlags c (Move.start s) (s.slideAt g true).toNat 4096).2) := by
  have run : exec (.inverseSlide g) s = if !s.slideDue g true then .next s else _ := rfl
  rw [run, due, s.beginSlide_begun cmd true, cmd, if_neg (by simp)]
  dsimp only
  rw [runs, if_neg (by simp)]
  simp only [Move.live, Bool.and_eq_true, Option.isNone_iff_eq_none, Bool.not_eq_true'] at whole
  obtain ⟨⟨stop, hold⟩, full⟩ := whole
  rw [hold, full, stop, if_neg (by simp), if_neg (by simp)]

theorem State.slideDown_clean (s : State) (clean : c.status ≠ 1) : s.slideDown c
    = ((s.writeStack c.by_.g (s.ctx c.by_.g).arch.stkbase.toNat (s.stackBytes c.by_.g ((s.ctx c.by_.g).arch.stkbase.toNat + 4096)
        ((s.ctx c.by_.g).arch.stktop.toNat - 4096 - (s.ctx c.by_.g).arch.stkbase.toNat))).modArch c.by_.g
      fun x => { x with stktop := x.stktop - 4096, depth := x.depth + 1 }).slideOver c.by_.g c.id := if_neg clean

theorem State.slideDown_only (clean : c.status ≠ 1) (own : c.by_.g = g) (gated : (s.ctx g).gated = []) (saved : s.ce.saved = [])
    (off : journalOff s) {base : Nat} {top : BitVec 32} (base_eq : base = (s.ctx g).arch.stkbase.toNat)
    (top_eq : top = (s.ctx g).arch.stktop) :
    ((s.slideDown c).ctx g).arch.stktop = top - 4096
      ∧ ((s.slideDown c).ctx g).arch.depth = (s.ctx g).arch.depth + 1 ∧ ((s.slideDown c).ctx g).bracket = none
      ∧ gone (s.slideDown c) c.id ∧ ((s.slideDown c).ctx g).unsealed = []
      ∧ ((s.slideDown c).ctx g).captured.map Capture.arch = some ((s.slideDown c).ctx g).arch
      ∧ (∀ i, i < top.toNat - 4096 - base →
        (s.slideDown c).mem.read (nearKey (coreOf g) (base + i)) = s.nearByte g (base + 4096 + i))
      ∧ ∀ k, ¬(nearKey (coreOf g) base ≤ k ∧ k < nearKey (coreOf g) base + (top.toNat - 4096 - base)) →
        (s.slideDown c).mem.read k = s.mem.read k := by
  subst own base_eq top_eq
  rw [s.slideDown_clean clean]
  generalize old : s.stackBytes c.by_.g _ _ = l
  obtain ⟨arch, mem, bracket, left, unsealed, captured⟩ := State.slideOver_modArch (s.writeStack_ctxs _ _ l) c.id
    (fun x => { x with stktop := x.stktop - 4096, depth := x.depth + 1 }) gated ((s.writeStack_saved _ _ _).trans saved)
  refine ⟨by rw [arch], by rw [arch], bracket, left, unsealed, captured, fun i hi => ?_, fun k hk => ?_⟩
  · rw [mem, nearKey_add]
    exact State.read_writeStack_at off _ _ (old ▸ s.stackBytes_at _ _ hi)
  · rw [mem]
    refine State.read_writeStack_other off _ _ _ ?_
    rwa [← old, State.stackBytes_length]

theorem State.slideUp_only {l : List (Byte × Bool)} (short : l.length ≤ 4096) (own : c.by_.g = g) (gated : (s.ctx g).gated = [])
    (saved : s.ce.saved = []) (off : journalOff s) {base : Nat} {top : BitVec 32} (base_eq : base = (s.ctx g).arch.stkbase.toNat)
    (top_eq : top = (s.ctx g).arch.stktop) :
    ((s.slideUp c l).ctx g).arch.stktop = top + 4096
      ∧ ((s.slideUp c l).ctx g).arch.depth = (s.ctx g).arch.depth - 1 ∧ ((s.slideUp c l).ctx g).bracket = none
      ∧ gone (s.slideUp c l) c.id ∧ ((s.slideUp c l).ctx g).unsealed = []
      ∧ ((s.slideUp c l).ctx g).captured.map Capture.arch = some ((s.slideUp c l).ctx g).arch
      ∧ (∀ (i : Nat) (x : Byte × Bool), i < 4096 → l[i]? = some x → (s.slideUp c l).mem.read (nearKey (coreOf g) (base + i)) = x.1)
      ∧ ∀ i, i < top.toNat - base →
        (s.slideUp c l).mem.read (nearKey (coreOf g) (base + 4096 + i)) = s.nearByte g (base + i) := by
  subst own base_eq top_eq
  rw [State.slideUp]
  generalize old : s.stackBytes c.by_.g _ _ = m
  have off' := State.writeStack_journalOff off c.by_.g ((s.ctx c.by_.g).arch.stkbase.toNat + 4096) m
  have ctxs := ((s.writeStack c.by_.g ((s.ctx c.by_.g).arch.stkbase.toNat + 4096) m).writeStack_ctxs c.by_.g
    (s.ctx c.by_.g).arch.stkbase.toNat l).trans (s.writeStack_ctxs _ _ _)
  obtain ⟨arch, mem, bracket, left, unsealed, captured⟩ := State.slideOver_modArch ctxs c.id
    (fun x => { x with stktop := x.stktop + 4096, depth := x.depth - 1 }) gated
    ((State.writeStack_saved _ _ _ _).trans ((State.writeStack_saved _ _ _ _).trans saved))
  refine ⟨by rw [arch], by rw [arch], bracket, left, unsealed, captured, fun i x _ hx => ?_, fun i hi => ?_⟩
  · rw [mem, nearKey_add]
    exact State.read_writeStack_at off' _ _ hx
  · rw [mem, nearKey_add, State.read_writeStack_other off' _ _ _ (by rw [nearKey_add]; omega)]
    exact State.read_writeStack_at off _ _ (old ▸ s.stackBytes_at _ _ hi)

end

theorem stackSlideEvents : Claims.StackSlideEvents := by
  refine ⟨fun g s => execStackSlide_bracket, fun g s => execInverseSlide_bracket, ?_, ?_⟩
  · intro g c s due cmd runs written clean own gated saved off base top
    exact ⟨_, execStackSlide_written due cmd runs written, State.slideDown_only clean own gated saved off rfl rfl⟩
  · intro g c s due cmd runs own gated saved off base top r whole
    have kept : s.ReadsOnly r.1.state := Move.getFlags_readsOnly c 4096 (Move.start s) _
    have same : r.1.state.ctx g = s.ctx g := State.ctx_congr kept.ctxs g
    have short : r.2.length ≤ 4096 := Move.getFlags_length c 4096 (Move.start s) _
    have gated' : (r.1.state.ctx g).gated = [] := same ▸ gated
    have off' : journalOff r.1.state := by rw [journalOff, kept.jcfg]; exact off
    have ran : exec (.inverseSlide g) s = .next (r.1.state.slideUp c r.2) := execInverseSlide_read due cmd runs whole
    clear_value r
    refine ⟨_, ran, ?_⟩
    have up := State.slideUp_only short own gated' (kept.saved.trans saved) off' rfl rfl
    rw [same] at up
    exact up

/-- Settles O59, by what each event of a boundary and each slide leaves. -/
theorem boundaryAndSlideEvents : Obligations.BoundaryAndSlideEvents := ⟨boundaryEvents, stackSlideEvents⟩

end Sys2Proof.Machine
end

section
/-!
PROOFS. Completion words in near store (R111, R115, R122, R138, R166).
-/

namespace Sys2Proof.Machine

open Sys2Proof.Claims (gone nearPair wordAt)

/-! Four bytes of near store. -/

/-- The last of the cells that name a key decides; where they agree, any one does. -/
theorem State.read_writeCells_of_mem (s : State) {l : List (Nat × Byte)} {k : Nat} {b : Byte} (named : (k, b) ∈ l)
    (agree : ∀ c ∈ l, c.1 = k → c.2 = b) : (s.writeCells l).mem.read k = b := by
  rw [State.writeCells, Memory.read_foldl_write]
  cases found : l.reverse.find? fun c => c.1 == k with
  | none => simpa using List.find?_eq_none.1 found _ (List.mem_reverse.2 named)
  | some c => exact agree c (List.mem_reverse.1 (List.mem_of_find?_eq_some found)) (by simpa using List.find?_some found)

/-- Cells that hold a 32-bit number at a key of near store, and nothing else there. -/
structure HoldsWord (l : List (Nat × Byte)) (key v : Nat) : Prop where
  near : key + 4 ≤ 0x10000000
  named : ∀ i, i < 4 → (key + i, BitVec.ofNat 8 (v / 256 ^ i)) ∈ l
  agree : ∀ c ∈ l, ∀ i, i < 4 → c.1 = key + i → c.2 = BitVec.ofNat 8 (v / 256 ^ i)

theorem State.readNat_mergeCells_word (s : State) {l : List (Nat × Byte)} {key v : Nat} (holds : HoldsWord l key v) (small :
    v < 2 ^ 32) :
    readNat (s.mergeCells l).mem key 4 = v := by
  have byte : ∀ i, i < 4 → (s.mergeCells l).mem.read (key + i) = BitVec.ofNat 8 (v / 256 ^ i) := fun i hi =>
    (State.read_journalPoison _ _ (.inr (by have := holds.near; omega))).trans
      (s.read_writeCells_of_mem (holds.named i hi) fun c hc => holds.agree c hc i hi)
  have bytes : readKeys (s.mergeCells l).mem key 4 = (List.range 4).map fun i => BitVec.ofNat 8 (v / 256 ^ i) :=
    List.map_congr_left fun i hi => byte i (List.mem_range.1 hi)
  have value : leNat ((List.range 4).map fun i => BitVec.ofNat 8 (v / 256 ^ i))
      = v % 256 + 256 * (v / 256 % 256 + 256 * (v / 65536 % 256 + 256 * (v / 16777216 % 256))) := by
    simp [List.range_succ, leNat]
  rw [readNat, bytes, value]
  omega

/-- Near store of the device's 48 cores ends far below the lifetime store. -/
theorem nearKey_lt {core a : Nat} (core_lt : core < 48) (a_lt : a < 0x80000) : nearKey core a < 0x1800000 := by
  unfold nearKey
  omega

/-! The completion word of a command. -/

theorem completionKey_near (g : Nat) {a : Nat} (near : a < 0x80000) : completionKey g a = some (nearKey (coreOf g) a) := by
  rw [completionKey, scratchKey, if_pos near, if_pos ⟨Nat.zero_le _, by omega⟩]

theorem truncate_pair (pair : Word) : (pair.truncate 32 : BitVec 32).toNat = fld pair 31 0 := by
  simp [fld, BitVec.extractLsb'_toNat]

section
variable {s t : State} {i : Issuer} {pair : Word}

theorem completionCells_holdsWord (core : i.g < 96) (near : nearPair pair) (v : BitVec 32) :
    HoldsWord ((leBytes 4 v.toNat).zipIdx.filterMap fun p =>
      (completionKey i.g ((pair.truncate 32 : BitVec 32).toNat + p.2)).map fun k => (k, p.1))
      (nearKey (coreOf i.g) (fld pair 31 0)) v.toNat := by
  obtain ⟨aligned, low⟩ := near
  have cells : ((leBytes 4 v.toNat).zipIdx.filterMap fun p =>
      (completionKey i.g ((pair.truncate 32 : BitVec 32).toNat + p.2)).map fun k => (k, p.1))
      = (List.range 4).map fun i' => (nearKey (coreOf i.g) (fld pair 31 0) + i', BitVec.ofNat 8 (v.toNat / 256 ^ i')) := by
    have bytes := leBytes_zipIdx (nearKey (coreOf i.g) (fld pair 31 0)) 4 v.toNat 0
    simp only [Nat.zero_add] at bytes
    rw [← bytes, ← List.filterMap_eq_map]
    refine List.filterMap_congr fun p hp => ?_
    have below : p.2 < 4 := by simpa [leBytes] using List.snd_lt_of_mem_zipIdx hp
    rw [truncate_pair, completionKey_near i.g (by omega)]
    exact congrArg (fun k => some (k, p.1)) (Nat.add_assoc _ _ _).symm
  rw [cells]
  refine ⟨?_, fun i hi => List.mem_map.2 ⟨i, List.mem_range.2 hi, rfl⟩, fun c hc i' hi same => ?_⟩
  · have := nearKey_lt (core := coreOf i.g) (by unfold coreOf; omega) low
    omega
  · obtain ⟨n, -, rfl⟩ := List.mem_map.1 hc
    have : n = i' := by dsimp only at same; omega
    rw [this]

/-- R111, R166: the word of a pair in near store reads back. -/
theorem State.readNat_completionWord (s : State) (core : i.g < 96) (near : nearPair pair) (v : BitVec 32) :
    readNat (s.completionWord i (pair.truncate 32) v).mem (nearKey (coreOf i.g) (fld pair 31 0)) 4 = v.toNat := by
  have inLts : s.outsideLts i (pair.truncate 32 : BitVec 32).toNat = false := by
    have := near.2
    rw [State.outsideLts, truncate_pair]
    simp only [Bool.and_eq_false_iff, decide_eq_false_iff_not]
    omega
  unfold State.completionWord
  rw [if_neg (by rw [inLts]; simp), State.progressOf_mem]
  exact State.readNat_mergeCells_word _ (completionCells_holdsWord core near v) v.isLt

theorem State.mergeStore_cmds (s : State) (l : List (Nat × Byte)) (o : Option (Nat × Option Nat)) (ca : Option (Nat × Nat)) :
    (s.mergeStore l o ca).cmds = s.cmds := (State.mergeCells_cmds _ l).trans (s.touchRows_cmds l o ca)
theorem State.completionWord_cmds (s : State) (i : Issuer) (a v : BitVec 32) : (s.completionWord i a v).cmds = s.cmds := by
  unfold State.completionWord
  split
  · rfl
  · exact (State.progressOf_cmds _ _).trans (s.mergeStore_cmds _ _ _)

/-! A command that leaves with its word. -/

theorem State.Follows.gone {n : Nat} (after : s.Follows t) (left : gone s n) : gone t n := by
  intro d hd
  obtain ⟨e, he, same⟩ := after.ids d hd
  rw [← same]
  exact left e he

theorem State.Follows.readNat_near {key n : Nat} (after : s.Follows t) (near : key + n ≤ 0x10000000) :
    readNat t.mem key n = readNat s.mem key n := by
  have bytes : readKeys t.mem key n = readKeys s.mem key n :=
    List.map_congr_left fun i hi => after.near _ (by have := List.mem_range.1 hi; omega)
  rw [readNat, bytes, readNat]

theorem State.Follows.word (core : i.g < 96) (near : nearPair pair) {v : BitVec 32}
    (after : (s.completionWord i (pair.truncate 32) v).Follows t) :
    readNat t.mem (nearKey (coreOf i.g) (fld pair 31 0)) 4 = v.toNat := by
  rw [after.readNat_near (completionCells_holdsWord core near v).near, s.readNat_completionWord core near]

theorem State.Follows.wordAt (core : i.g < 96) (near : nearPair pair) {status : Nat}
    (after : (s.completionWord i (pair.truncate 32) (mretWord status pair)).Follows t) : wordAt t i.g pair status :=
  (after.word core near).trans (BitVec.toNat_ofNat _ _)

end

end Sys2Proof.Machine
end

section
/-!
PROOFS. The array's k-steps, drains and gangs (R101, R102, R110, R111, R113, R115, R116).
-/

namespace Sys2Proof.Machine

open Sys2Proof.Claims (gone nearPair wordAt inFlight)

/-! k-steps (R101, R102). -/

/-- R101: the beats of a k-step leave the rings alone. -/
theorem Core.kstep_rings (k : Core) (j : MatJob) (ta tb : Nat) :
    (k.kstep j ta tb).head = k.head ∧ (k.kstep j ta tb).held = k.held := by
  unfold Core.kstep
  refine foldl_keeps (P := fun x : Core => x.head = k.head ∧ x.held = k.held) _ (fun x m hx => ?_) _ k ⟨rfl, rfl⟩
  refine foldl_keeps (P := fun x : Core => x.head = k.head ∧ x.held = k.held) _ ?_ _ x hx
  exact fun _ _ held => held

theorem State.core_modCmd (s : State) (n : Nat) (f : Cmd → Cmd) (core : Nat) : (s.modCmd n f).core core = s.core core := rfl

theorem Core.popRing_two (k : Core) {a b : Nat} (apart : a ≠ b) :
    AMap.get 0 ((k.popRing a 1).popRing b 1).head a = AMap.get 0 k.head a + 1
      ∧ AMap.get 0 ((k.popRing a 1).popRing b 1).head b = AMap.get 0 k.head b + 1 := by
  simp [Core.popRing, AMap.get_put_other _ _ _ apart, AMap.get_put_other _ _ _ apart.symm]
theorem Core.holdRing_two (k : Core) {a b : Nat} (apart : a ≠ b) :
    AMap.get 0 ((k.holdRing a (· + 1)).holdRing b (· + 1)).held a = AMap.get 0 k.held a + 1
      ∧ AMap.get 0 ((k.holdRing a (· + 1)).holdRing b (· + 1)).held b = AMap.get 0 k.held b + 1 := by
  simp [Core.holdRing, AMap.get_put_other _ _ _ apart, AMap.get_put_other _ _ _ apart.symm]

/-- R102: a k-step is one of a core's bank: memory, contexts, commands and the rings stay. -/
theorem State.runStep_only (s : State) (core : Nat) (j : MatJob) (first : Bool) (ta tb : Nat) :
    (s.runStep core j first ta tb).mem = s.mem ∧ (s.runStep core j first ta tb).ctxs = s.ctxs
      ∧ (s.runStep core j first ta tb).cmds = s.cmds ∧ ((s.runStep core j first ta tb).core core).head = (s.core core).head
      ∧ ((s.runStep core j first ta tb).core core).held = (s.core core).held := by
  unfold State.runStep
  rw [State.core_modCore_self]
  obtain ⟨head, held⟩ := Core.kstep_rings ((if (first && j.clr) = true then s.clearBank core j.bank else s).core core) j ta tb
  rw [head, held]
  split
  · rw [State.clearBank, State.core_modCore_self]
    exact ⟨rfl, rfl, rfl, rfl, rfl⟩
  · exact ⟨rfl, rfl, rfl, rfl, rfl⟩

section
variable {core bank : Nat} {c : Cmd} {s : State}

theorem State.canStep_mma {j : MatJob} {r : Except (Nat × Nat × Nat) (Nat × Nat)} (head : s.bankHead core bank = some c)
    (ready : s.ready c = true) (path : s.pathWaits c = false) (op : c.op = .mma j) (tiles : s.stepTiles core j = some r) :
    s.canStep core bank = true := by
  simp [State.canStep, head, ready, path, op, tiles]
theorem State.canStep_gang {mask : BitVec 4} {k j : MatJob} {pair : Word} {r : Except (Nat × Nat × Nat) (Nat × Nat)}
    (head : s.bankHead core bank = some c) (ready : s.ready c = true) (path : s.pathWaits c = false)
    (op : c.op = .gang mask k pair) (part : c.parts.getD (core % 4) none = some j) (left : c.partDone (core % 4) < j.count)
    (tiles : s.stepTiles core j = some r) : s.canStep core bank = true := by
  unfold State.canStep
  rw [head]
  dsimp only
  rw [op]
  dsimp only
  rw [part]
  simp [ready, path, left, tiles]

/-- R101, R102: a k-step of an MMA pops one slot of each ring. -/
theorem execMatrixKstep_product {j : MatJob} {ta tb : Nat} (head : s.bankHead core bank = some c) (step :
    s.canStep core bank = true)
    (op : c.op = .mma j) (tiles : s.stepTiles core j = some (.ok (ta, tb))) :
    exec (.matrixKstep core bank) s =
      let s1 := (s.runStep core j (c.prog == 0) ta tb).modCore core fun k => (k.popRing j.aring 1).popRing j.bring 1
      .next (if c.prog + 1 = j.count then s1.finish c.id else s1.modCmd c.id fun d => { d with prog := d.prog + 1 }) := by
  have run : exec (.matrixKstep core bank) s = execMatrixKstep core bank s := rfl
  rw [run, execMatrixKstep, step, head, if_neg (by simp)]
  dsimp only
  rw [op]
  dsimp only
  rw [tiles]
/-- R113: an MMA meets what it cannot read. -/
theorem execMatrixKstep_unreadable {j : MatJob} {e : Nat × Nat × Nat} (head : s.bankHead core bank = some c)
    (step : s.canStep core bank = true) (op : c.op = .mma j) (tiles : s.stepTiles core j = some (.error e)) :
    exec (.matrixKstep core bank) s = .next (s.failMma core c bank e.1 e.2.1 e.2.2) := by
  have run : exec (.matrixKstep core bank) s = execMatrixKstep core bank s := rfl
  rw [run, execMatrixKstep, step, head, if_neg (by simp)]
  dsimp only
  rw [op]
  dsimp only
  rw [tiles]
/-- R115: a k-step of a gang's member claims one slot of each ring. -/
theorem execMatrixKstep_member {mask : BitVec 4} {k j : MatJob} {pair : Word} {ta tb : Nat} (head : s.bankHead core bank = some c)
    (step : s.canStep core bank = true) (op : c.op = .gang mask k pair) (part : c.parts.getD (core % 4) none = some j)
    (tiles : s.stepTiles core j = some (.ok (ta, tb))) :
    exec (.matrixKstep core bank) s = .next (((s.runStep core j (c.partDone (core % 4) == 0) ta tb).modCore core fun k =>
      (k.holdRing j.aring (· + 1)).holdRing j.bring (· + 1)).modCmd c.id fun d => { d with
        prog := d.prog + 65536 ^ (core % 4) }) := by
  have run : exec (.matrixKstep core bank) s = execMatrixKstep core bank s := rfl
  rw [run, execMatrixKstep, step, head, if_neg (by simp)]
  dsimp only
  rw [op]
  dsimp only
  rw [part]
  dsimp only
  rw [tiles]

end

/-- R116: an MMA that meets what it cannot read leaves. -/
theorem State.failMma_gone (s : State) (core : Nat) (c : Cmd) (bank code addr status : Nat) :
    gone (s.failMma core c bank code addr status) c.id := (State.Follows.report _ _ _ _ _).gone (State.finish_gone _ _)

/-- A command that goes on carries its number, or is another of the same number. -/
theorem State.modCmd_prog {s : State} (c : Cmd) {d : Cmd}
    (there : d ∈ (s.modCmd c.id fun d => { d with prog := d.prog + 1 }).cmds) (same : d.id = c.id) :
    d.prog = c.prog + 1 ∨ ∃ e ∈ s.cmds, e ≠ c ∧ e.id = c.id := by
  obtain ⟨e, he, rfl⟩ := List.mem_map.1 there
  by_cases named : e.id = c.id
  · by_cases it : e = c
    · rw [if_pos named, it]
      exact .inl rfl
    · exact .inr ⟨e, he, it, named⟩
  · rw [if_neg named] at same
    exact absurd same named

theorem matrixKstep_mma (core bank : Nat) (c : Cmd) (j : MatJob) (ta tb : Nat) (s : State) (head : s.bankHead core bank = some c)
    (ready : s.ready c = true) (path : s.pathWaits c = false) (op : c.op = .mma j) (tiles : s.stepTiles core j = some (.ok (ta,
        tb)))
    (apart : j.aring ≠ j.bring) :
    (c.prog + 1 = j.count → ∃ t, exec (.matrixKstep core bank) s = .next t ∧ gone t c.id)
    ∧ (c.prog + 1 ≠ j.count → ∃ t, exec (.matrixKstep core bank) s = .next t ∧ t.mem = s.mem ∧ t.ctxs = s.ctxs
      ∧ AMap.get 0 (t.core core).head j.aring = AMap.get 0 (s.core core).head j.aring + 1
      ∧ AMap.get 0 (t.core core).head j.bring = AMap.get 0 (s.core core).head j.bring + 1
      ∧ (t.core core).bank = ((s.runStep core j (c.prog == 0) ta tb).core core).bank
      ∧ ∀ d ∈ t.cmds, d.id = c.id → d.prog = c.prog + 1 ∨ ∃ e ∈ s.cmds, e ≠ c ∧ e.id = c.id) := by
  have run := execMatrixKstep_product head (State.canStep_mma head ready path op tiles) op tiles
  dsimp only at run
  refine ⟨fun last => ?_, fun more => ?_⟩
  · rw [if_pos last] at run
    exact ⟨_, run, State.finish_gone _ _⟩
  · rw [if_neg more] at run
    obtain ⟨mem, ctxs, cmds, heads, -⟩ := s.runStep_only core j (c.prog == 0) ta tb
    have pops := ((s.runStep core j (c.prog == 0) ta tb).core core).popRing_two apart
    rw [heads] at pops
    have now : ∀ f, ((((s.runStep core j (c.prog == 0) ta tb).modCore core fun k =>
        (k.popRing j.aring 1).popRing j.bring 1)).modCmd c.id f).core core
        = (((s.runStep core j (c.prog == 0) ta tb).core core).popRing j.aring 1).popRing j.bring 1 :=
      fun f => by rw [State.core_modCmd, State.core_modCore_self]
    refine ⟨_, run, mem, ctxs, ?_, ?_, by rw [now]; rfl, fun d hd same => ?_⟩
    · rw [now]; exact pops.1
    · rw [now]; exact pops.2
    · rw [← cmds]
      exact State.modCmd_prog c hd same

theorem matrixKstep_gang (core bank : Nat) (mask : BitVec 4) (k j : MatJob) (pair : Word) (c : Cmd) (ta tb : Nat) (s : State)
    (head : s.bankHead core bank = some c) (ready : s.ready c = true) (path : s.pathWaits c = false)
    (op : c.op = .gang mask k pair) (part : c.parts.getD (core % 4) none = some j) (left : c.partDone (core % 4) < j.count)
    (tiles : s.stepTiles core j = some (.ok (ta, tb))) (apart : j.aring ≠ j.bring) :
    ∃ t, exec (.matrixKstep core bank) s = .next t ∧ t.mem = s.mem ∧ t.ctxs = s.ctxs
      ∧ (t.core core).head = (s.core core).head
      ∧ AMap.get 0 (t.core core).held j.aring = AMap.get 0 (s.core core).held j.aring + 1
      ∧ AMap.get 0 (t.core core).held j.bring = AMap.get 0 (s.core core).held j.bring + 1
      ∧ (t.core core).bank = ((s.runStep core j (c.partDone (core % 4) == 0) ta tb).core core).bank := by
  have run := execMatrixKstep_member head (State.canStep_gang head ready path op part left tiles) op part tiles
  obtain ⟨mem, ctxs, -, heads, held⟩ := s.runStep_only core j (c.partDone (core % 4) == 0) ta tb
  have claims := ((s.runStep core j (c.partDone (core % 4) == 0) ta tb).core core).holdRing_two apart
  rw [held] at claims
  have now : ∀ f, ((((s.runStep core j (c.partDone (core % 4) == 0) ta tb).modCore core fun k =>
      (k.holdRing j.aring (· + 1)).holdRing j.bring (· + 1))).modCmd c.id f).core core
      = (((s.runStep core j (c.partDone (core % 4) == 0) ta tb).core core).holdRing j.aring (· + 1)).holdRing j.bring (· + 1) :=
    fun f => by rw [State.core_modCmd, State.core_modCore_self]
  refine ⟨_, run, mem, ctxs, ?_, ?_, ?_, by rw [now]; rfl⟩
  · rw [now]; exact heads
  · rw [now]; exact claims.1
  · rw [now]; exact claims.2

theorem execMatrixKstep_idle {core bank : Nat} {s : State} (idle : s.bankHead core bank = none) :
    exec (.matrixKstep core bank) s = .next s := by
  have run : exec (.matrixKstep core bank) s = execMatrixKstep core bank s := rfl
  rw [run, execMatrixKstep, State.canStep, idle]
  rfl
theorem execMretDrain_idle {core bank : Nat} {s : State} (idle : s.bankHead core bank = none) :
    exec (.mretDrain core bank) s = .next s := by
  have run : exec (.mretDrain core bank) s = execMretDrain core bank s := rfl
  rw [run, execMretDrain, State.canDrain, idle]
  rfl

/-! Drains (R110, R111). -/

theorem mretDrain_word (core bank b m n : Nat) (lsf isInt : Bool) (layout : MLayout) (dst : BitVec 32) (pair : Word) (c : Cmd)
    (s : State) (head : s.bankHead core bank = some c) (ready : s.ready c = true) (path : s.pathWaits c = false)
    (op : c.op = .mret b lsf layout m n dst pair isInt) (near : nearPair pair) (low : c.by_.g < 96) :
    let w := s.engineWriteBytes c.by_ c.by_.lo.toNat c.by_.hi.toNat ((s.core core).drainBytes bank layout m n dst.toNat
      ++ if lsf then (s.core core).lsfBytes bank m n (dst.toNat + m * n * (if layout = .bf16 then 2 else 4)) else [])
    w.isolated = none → ∃ t, exec (.mretDrain core bank) s = .next t ∧ gone t c.id
      ∧ wordAt t c.by_.g pair (if w.dropped then 1 else if w.poisoned then 2 else 0) := by
  intro w inside
  have may : s.canDrain core bank = true := by simp [State.canDrain, head, ready, path, op]
  have run : exec (.mretDrain core bank) s = .next ((((w.state.completionWord c.by_ (pair.truncate 32)
      (mretWord (if w.dropped then 1 else if w.poisoned then 2 else 0) pair)).giveGathered core bank c.by_).finish
        c.id).reportIsolated c.by_ w.isolated) := by
    have run : exec (.mretDrain core bank) s = execMretDrain core bank s := rfl
    rw [run, execMretDrain, may, head]
    dsimp only
    rw [op]
    rfl
  refine ⟨_, run, (State.Follows.reportIsolated _ _ _).gone (State.finish_gone _ _), ?_⟩
  exact State.Follows.wordAt low near (((State.Follows.giveGathered _ _ _ _).trans (.finish _ _)).trans (.reportIsolated _ _ _))

/-! Gangs (R111, R115, R116). -/

/-- R111: the cells of a gang's completion word hold it at each member core. -/
theorem gangCells_holdsWord {base a m v : Nat} {mask : BitVec 4} (cores : base + 3 < 48) (aligned : a % 4 = 0) (near : a < 0x80000)
    (member : m < 4) (named : mask.getLsbD m = true) :
    HoldsWord ((List.range 4).flatMap fun m => if mask.getLsbD m then (leBytes 4 v).zipIdx.filterMap fun p =>
      if a + p.2 < 0x80000 then some (nearKey (base + m) (a + p.2), p.1) else none else []) (nearKey (base + m) a) v := by
  have cells : ∀ n, ((leBytes 4 v).zipIdx.filterMap fun p =>
      if a + p.2 < 0x80000 then some (nearKey (base + n) (a + p.2), p.1) else none)
      = (List.range 4).map fun i => (nearKey (base + n) a + i, BitVec.ofNat 8 (v / 256 ^ i)) := by
    intro n
    have bytes := leBytes_zipIdx (nearKey (base + n) a) 4 v 0
    simp only [Nat.zero_add] at bytes
    rw [← bytes, ← List.filterMap_eq_map]
    refine List.filterMap_congr fun p hp => ?_
    have below : p.2 < 4 := by simpa [leBytes] using List.snd_lt_of_mem_zipIdx hp
    rw [if_pos (by omega), nearKey_add]
    rfl
  simp only [cells]
  refine ⟨?_, fun i hi => ?_, fun c hc i hi same => ?_⟩
  · have := nearKey_lt (core := base + m) (by omega) near
    omega
  · refine List.mem_flatMap.2 ⟨m, List.mem_range.2 member, ?_⟩
    rw [if_pos named]
    exact List.mem_map.2 ⟨i, List.mem_range.2 hi, rfl⟩
  · obtain ⟨n, -, hn⟩ := List.mem_flatMap.1 hc
    split at hn
    · obtain ⟨e, he, rfl⟩ := List.mem_map.1 hn
      have : e = i := by
        have := List.mem_range.1 he
        unfold nearKey at same
        dsimp only at same
        omega
      rw [this]
    · cases hn

theorem State.Follows.gangNotice (s : State) (g : Nat) (kernel : Option Nat) (mask : BitVec 4) :
    s.Follows (s.gangNotice g kernel mask) := by
  unfold State.gangNotice
  dsimp only
  split
  · rename_i v h
    split
    · exact writePhys (State.saved_ne_nil h) _ _
    · exact refl s
  · refine ite (modCtx s g fun c => ?_) (refl s)
    exact ⟨rfl, rfl, rfl, rfl⟩

theorem gangCompletion_word (n : Nat) (mask : BitVec 4) (j : MatJob) (pair : Word) (c : Cmd) (s : State) (flight : inFlight s n c)
    (op : c.op = .gang mask j pair) (whole : c.gangDone = true) (near : nearPair pair) (low : c.by_.g < 96) :
    ∃ t, exec (.gangCompletion n) s = .next t ∧ gone t n ∧ ∀ i, i < 4 → mask.getLsbD i = true →
        readNat t.mem (nearKey (clusterOf c.by_.g * 4 + i) (fld pair 31 0)) 4
          = (if c.failed = 0 then 0 else 2 ^ 28) + c.failed.toNat * 2 ^ 24 + fld pair 55 32 := by
  obtain ⟨found, ready⟩ := flight
  have id : c.id = n := by simpa using List.find?_some found
  have small : (if c.failed = 0 then 0 else 2 ^ 28) + c.failed.toNat * 2 ^ 24 + fld pair 55 32 < 2 ^ 32 := by
    have failed := c.failed.isLt
    have seq : fld pair 55 32 < 2 ^ 24 := BitVec.isLt _
    split <;> omega
  have run : exec (.gangCompletion n) s = execGangCompletion n s := rfl
  rw [run, execGangCompletion, found]
  dsimp only
  rw [op]
  dsimp only
  rw [whole, ready, if_neg (by simp), id]
  refine ⟨_, rfl, State.finish_gone _ _, fun i hi named => ?_⟩
  have holds := gangCells_holdsWord (v := (BitVec.ofNat 32 ((if c.failed = 0 then 0 else 2 ^ 28) + c.failed.toNat * 2 ^ 24
    + fld pair 55 32)).toNat) (base := clusterOf c.by_.g * 4) (by unfold clusterOf; omega) near.1 near.2 hi named
  rw [(State.Follows.trans (.progressOf _ _) (.finish _ _)).readNat_near holds.near,
      State.readNat_mergeCells_word _ holds (BitVec.isLt _),
    BitVec.toNat_ofNat, Nat.mod_eq_of_lt small]

end Sys2Proof.Machine
end

section
/-!
PROOFS. Factor commands (R118, R122, R129, R131): the load, the stops and the interruption.
-/

namespace Sys2Proof.Machine

open Sys2Proof.Claims (gone nearPair inFlight)

/-! Stops (R122, R130). -/

section
variable {c : Cmd} {j : FacJob} {s : State}

theorem State.endFactor_word (s : State) (status : Nat) (fl : BitVec 4) (fprog : Nat) (cause : Option (Nat × Nat))
    (isolated : Option Nat) (near : nearPair j.pair) (low : c.by_.g < 96) :
    gone (s.endFactor c j status fl fprog cause isolated) c.id
      ∧ readNat (s.endFactor c j status fl fprog cause isolated).mem (nearKey (coreOf c.by_.g) (fld j.pair 31 0)) 4
        = (facWord status (fl.getLsbD 1) fprog j.pair).toNat := by
  have reports : ((((s.clearBank (coreOf c.by_.g) (ownBank c.by_.g)).completionWord c.by_ (j.pair.truncate 32)
      (facWord status (fl.getLsbD 1) fprog j.pair)).gatherTo c.by_ fl).finish c.id).Follows
        (s.endFactor c j status fl fprog cause isolated) := by
    unfold State.endFactor
    refine .ite (.reportIsolated _ _ _) ?_
    split
    · exact .reportIsolated _ _ _
    · exact .report _ _ _ _ _
    · exact .refl _
  exact ⟨reports.gone (State.finish_gone _ _),
    State.Follows.word low near (((State.Follows.gatherTo _ _ _).trans (.finish _ _)).trans reports)⟩

/-! Registers of the run (R59, R125, R131). -/

theorem State.modRun_cmds (s : State) (i : Issuer) (f : Ctx → Ctx) : (s.modRun i f).cmds = s.cmds := by
  unfold State.modRun
  split <;> rfl
theorem State.modRun_mem (s : State) (i : Issuer) (f : Ctx → Ctx) : (s.modRun i f).mem = s.mem := by
  unfold State.modRun
  split <;> rfl
theorem State.retakeErds_cmds (s : State) (i : Issuer) : (s.retakeErds i).cmds = s.cmds := by
  unfold State.retakeErds
  dsimp only
  split <;> rfl
theorem State.retakeErds_mem (s : State) (i : Issuer) : (s.retakeErds i).mem = s.mem := by
  unfold State.retakeErds
  dsimp only
  split <;> rfl
/-- R42: pending writes change; FPROG and the PC stay. -/
theorem State.mapPending_ctx (s : State) (g : Nat) (f : Nat → Pending → Pending) :
    ((s.mapPending g f).ctx g).fprog = (s.ctx g).fprog ∧ ((s.mapPending g f).ctx g).arch.pc = (s.ctx g).arch.pc := by
  obtain ⟨F, n, eq, keeps⟩ : ∃ F n, s.mapPending g f = { s.modCtx g F with choice := n }
      ∧ ∀ x : Ctx, (F x).fprog = x.fprog ∧ (F x).arch.pc = x.arch.pc := ⟨_, _, rfl, fun _ => ⟨rfl, rfl⟩⟩
  have now : (s.mapPending g f).ctx g = F (s.ctx g) := by
    rw [eq, ← State.ctx_modCtx_self s g F]
    rfl
  rw [now]
  exact keeps _
theorem State.retakeErds_ctx (s : State) (i : Issuer) :
    ((s.retakeErds i).ctx i.g).fprog = (s.ctx i.g).fprog ∧ ((s.retakeErds i).ctx i.g).arch.pc = (s.ctx i.g).arch.pc := by
  unfold State.retakeErds
  dsimp only
  split
  · exact ⟨rfl, rfl⟩
  · exact s.mapPending_ctx i.g _

theorem Ctx.atBoundary_fprog (x : Ctx) (j : FacJob) (f : Fac) (gin k : Nat) :
    (x.atBoundary j f gin k).fprog = BitVec.ofNat 8 k ∧ (x.atBoundary j f gin k).arch = x.arch := by
  unfold Ctx.atBoundary
  split <;> exact ⟨rfl, rfl⟩

/-! The load (R118, R129). -/

/-- R118: a tile that can be loaded. -/
theorem State.loadFactor_sound (sound : ∀ a ∈ j.loads, s.loadFault c.by_.g j.lo.toNat j.hi.toNat a = none) :
    ∃ w, s.loadFactor c j = (s.modRun c.by_ fun x => { x with reload := none }).modCmd c.id fun d => { d with
      work := some w, prog := j.first } := by
  have clean : (j.loads.findSome? fun a => (s.loadFault c.by_.g j.lo.toNat j.hi.toNat a).map fun st => (st, a)) = none :=
    List.findSome?_eq_none_iff.2 fun a ha => by rw [sound a ha]; rfl
  unfold State.loadFactor
  dsimp only
  rw [clean]
  exact ⟨_, rfl⟩
/-- R129: the first load that fails decides. -/
theorem State.loadFactor_failing {l r : List Nat} {a st : Nat} {code : Option Nat} (loads : j.loads = l ++ a :: r)
    (sound : ∀ b ∈ l, s.loadFault c.by_.g j.lo.toNat j.hi.toNat b = none)
    (fault : s.loadFault c.by_.g j.lo.toNat j.hi.toNat a = some (st, code)) : s.loadFactor c j = s.failFactor c j st code a := by
  have first : (j.loads.findSome? fun a => (s.loadFault c.by_.g j.lo.toNat j.hi.toNat a).map fun st => (st, a))
      = some ((st, code), a) := by
    have before : (l.findSome? fun a => (s.loadFault c.by_.g j.lo.toNat j.hi.toNat a).map fun st => (st, a)) = none :=
      List.findSome?_eq_none_iff.2 fun b hb => by rw [sound b hb]; rfl
    rw [loads, List.findSome?_append, before, List.findSome?_cons, fault]
    rfl
  unfold State.loadFactor
  dsimp only
  rw [first]

/-- R122, R129: a stop leaves its word. -/
theorem State.stopFactor_word (s : State) (f : Fac) (gin k : Nat) (stopped : Bool) (near : nearPair j.pair) (low : c.by_.g < 96) :
    gone (s.stopFactor c j f gin k stopped) c.id
      ∧ readNat (s.stopFactor c j f gin k stopped).mem (nearKey (coreOf c.by_.g) (fld j.pair 31 0)) 4
        = (facWord
            (if ((s.engineWriteBytes c.by_ j.lo.toNat j.hi.toNat (j.writeBack f)).dropped || c.status == 1) = true then 1
              else if stopped then (if j.op = 0x77 then 7 else 6)
              else if (s.engineWriteBytes c.by_ j.lo.toNat j.hi.toNat (j.writeBack f)).poisoned then 2 else 0)
            (c.flags.getLsbD 1 || f.lsf) (if stopped then k else 0) j.pair).toNat := by
  have lsf : (c.flags ||| flagsOf false false f.lsf f.ufl).getLsbD 1 = (c.flags.getLsbD 1 || f.lsf) := by
    rw [BitVec.getLsbD_or]
    cases f.lsf <;> cases f.ufl <;> rfl
  rw [← lsf]
  exact State.endFactor_word _ _ _ _ _ _ near low

/-- R252: a pre-emption request that no handler holds. -/
theorem State.stopsFactors_iff (s : State) (g : Nat) : s.stopsFactors g = true
    ↔ ((s.ctx g).state = .running ∨ (s.ctx g).state = .sealing ∨ (s.ctx g).state = .frozen) ∧ (s.ctx g).preq = true
      ∧ (s.ctx g).preqHeld = false := by
  simp [State.stopsFactors, or_assoc, and_assoc]

/-- R131: what an interruption leaves: the tile written back, the command with its boundary, and FPROG. -/
theorem State.pauseFactor_only (s : State) {n : Nat} (found : (s.cmds.find? fun d => d.id == n) = some c) (f : Fac) (gin k : Nat)
    (gen : (s.ctx c.by_.g).gen = c.by_.gen) :
    (s.pauseFactor c j f gin k).mem = (s.engineWriteBytes c.by_ j.lo.toNat j.hi.toNat (j.writeBack f)).state.mem
      ∧ (∃ d, ((s.pauseFactor c j f gin k).cmds.find? fun d => d.id == n) = some d ∧ d.work = none ∧ d.waits = c.waits
        ∧ d.by_ = c.by_ ∧ d.op = .factor { j with first := k, perm := permBits f.perm, grown := some (gin, f.seen) })
      ∧ ((s.pauseFactor c j f gin k).ctx c.by_.g).fprog = BitVec.ofNat 8 k
      ∧ ((s.pauseFactor c j f gin k).ctx c.by_.g).arch.pc = (s.ctx c.by_.g).arch.pc := by
  obtain rfl : c.id = n := by simpa using List.find?_some found
  generalize written : s.engineWriteBytes c.by_ j.lo.toNat j.hi.toNat (j.writeBack f) = w
  have cmds : w.state.cmds = s.cmds := written ▸ s.mergeStore_cmds _ _ _
  have same : w.state.ctx c.by_.g = s.ctx c.by_.g := State.ctx_congr (written ▸ s.mergeStore_ctxs _ _ _) _
  have at_k : (w.state.modRun c.by_ fun x => x.atBoundary j f gin k).ctx c.by_.g = (s.ctx c.by_.g).atBoundary j f gin k := by
    rw [State.modRun, same, if_pos gen, State.ctx_modCtx_self, same]
  have kept := State.retakeErds_ctx (w.state.modRun c.by_ fun x => x.atBoundary j f gin k) c.by_
  obtain ⟨fprog, arch⟩ := (s.ctx c.by_.g).atBoundary_fprog j f gin k
  rw [at_k, fprog, arch] at kept
  have still :
      (((w.state.modRun c.by_ fun x => x.atBoundary j f gin k).retakeErds c.by_).cmds.find? fun d => d.id == c.id) = some c := by
    rw [State.retakeErds_cmds, State.modRun_cmds, cmds, found]
  unfold State.pauseFactor
  rw [written]
  refine ⟨(State.retakeErds_mem _ _).trans (State.modRun_mem _ _ _), ⟨_, State.modCmd_find still _ rfl, rfl, rfl, rfl, rfl⟩, kept⟩

/-! The events. -/

section
variable {n : Nat} (flight : inFlight s n c) (op : c.op = .factor j) (can : s.canFactor c = true)
include flight op can

theorem execFactorStop_unloaded (work : c.work = none) : exec (.factorStop n) s = .next (s.loadFactor c j) := by
  have run : exec (.factorStop n) s = execFactorStop n s := rfl
  rw [run, execFactorStop, flight.1]
  dsimp only
  rw [op]
  dsimp only
  rw [can, work]
  rfl
theorem execFactorStop_loaded {f : Fac} {gin : Nat} (work : c.work = some (f, gin)) :
    exec (.factorStop n) s = .next (s.runFactor c j f gin) := by
  have run : exec (.factorStop n) s = execFactorStop n s := rfl
  rw [run, execFactorStop, flight.1]
  dsimp only
  rw [op]
  dsimp only
  rw [can, work]
  rfl

theorem factorStop_loads (work : c.work = none) (sound : ∀ a ∈ j.loads, s.loadFault c.by_.g j.lo.toNat j.hi.toNat a = none) :
    ∃ t w, exec (.factorStop n) s = .next t ∧ t.mem = s.mem
      ∧ (t.cmds.find? fun d => d.id == n) = some { c with work := some w, prog := j.first } := by
  have found := flight.1
  obtain rfl : c.id = n := by simpa using List.find?_some found
  obtain ⟨w, loaded⟩ := State.loadFactor_sound sound
  refine ⟨_, w, (execFactorStop_unloaded flight op can work).trans (congrArg _ loaded), State.modRun_mem s _ _, ?_⟩
  exact State.modCmd_find ((State.modRun_cmds s _ _).symm ▸ found) _ rfl

theorem factorStop_failing {l r : List Nat} {a st : Nat} {code : Option Nat} (work : c.work = none) (loads : j.loads = l ++ a :: r)
    (sound : ∀ b ∈ l, s.loadFault c.by_.g j.lo.toNat j.hi.toNat b = none)
    (fault : s.loadFault c.by_.g j.lo.toNat j.hi.toNat a = some (st, code)) (near : nearPair j.pair) (low : c.by_.g < 96) :
    ∃ t, exec (.factorStop n) s = .next t ∧ gone t n
      ∧ readNat t.mem (nearKey (coreOf c.by_.g) (fld j.pair 31 0)) 4 = (facWord st (c.flags.getLsbD 1) j.first j.pair).toNat := by
  have id : c.id = n := by simpa using List.find?_some flight.1
  refine ⟨_, (execFactorStop_unloaded flight op can work).trans (congrArg _ (State.loadFactor_failing loads sound fault)), ?_⟩
  rw [← id]
  exact State.endFactor_word _ _ _ _ _ _ near low

section
variable {f : Fac} {gin : Nat} (work : c.work = some (f, gin))
include work

/-- R122, R129: a run that comes to a stop leaves with the word of that stop; k is its boundary where the stop is the command's
failure. -/
theorem factorStop_stops {x : Fac} {boundary : Nat} (k : Option Nat) (named : k.getD 0 = if k.isSome then boundary else 0)
    (stops : s.runFactor c j f gin = s.stopFactor c j x gin boundary k.isSome) (near : nearPair j.pair) (low : c.by_.g < 96) :
    ∃ t, exec (.factorStop n) s = .next t ∧ gone t n
      ∧ readNat t.mem (nearKey (coreOf c.by_.g) (fld j.pair 31 0)) 4
        = (facWord (if (s.engineWriteBytes c.by_ j.lo.toNat j.hi.toNat (j.writeBack x)).dropped ∨ c.status = 1 then 1
            else if k.isSome then (if j.op = 0x77 then 7 else 6)
            else if (s.engineWriteBytes c.by_ j.lo.toNat j.hi.toNat (j.writeBack x)).poisoned then 2 else 0)
          (c.flags.getLsbD 1 || x.lsf) (k.getD 0) j.pair).toNat := by
  obtain rfl : c.id = n := by simpa using List.find?_some flight.1
  have ends := s.stopFactor_word (c := c) x gin boundary k.isSome near low
  simp only [Bool.or_eq_true, beq_iff_eq] at ends
  rw [named]
  exact ⟨_, (execFactorStop_loaded flight op can work).trans (congrArg _ stops), ends⟩

/-- R129: a step that is not the last takes the command to the next boundary. -/
theorem factorStop_steps {x : Fac} (steps : s.runFactor c j f gin = s.modCmd c.id fun d => { d with
      work := some (x, gin), prog := c.prog + 1 }) :
    ∃ t, exec (.factorStop n) s = .next t ∧ t.mem = s.mem ∧ t.ctxs = s.ctxs
      ∧ (t.cmds.find? fun d => d.id == n) = some { c with work := some (x, gin), prog := c.prog + 1 } := by
  have found := flight.1
  obtain rfl : c.id = n := by simpa using List.find?_some found
  exact ⟨_, (execFactorStop_loaded flight op can work).trans (congrArg _ steps), rfl, rfl, State.modCmd_find found _ rfl⟩

/-- R131: an interruption. -/
theorem factorStop_pauses (pauses : s.runFactor c j f gin = s.pauseFactor c j f gin c.prog) (gen :
    (s.ctx c.by_.g).gen = c.by_.gen) :
    ∃ t d, exec (.factorStop n) s = .next t
      ∧ t.mem = (s.engineWriteBytes c.by_ j.lo.toNat j.hi.toNat (j.writeBack f)).state.mem
      ∧ (t.cmds.find? fun d => d.id == n) = some d ∧ d.work = none ∧ d.waits = c.waits ∧ d.by_ = c.by_
      ∧ d.op = .factor { j with first := c.prog, perm := permBits f.perm, grown := some (gin, f.seen) }
      ∧ (t.ctx c.by_.g).fprog = BitVec.ofNat 8 c.prog ∧ (t.ctx c.by_.g).arch.pc = (s.ctx c.by_.g).arch.pc := by
  have found := flight.1
  obtain rfl : c.id = n := by simpa using List.find?_some found
  obtain ⟨mem, ⟨d, held, unloaded, waits, by_, op'⟩, fprog, pc⟩ := s.pauseFactor_only (j := j) found f gin c.prog gen
  exact ⟨_, d, (execFactorStop_loaded flight op can work).trans (congrArg _ pauses), mem, held, unloaded, waits, by_, op',
      fprog, pc⟩

end

end

end

/-! What a loaded command does at a boundary (R129, R131). -/

section
variable {c : Cmd} {j : FacJob} {f : Fac} {gin : Nat} {s : State}

theorem State.runFactor_whole (whole : j.n ≤ c.prog) : s.runFactor c j f gin = s.stopFactor c j f gin c.prog false := if_pos whole

theorem State.runFactor_asked (left : c.prog < j.n) (asked : (s.ctx c.by_.g).gen = c.by_.gen ∧ s.stopsFactors c.by_.g = true) :
    s.runFactor c j f gin = s.pauseFactor c j f gin c.prog := (if_neg (by omega)).trans (if_pos asked)

section
variable (unasked : ¬((s.ctx c.by_.g).gen = c.by_.gen ∧ s.stopsFactors c.by_.g = true))
include unasked

theorem State.runFactor_fails (left : c.prog < j.n) (step : j.step f c.prog = none) :
    s.runFactor c j f gin = s.stopFactor c j f gin c.prog true := by
  rw [State.runFactor, if_neg (by omega), if_neg unasked, step]
theorem State.runFactor_last {x : Fac} (step : j.step f c.prog = some x) (last : c.prog + 1 = j.n) :
    s.runFactor c j f gin = s.stopFactor c j x gin j.n false := by
  rw [State.runFactor, if_neg (by omega), if_neg unasked, step]
  exact if_pos last
theorem State.runFactor_step {x : Fac} (left : c.prog < j.n) (step : j.step f c.prog = some x) (more : c.prog + 1 ≠ j.n) :
    s.runFactor c j f gin = s.modCmd c.id fun d => { d with work := some (x, gin), prog := c.prog + 1 } := by
  rw [State.runFactor, if_neg (by omega), if_neg unasked, step]
  exact if_neg more

end

end

end Sys2Proof.Machine
end

section
/-!
PROOFS. The ends of copies, direct accesses and collectives (R166, R262, R264, R314).
-/

namespace Sys2Proof.Machine

open Sys2Proof.Claims (gone nearPair wordAt inFlight transferred)

/-! A transfer that is over. -/

/-- R166: a command that leaves with its word, whatever it reports after. -/
theorem State.finished_word {c : Cmd} {pair : Word} (near : nearPair pair) (low : c.by_.g < 96) {s t : State}
    (after : ((s.completionWord c.by_ (pair.truncate 32) (mretWord c.status pair)).finish c.id).Follows t) :
    gone t c.id ∧ wordAt t c.by_.g pair c.status :=
  ⟨after.gone (State.finish_gone _ _), State.Follows.wordAt low near ((State.Follows.finish _ _).trans after)⟩

section
variable {c : Cmd} {s : State} {n : Nat}

theorem inFlight_id (flight : inFlight s n c) : c.id = n := by simpa using List.find?_some flight.1

theorem State.endColl_word (s : State) (p : BitVec 512) (addr : BitVec 32) (near : nearPair (u64At p 0x38)) (low : c.by_.g < 96) :
    gone (s.endColl c p addr) c.id ∧ wordAt (s.endColl c p addr) c.by_.g (u64At p 0x38) c.status :=
  State.finished_word near low ((State.Follows.gatherTo _ _ _).trans (.reportFail _ _ _))

section
variable (moved : transferred s n c)
include moved

theorem copyCompletion_word (p : BitVec 512) (addr : BitVec 32) (off : Word) (op : c.op = .cpy p addr off)
    (plain : (u8At p 6).testBit 7 = false) (near : nearPair (u64At p 0x38)) :
    ∃ t, exec (.copyCompletion n) s = .next t ∧ gone t n ∧ wordAt t c.by_.g (u64At p 0x38) c.status := by
  obtain ⟨flight, prog, may, -, low⟩ := moved
  obtain rfl := inFlight_id flight
  have run : exec (.copyCompletion c.id) s = execCopyCompletion c.id s := rfl
  rw [run, execCopyCompletion, flight.1]
  dsimp only
  rw [op]
  dsimp only
  rw [may, if_neg (by simp), if_pos prog, State.endCopy, plain]
  exact ⟨_, rfl, State.finished_word near low (.reportFail _ _ _)⟩

theorem globalAccessCompletion_word (fn : Nat) (order : DOrder) (scope : Scope) (z : Bool) (d : BitVec 256) (addr : BitVec 32)
    (va : Word)
    (op : c.op = .dpath fn order scope z d addr va) (near : nearPair (u64At d 16)) :
    ∃ t, exec (.globalAccessCompletion n) s = .next t ∧ gone t n ∧ wordAt t c.by_.g (u64At d 16) c.status := by
  obtain ⟨flight, prog, may, -, low⟩ := moved
  obtain rfl := inFlight_id flight
  have run : exec (.globalAccessCompletion c.id) s = execGlobalAccessCompletion c.id s := rfl
  rw [run, execGlobalAccessCompletion, flight.1]
  dsimp only
  rw [op]
  dsimp only
  rw [may, if_neg (by simp), if_pos prog]
  exact ⟨_, rfl, State.finished_word near low (.reportFail _ _ _)⟩

theorem collCompletion_word (p : BitVec 512) (addr : BitVec 32) (brought : List CollPart) (op : c.op = .coll p addr)
    (paced : s.mayPace (coreOf c.by_.g) 1 = true) (near : nearPair (u64At p 0x38)) :
    ∃ t, exec (.collCompletion n brought) s = .next t ∧ gone t n ∧ wordAt t c.by_.g (u64At p 0x38) c.status := by
  obtain ⟨flight, prog, may, -, low⟩ := moved
  obtain rfl := inFlight_id flight
  have run : exec (.collCompletion c.id brought) s = execCollCompletion c.id brought s := rfl
  rw [run, execCollCompletion, flight.1]
  dsimp only
  rw [op]
  dsimp only
  rw [may, paced, if_neg (by simp), if_pos prog]
  exact ⟨_, rfl, State.endColl_word _ p addr near low⟩

theorem collCompletion_unpaced (p : BitVec 512) (addr : BitVec 32) (brought : List CollPart) (op : c.op = .coll p addr)
    (unpaced : s.mayPace (coreOf c.by_.g) 1 = false) : exec (.collCompletion n brought) s = .next s := by
  obtain ⟨flight, -⟩ := moved
  have run : exec (.collCompletion n brought) s = execCollCompletion n brought s := rfl
  rw [run, execCollCompletion, flight.1]
  dsimp only
  rw [op]
  dsimp only
  rw [unpaced, if_pos (by simp)]

end

/-! A collective that cannot go on (R262, R264). -/

/-- R262, R263: another rank lies at a device outside the domain. -/
theorem State.collAstray_of_rank {p : BitVec 512} {table : List Nat} {r d : Nat} (ranks : s.collTable p = some table)
    (rank : table[r]? = some d) (other : r ≠ u16At p 4) (away : d ≠ s.edge.dev) (out : d ∉ s.edge.domain) :
        s.collAstray p = true := by
  unfold State.collAstray
  rw [ranks]
  refine List.any_eq_true.2 ⟨(d, r), List.mk_mem_zipIdx_iff_getElem?.2 rank, ?_⟩
  simp [other, away, out]

/-- R262, R264: no address of this rank fails: FADDR is a free value. -/
theorem State.runColl_astray {p : BitVec 512} {table : List Nat} (ranks : s.collTable p = some table)
    (astray : s.collAstray p = true) (parts : List CollPart) :
    s.runColl c p parts = ((Move.start s.choose.2).halt 0x0E s.choose.1, 0) := by
  unfold State.runColl
  rw [ranks, astray]
  dsimp only
  rw [if_pos (by simp)]
  rfl

theorem State.spendPace_collTable (s : State) (core engine : Nat) (p : BitVec 512) :
    (s.spendPace core engine).collTable p = s.collTable p ∧ (s.spendPace core engine).collAstray p = s.collAstray p
      ∧ (s.spendPace core engine).cmds = s.cmds ∧ (s.spendPace core engine).sideLogged c = s.sideLogged c := by
  unfold State.spendPace
  split <;> exact ⟨rfl, rfl, rfl, rfl⟩

/-- R166, R182: a transfer that is over, with no byte of it side-logged. -/
theorem State.settleMove_over {m : Move} {d : Cmd} (s : State) (done : Cmd → State → State) (hold : m.hold = none) (full :
    m.full = false)
    (logged : (m.keep c).sideLogged c = false) (found : ((m.keep c).cmds.find? fun d => d.id == c.id) = some d) :
    s.settleMove c m done = done d (m.keep c) := by
  unfold State.settleMove
  dsimp only
  rw [hold, full, logged, found]
  rfl

/-- What a transfer that a cause has stopped leaves of its command. -/
def Cmd.stopped (d : Cmd) (f : Nat × Word) : Cmd := { d with prog := 1, status := 1, fail := some f }
theorem Move.keep_stopped {m : Move} {f : Nat × Word} (stop : m.stop = some f) (c : Cmd) :
    m.keep c = m.state.modCmd c.id fun d => d.stopped f := by
  unfold Move.keep
  rw [stop]
  rfl

/-- R166, R264: a collective that a cause has stopped ends with FAULT. -/
theorem State.settleMove_collStopped (s : State) (p : BitVec 512) (addr : BitVec 32) {m : Move} {f : Nat × Word} {d : Cmd}
    (stop : m.stop = some f) (hold : m.hold = none) (full : m.full = false) (logged : m.state.sideLogged c = false)
    (found : (m.state.cmds.find? fun d => d.id == c.id) = some d) (by_ : d.by_ = c.by_) (near : nearPair (u64At p 0x38))
    (low : c.by_.g < 96) :
    gone (s.settleMove c m fun d t => t.endColl d p addr) c.id
      ∧ wordAt (s.settleMove c m fun d t => t.endColl d p addr) c.by_.g (u64At p 0x38) 1 := by
  have id : d.id = c.id := by simpa using List.find?_some found
  have kept : ((m.keep c).cmds.find? fun d => d.id == c.id) = some (d.stopped f) := by
    rw [Move.keep_stopped stop]
    exact State.modCmd_find found _ id
  have logged' : (m.keep c).sideLogged c = false := logged
  rw [State.settleMove_over s _ hold full logged' kept, ← id, ← by_]
  exact State.endColl_word (c := d.stopped f) _ p addr near (by_ ▸ low)

end

theorem collCompletion_astray (n r d : Nat) (p : BitVec 512) (addr : BitVec 32) (table : List Nat) (c : Cmd) (s : State)
    (flight : inFlight s n c) (op : c.op = .coll p addr) (prog : c.prog = 0) (left : c.left = []) (may : s.mayRun c = true)
    (paced : s.mayPace (coreOf c.by_.g) 1 = true) (logged : s.sideLogged c = false) (ranks : s.collTable p = some table)
    (rank : table[r]? = some d) (other : r ≠ u16At p 4) (away : d ≠ s.edge.dev) (out : d ∉ s.edge.domain)
    (near : nearPair (u64At p 0x38)) (low : c.by_.g < 96) :
    ∃ t, exec (.collCompletion n []) s = .next t ∧ gone t n ∧ wordAt t c.by_.g (u64At p 0x38) 1 := by
  have astray := State.collAstray_of_rank ranks rank other away out
  have fails : s.collFails c p [] = true := by simp [State.collFails, astray]
  obtain ⟨ranks', astray', cmds, logged'⟩ := s.spendPace_collTable (c := c) (coreOf c.by_.g) 1 p
  have run : exec (.collCompletion n []) s = execCollCompletion n [] s := rfl
  rw [run, execCollCompletion, flight.1, ite_self]
  dsimp only
  rw [op]
  dsimp only
  rw [may, paced, fails, left, if_neg (by simp), if_neg (by omega), if_neg (by simp), if_neg (by simp),
    State.runColl_astray (ranks'.trans ranks) (astray'.trans astray)]
  obtain rfl := inFlight_id flight
  have found : ((s.spendPace (coreOf c.by_.g) 1).choose.2.cmds.find? fun d => d.id == c.id) = some c := cmds.symm ▸ flight.1
  exact ⟨_, rfl, State.settleMove_collStopped _ p addr rfl rfl rfl (logged'.trans logged)
      (State.modCmd_find found _ rfl) rfl near low⟩

end Sys2Proof.Machine
end

section
/-!
PROOFS. The weight streamer (R104, R374).
-/

namespace Sys2Proof.Machine

open Sys2Proof.Claims (gone nearPair wordAt)

/-! A tile in the weight buffers (R104). -/

/-- R104: the slot of a tile is appended at its core. -/
theorem State.bufferTile_tail (s : State) (cfg : Word) (l : List (Byte × Bool)) (core k : Nat) :
    AMap.get 0 ((s.bufferTile cfg l core).core k).tail 7
      = if k = core then AMap.get 0 (s.core k).tail 7 + 1 else AMap.get 0 (s.core k).tail 7 := by
  unfold State.bufferTile State.appendRing
  by_cases same : k = core
  · rw [same, State.core_modCore_self, if_pos rfl]
    exact AMap.get_put_self _ _ _ _
  · rw [State.core_modCore_other _ _ same, if_neg same]
    rfl

theorem State.bufferTiles_unnamed (cfg : Word) (l : List (Byte × Bool)) {k : Nat} (cores : List Nat) (s : State) (out : k ∉ cores) :
    AMap.get 0 ((cores.foldl (fun s k => s.bufferTile cfg l k) s).core k).tail 7 = AMap.get 0 (s.core k).tail 7 := by
  induction cores generalizing s with
  | nil => rfl
  | cons core cores ih =>
    rw [List.mem_cons, not_or] at out
    rw [List.foldl_cons, ih _ out.2, State.bufferTile_tail, if_neg out.1]

/-- R374: each core that is named once takes one slot. -/
theorem State.bufferTiles_named (cfg : Word) (l : List (Byte × Bool)) {k : Nat} (cores : List Nat) (s : State) (once : cores.Nodup)
    (named : k ∈ cores) :
    AMap.get 0 ((cores.foldl (fun s k => s.bufferTile cfg l k) s).core k).tail 7 = AMap.get 0 (s.core k).tail 7 + 1 := by
  induction cores generalizing s with
  | nil => cases named
  | cons core cores ih =>
    obtain ⟨out, once⟩ := List.nodup_cons.1 once
    rw [List.foldl_cons]
    rcases List.mem_cons.1 named with rfl | later
    · rw [State.bufferTiles_unnamed cfg l cores _ out, State.bufferTile_tail, if_pos rfl]
    · have other : k ≠ core := fun same => out (same ▸ later)
      rw [ih _ once later, State.bufferTile_tail, if_neg other]

theorem wstrmCores_nodup (cl : Nat) (p : BitVec 512) : (wstrmCores cl p).Nodup :=
  (List.nodup_range.filter _).map fun a b same => by omega
theorem mem_wstrmCores {cl k : Nat} {p : BitVec 512} (cluster : k / 4 = cl) (named : (u8At p 0).testBit (k % 4) = true) :
    k ∈ wstrmCores cl p :=
  List.mem_map.2 ⟨k % 4, List.mem_filter.2 ⟨List.mem_range.2 (Nat.mod_lt _ (by omega)), named⟩, by omega⟩

theorem State.tileBytes_readsOnly (s : State) (c : Cmd) (p : BitVec 512) : s.ReadsOnly (s.tileBytes c p).1.state := by
  unfold State.tileBytes
  dsimp only
  split
  · exact Move.tileBlocks_readsOnly c _ _ _ (Move.start s) _ _
  · exact Move.getFlags_readsOnly c _ (Move.start s) _

/-! The events (R374). -/

section
variable {cl : Nat} {c : Cmd} {p : BitVec 512} {addr : BitVec 32} {cfg : Word} {s : State}

theorem execWeightStreamTile_idle (idle : s.streaming cl = none) : exec (.weightStreamTile cl) s = .next s := by
  have run : exec (.weightStreamTile cl) s = execWeightStreamTile cl s := rfl
  rw [run, execWeightStreamTile, State.canStream, idle]
  rfl

variable (first : s.streaming cl = some c) (op : c.op = .wstrm p addr cfg)
include first op

theorem weightStreamTile_waits (whole : (u32At p 4).toNat ≤ c.prog) (unready : s.ready c = false) :
    exec (.weightStreamTile cl) s = .next s := by
  have run : exec (.weightStreamTile cl) s = execWeightStreamTile cl s := rfl
  have stays : s.canStream cl = false := by simp [State.canStream, first, op, whole, unready]
  rw [run, execWeightStreamTile, stays]
  rfl

theorem weightStreamTile_word (hold : c.hold = none) (low : c.by_.g < 96) (whole : (u32At p 4).toNat ≤ c.prog) (ready :
    s.ready c = true)
    (near : nearPair (u64At p 0x20)) :
    ∃ t, exec (.weightStreamTile cl) s = .next t ∧ gone t c.id ∧ wordAt t c.by_.g (u64At p 0x20) c.status := by
  have run : exec (.weightStreamTile cl) s = execWeightStreamTile cl s := rfl
  have goes : s.canStream cl = true := by simp [State.canStream, first, hold, op, whole, ready]
  rw [run, execWeightStreamTile, goes, first, if_neg (by simp)]
  dsimp only
  rw [op]
  dsimp only
  rw [if_pos whole]
  exact ⟨_, rfl, State.finished_word near low (.reportFail _ _ _)⟩

theorem weightStreamTile_tails (hold : c.hold = none) (more : c.prog + 1 < (u32At p 4).toNat)
    (room : s.bufferRoom cl p ((wbSlots cfg).getD 1) = true) (live : (s.tileBytes c p).1.live = true) :
    ∃ t, exec (.weightStreamTile cl) s = .next t ∧ ∀ k, k / 4 = cl → (u8At p 0).testBit (k % 4) = true →
      AMap.get 0 (t.core k).tail 7 = AMap.get 0 (s.core k).tail 7 + 1 := by
  have run : exec (.weightStreamTile cl) s = execWeightStreamTile cl s := rfl
  have left : ¬(u32At p 4).toNat ≤ c.prog := by omega
  have goes : s.canStream cl = true := by simp [State.canStream, first, hold, op, left, room]
  simp only [Move.live, Bool.and_eq_true, Option.isNone_iff_eq_none, Bool.not_eq_true'] at live
  obtain ⟨⟨stop, held⟩, full⟩ := live
  rw [run, execWeightStreamTile, goes, first, if_neg (by simp)]
  dsimp only
  rw [op]
  dsimp only
  rw [if_neg left, held, full, stop, if_neg (by simp), if_neg (by simp)]
  dsimp only
  rw [if_neg (by omega)]
  refine ⟨_, rfl, fun k cluster named => ?_⟩
  have cores : (s.tileBytes c p).1.state.core k = s.core k := by
    rw [State.core, (s.tileBytes_readsOnly c p).cores, ← State.core]
  rw [State.core_modCmd, State.bufferTiles_named cfg _ _ _ (wstrmCores_nodup cl p) (mem_wstrmCores cluster named), cores]

end

end Sys2Proof.Machine
end

section
/-!
PROOFS. A stream's prefetch (R144, R146, R198).
-/

namespace Sys2Proof.Machine

/-! Units that are to be read again (R146, R196). -/

theorem agreeingUnits_prefix (d : BitVec 512) (bytes : List (Nat × Byte)) (k off : Nat) (l : List StreamUnit) :
    agreeingUnits d bytes k off l <+: l := by
  induction l generalizing k off with
  | nil => exact List.prefix_rfl
  | cons u l ih =>
    unfold agreeingUnits
    split
    · exact (List.prefix_cons_inj u).2 (ih _ _)
    · exact List.nil_prefix

/-- What is left of the units of the streams for which a condition holds is their first ones; the other streams keep all. -/
theorem Ctx.rereadUnits_units (c : Ctx) (bytes : List (Nat × Byte)) (which : Nat → Bool) :
    (c.rereadUnits bytes which).arch = c.arch
      ∧ (∀ r, AMap.get [] (c.rereadUnits bytes which).units r <+: AMap.get [] c.units r)
      ∧ ∀ r, which r = false → AMap.get [] (c.rereadUnits bytes which).units r = AMap.get [] c.units r := by
  refine foldl_keeps (P := fun x : Ctx => x.arch = c.arch ∧ (∀ r, AMap.get [] x.units r <+: AMap.get [] c.units r)
    ∧ ∀ r, which r = false → AMap.get [] x.units r = AMap.get [] c.units r) _ ?_ _ c ⟨rfl, fun _ => List.prefix_rfl, fun _ _ => rfl⟩
  intro x p ⟨arch, first, rest⟩
  dsimp only
  split
  · exact ⟨arch, first, rest⟩
  · rename_i changes
    refine ⟨arch, fun r => ?_, fun r out => ?_⟩
    · by_cases same : r = p.1
      · rw [same, AMap.get_put_self]
        exact (agreeingUnits_prefix ..).trans (first p.1)
      · rw [AMap.get_put_other _ _ _ same]
        exact first r
    · have other : r ≠ p.1 := by
        rintro rfl
        simp [out] at changes
      rw [AMap.get_put_other _ _ _ other]
      exact rest r out

/-! The events (R146). -/

theorem execStreamPrefetch_waits {g q : Nat} {s : State} (full : s.canFetch g q = false) :
    exec (.streamPrefetch g q) s = .next s := by
  have run : exec (.streamPrefetch g q) s = execStreamPrefetch g q s := rfl
  rw [run, execStreamPrefetch, full]
  rfl

/-- R144: a unit of a stream that is not decoded is its bytes. -/
theorem State.plainUnit_read {s : State} {g k : Nat} {d : BitVec 512} {l : List Byte}
    (bytes : s.streamBytes g (streamUnit d k) = .ok l) :
    s.plainUnit g d k = ⟨BitVec.ofNat 2048 (leNat l), none, 0, (s.ctx g).outOfRange (streamUnit d k)⟩ := by
  unfold State.plainUnit
  rw [bytes]
theorem State.fetchUnit_plain {s : State} {g q k off : Nat} {d : BitVec 512} (plain : streamDec d = false) :
    s.fetchUnit g q d k off = s.plainUnit g d k := if_neg (by rw [plain]; exact Bool.false_ne_true)

theorem streamPrefetch_unit (g q : Nat) (st : Stream) (s : State) (bound : AMap.find (s.ctx g).arch.streams q = some st)
    (may : s.canFetch g q = true) :
    ∃ t u, exec (.streamPrefetch g q) s = .next t ∧ t.mem = s.mem ∧ (∀ h, h ≠ g → t.ctx h = s.ctx h)
      ∧ AMap.get [] (t.ctx g).units q = AMap.get [] (s.ctx g).units q ++ [u]
      ∧ AMap.get 0 (t.ctx g).fetched q = AMap.get 0 (s.ctx g).fetched q + 1 ∧ (t.ctx g).arch = (s.ctx g).arch
      ∧ AMap.get 0 (t.ctx g).fetchOff q = AMap.get 0 (s.ctx g).fetchOff q + u.len
      ∧ (∀ r, r ≠ q → AMap.get [] (t.ctx g).units r <+: AMap.get [] (s.ctx g).units r)
      ∧ ∀ l, streamDec st.desc = false → s.streamBytes g (streamUnit st.desc (AMap.get 0 (s.ctx g).fetched q)) = .ok l →
        u.bad = none ∧ u.len = 0 ∧ u.data = BitVec.ofNat 2048 (leNat l) := by
  have run : exec (.streamPrefetch g q) s = execStreamPrefetch g q s := rfl
  rw [run, execStreamPrefetch, may, if_neg (by simp)]
  dsimp only
  rw [bound]
  dsimp only
  generalize s.streamCells g _ = bytes
  obtain ⟨arch, first, rest⟩ := (s.ctx g).rereadUnits_units bytes fun i => i != q
  refine ⟨_, s.fetchUnit g q st.desc (AMap.get 0 (s.ctx g).fetched q) (AMap.get 0 (s.ctx g).fetchOff q), rfl, rfl,
    fun h other => ?_, ?_, ?_, ?_, ?_, fun r other => ?_, fun l plain read => ?_⟩
  · rw [State.ctx_modCtx_other _ _ other, State.ctx_modCtx_other _ _ other]
  · rw [State.ctx_modCtx_self, State.ctx_modCtx_self]
    exact (AMap.get_put_self _ _ _ _).trans (by rw [rest q (by simp)])
  · rw [State.ctx_modCtx_self]
    exact AMap.get_put_self _ _ _ _
  · rw [State.ctx_modCtx_self, State.ctx_modCtx_self]
    exact arch
  · rw [State.ctx_modCtx_self]
    exact AMap.get_put_self _ _ _ _
  · rw [State.ctx_modCtx_self, State.ctx_modCtx_self]
    dsimp only
    rw [AMap.get_put_other _ _ _ other]
    exact first r
  · rw [State.fetchUnit_plain plain, State.plainUnit_read read]
    exact ⟨rfl, rfl, rfl⟩

end Sys2Proof.Machine
end

section
/-!
PROOFS. The engines' steps and completions: O34.
-/

namespace Sys2Proof.Machine

open Sys2Proof.Claims (transferred)

/-- Settles O34, event by event. A factor command is followed to each of its boundaries: what it does there, and what that
leaves. -/
theorem engineCompletionEvents : Obligations.EngineCompletionEvents := by
  unfold Obligations.EngineCompletionEvents
  refine ⟨matrixKstep_mma, ?mmaFails, matrixKstep_gang, fun core bank s idle => ⟨execMatrixKstep_idle idle,
      execMretDrain_idle idle⟩,
    mretDrain_word, gangCompletion_word, ?factor, ?transfers, ?astray, ?weights, fun cl s => execWeightStreamTile_idle,
    fun g q st s bound => ⟨streamPrefetch_unit g q st s bound, execStreamPrefetch_waits⟩⟩
  case mmaFails =>
    intro core bank c j e s head ready path op tiles
    exact ⟨_, execMatrixKstep_unreadable head (State.canStep_mma head ready path op tiles) op tiles,
        s.failMma_gone core c bank _ _ _⟩
  case factor =>
    intro n j c s flight op can fault word
    refine ⟨factorStop_loads flight op can, fun l a r st code => factorStop_failing flight op can, ?_⟩
    intro f gin work near low x asked put failed ends
    have requested : asked ↔ (s.ctx c.by_.g).gen = c.by_.gen ∧ s.stopsFactors c.by_.g = true :=
      and_congr_right' (s.stopsFactors_iff c.by_.g).symm
    refine ⟨fun whole => ?_, fun left unasked step => ?_, fun left unasked y step => ⟨fun last => ?_, fun more => ?_⟩,
      fun left asks => ?_⟩
    · exact factorStop_stops flight op can work none rfl (State.runFactor_whole whole) near low
    · rw [requested] at unasked
      exact factorStop_stops flight op can work (some c.prog) rfl (State.runFactor_fails unasked left step) near low
    · rw [requested] at unasked
      exact factorStop_stops flight op can work none rfl (State.runFactor_last unasked step last) near low
    · rw [requested] at unasked
      exact factorStop_steps flight op can work (State.runFactor_step unasked left step more)
    · rw [requested] at asks
      exact factorStop_pauses flight op can work (State.runFactor_asked left asks) asks.1
  case transfers =>
    intro n c s moved
    exact ⟨fun p addr off => copyCompletion_word moved p addr off,
      fun p addr brought op => ⟨fun paced near _ => collCompletion_word moved p addr brought op paced near,
        collCompletion_unpaced moved p addr brought op⟩,
      fun fn order scope z d addr va => globalAccessCompletion_word moved fn order scope z d addr va⟩
  case astray =>
    intro n r d p addr table c s flight op prog left may paced logged ranks rank other away out near _ low
    exact collCompletion_astray n r d p addr table c s flight op prog left may paced logged ranks rank other away out near low
  case weights =>
    intro cl c p addr cfg s first op hold _ low
    exact ⟨weightStreamTile_word first op hold low, weightStreamTile_waits first op, weightStreamTile_tails first op hold⟩

end Sys2Proof.Machine
end
